-- ==== Sys2Proof/Word.lean ====
section
/-! DEFINITION. The word types of the S96 and the plainest arithmetic on them (R8: little-endian, bit 0 least). -/

namespace Sys2Proof

abbrev Byte := BitVec 8
/-- A register word (DWORD). -/
abbrev Word := BitVec 32
abbrev DWord := BitVec 64

/-- Field [hi:lo] of a number, as the spec writes bit ranges (R8). -/
def fieldN (x hi lo : Nat) : Nat := x / 2 ^ lo % 2 ^ (hi + 1 - lo)

/-- Field [hi:lo] of a register word. -/
def fld (w : Word) (hi lo : Nat) : Nat := fieldN w.toNat hi lo

/-- Bit [n] of a register word. -/
def bitOf (w : Word) (n : Nat) : Bool := w.getLsbD n

/-- The word whose field starting at bit `lo` is `x`. -/
def atBit (x lo : Nat) : Word := BitVec.ofNat 32 (x * 2 ^ lo)

/-- 1 or 0. -/
def b2n (b : Bool) : Nat := if b then 1 else 0

/-- The mask of bits [hi:lo]. -/
def maskBits (hi lo : Nat) : Word := BitVec.ofNat 32 (2 ^ (hi + 1) - 2 ^ lo)

/-- `w` with field [hi:lo] replaced by `x`. -/
def setFld (w : Word) (hi lo x : Nat) : Word := (w &&& ~~~ maskBits hi lo) ||| (atBit x lo &&& maskBits hi lo)

/-- Round up to a multiple of `m` (R10: a time is rounded up to a beat). -/
def roundUp (x m : Nat) : Nat := (x + m - 1) / m * m

/-- ceil(a / b). -/
def ceilDiv (a b : Nat) : Nat := (a + b - 1) / b

/-- ceil(log2 n) by search over at most 64 powers. -/
def ceilLog2 (n : Nat) : Nat := ((List.range 64).find? (fun k => decide (n ≤ 2 ^ k))).getD 64

end Sys2Proof
end

