-- ==== Sys2Proof/Config.lean ====
section
/-! DEFINITION. What an implementation of the S96 fixes (the ordering codes of R1 to R4) and the free values
the manual leaves open. A free value is opaque: nothing can be proved of it but its bounds where it is used. -/

namespace Sys2Proof

/-- The four ordering codes (R1). Log 11, DESIGN CHOICE: which variant. -/
inductive Variant where
  | svx96A | svx72A | svx96N | svx96E
  deriving DecidableEq, Repr

/-- Compute dies present (R1, R2: on SVX-72A the absent die is Q3). -/
def Variant.dies : Variant → Nat
  | .svx72A => 3
  | _ => 4

/-- DDR5 present (R1). -/
def Variant.hasDdr : Variant → Bool
  | .svx96N => false
  | _ => true

/-- Gather-merge engine, index matcher and activity predictor present (R1, R235). -/
def Variant.hasSparse : Variant → Bool
  | .svx96E => false
  | _ => true

/-- Hub PAGE_CAPS (R4). -/
def Variant.hubCaps : Variant → Word
  | .svx96A => 0x0000433F
  | .svx72A => 0x00004337
  | .svx96N => 0x0000032F
  | .svx96E => 0x0000431F

/-- The die of cluster c, where cluster_index = y × 18 + x (R398; die blocks of 9 × 6). -/
def dieOfCluster (c : Nat) : Nat := (if 9 ≤ c % 18 then 1 else 0) + (if 6 ≤ c / 18 then 2 else 0)

/-- Cluster c exists on the variant (R2). -/
def Variant.hasCluster (v : Variant) (c : Nat) : Bool := decide (c < 216) && decide (dieOfCluster c < v.dies)

/-- Stacks and channels present (R1). -/
def Variant.stacks (v : Variant) : Nat := 3 * v.dies
def Variant.channels (v : Variant) : Nat := if v.hasDdr then 4 * v.dies else 0

/-- Link L present: L36 to L47 are Q3's (R2). -/
def Variant.hasLink (v : Variant) (l : Nat) : Bool := decide (l < 12 * v.dies)

namespace Config

/-- Fresh free values, indexed by a counter the state holds (log 6, DESIGN CHOICE). -/
opaque freeValue : Nat → Nat

/-- SAMPLE's choice depends only on seed, vertex and degree (R95): the k-th draw. -/
opaque sampleDraw : (seed vertex degree k : Nat) → Nat

/-- Which of the results that R224 allows RECIP (0) and RSQRT (1), within 1 ULP, and EXP (2), within 2 ULP, give for an operand. -/
opaque ulpChoice : Nat → BitVec 32 → Nat

/-- SHA-384 (FIPS 180-4) of a byte string, 48 bytes; used, not defined, by R446 and R456. Log 13, DESIGN CHOICE: this and
the cryptographic functions below are opaque. -/
opaque sha384 : List Byte → List Byte

/-- Ed25519 and ML-DSA-65 verification: key, message, signature (R446). -/
opaque ed25519Verify : List Byte → List Byte → List Byte → Bool
opaque mldsaVerify : List Byte → List Byte → List Byte → Bool

/-- The dual signature by the alias keys, and by the identity keys (R451, R454). The salt is the measurements. -/
opaque aliasSign : (salt message : List Byte) → List Byte
opaque identitySign : List Byte → List Byte

/-- The digest boot ROM holds for signing key index i (R446 code 3). -/
opaque romKeyDigest : Nat → List Byte

/-- This device's BIND value: first 8 bytes of the digest of its identity public keys (R445). -/
opaque deviceBind : List Byte

/-- The certificates of slot 0: Fenhorn root and identity (R455), and the body of an alias certificate (R451). -/
opaque rootCertificate : List Byte
opaque identityCertificate : List Byte
opaque aliasCertificateBody : (salt : List Byte) → List Byte

/-- Measurement 1, boot ROM (R456). -/
opaque bootRomDigest : List Byte

/-- Why the training of a unit that failed in service fails, by beat and unit: one of the REASON values 1 to 6 (R349, R351). -/
opaque trainingReason : (beat unit : Nat) → Nat

/-- The nonce of a signed SPDM response: a fresh one per response. -/
opaque nonce : Nat → List Byte

/-- Capacity of one HBM4E stack in 4 KiB units (R351). -/
def hbmUnits : Nat := 11718750

end Config

end Sys2Proof
end

