-- ==== Sys2Proof/Syntax.lean ====
section
/-! DEFINITION. The commands of the block: one constructor per row of spec/opcode_table.json, in the table's order, with
what the sender supplies as operands. Everything else a step needs it finds in the state. -/

namespace Sys2Proof

/-- Who makes a register access: a PCIe function (0 the PF, 1 to 31 the VFs; R53, R391), or a thread slot of a control core (R423, R433). -/
inductive Agent where
  | fn (n : Nat)
  | core (n thread : Nat)
  deriving DecidableEq, Repr

/-- A task of an admitted graph: the graph's serial number and the task's index. -/
structure TaskRef where
  gid : Nat
  task : Nat
  deriving DecidableEq, Repr

/-- One row of a HELLO (R369) as received. -/
structure HelloMsg where
  vmin : Nat
  vmax : Nat
  kind : Nat
  features : Nat
  device : Nat
  port : Nat
  link : Nat
  fabricGen : Nat
  secVersion : Nat
  digest : Nat
  epoch : Nat
  time : Nat
  unlocked : Bool
  deriving DecidableEq, Repr

/-- The common header of a packet (R360) and the port it arrived on. -/
structure PktHdr where
  port : Nat
  ctx : Nat
  dst : Nat
  src : Nat
  poison : Nat        -- POISON_MAP
  deriving DecidableEq, Repr

/-- A SIGNAL packet's fields (R361). -/
structure SignalMsg where
  rid : Nat
  op : Nat
  fenced : Bool
  n : Nat
  fence : Nat
  group : Nat
  step : Nat
  gen : Nat
  cop : Nat
  format : Nat
  elements : Nat
  deriving DecidableEq, Repr

/-- Errors a fetch or a scrub meets in the cells, and completions of host memory marked poisoned (R50), by granule of the transfer.
Log 89, DESIGN CHOICE: errors in the cells (R344 to R349). -/
inductive CellError where
  | corrected (granule : Nat)
  | uncorrectable (granule : Nat)
  | completionPoisoned (granule : Nat)
  deriving DecidableEq, Repr

/-- What a boot step's attempt reports (R438 to R442). -/
structure StepEnd where
  pass : Bool
  code : Nat
  durUs : Nat
  detail : Nat
  deriving DecidableEq, Repr

/-- Sensor readings (R467). -/
structure Temps where
  dies : List Nat
  hbms : List Nat
  dimms : List Nat
  vps : Nat
  inlet : Nat
  deriving DecidableEq, Repr

inductive Instr where
  -- registers (00, 03, 15)
  | registerWrite (who : Agent) (bar off size value be : Nat)
  | rwdStage (who : Agent) (off value : Nat)
  | pageReset (who : Agent) (page value : Nat)
  | pageQuiesce (who : Agent) (page : Nat) (on enable : Bool)
  | pageEnable (who : Agent) (page : Nat) (on quiesce : Bool)
  | doorbell (fn queue tail : Nat)
  | qReset (fn queue : Nat)
  -- tracker (03, 10)
  | admission (queue : Nat)
  | admissionCommit
  | taskRelease (t : TaskRef)
  | primedRelease (t : TaskRef)
  | signalTaskComplete (t : TaskRef)
  | slotTake (cluster : Nat)
  | dispatch (cluster : Nat)
  | instanceComplete (cluster slot : Nat)
  | taskTimeout (t : TaskRef)
  | completionRecord (gid : Nat)
  | cancelTag (who : Agent) (queue : Nat)
  | cancelQueue (who : Agent) (queue : Nat)
  | cancelContext (who : Agent) (queue : Nat)
  | generationBump (cluster slot : Nat)
  | instanceStop (cluster slot : Nat)
  | pageZeroed (cluster pages : Nat)
  | ttXlateInv (who : Agent) (ctx : Nat)
  | xlateInvDone
  | contextSave (who : Agent) (ctx limitUs : Nat)
  | saveImageWrite
  | saveTimeout
  | contextRestore (who : Agent) (ctx limitUs : Nat)
  -- Deals
  | dealOpen (who : Agent) (slot : Nat)
  | dealCommit (who : Agent) (slot : Nat) (atTime lateFail : Bool)
  | dealAbandon (who : Agent) (slot : Nat)
  | dirPush (who : Agent) (slot : Nat) (compare low32 write : Bool)
  | dealCommitBeat
  -- Hawker and Gather Unit (04, 10)
  | hawkerFetchIssue (cluster : Nat)
  | fetchArrive (id : Nat) (errors : List CellError)
  | tcFlush (who : Agent) (cluster : Nat) (enable : Bool)
  | gatherIndex (cluster slot : Nat)
  | windowIdleTimeout (cluster slot : Nat)
  | rowFetchIssue (cluster slot : Nat)
  | remoteTimeout (id : Nat)
  | scatterUpdate (cluster slot : Nat)
  | scatterEntryArrive (node : Nat)
  | scatterHoldExpire (node : Nat)
  | versionBump (cluster : Nat)
  -- Wholesale path and Clearing House (05)
  | tagGrant
  | slabDeal (cluster slot : Nat)
  | dealWaitExpire (cluster slot : Nat)
  | closeArrive (node : Nat)
  | slabPartialSend (cluster lane : Nat)
  | hubEntryMerge (node : Nat)
  | aggregateArrive
  | mcastRowSend (cluster : Nat)
  | mcastRowReceive (cluster receiver : Nat)
  | mcastTimeout (cluster : Nat)
  | mcastDetach (cluster : Nat)
  | tileWrite (cluster : Nat)
  -- Shelf and tables (06)
  | migrationGo (who : Agent) (cluster ctx table : Nat)
  | migrate (cluster : Nat)
  | migrateRowLanded (cluster : Nat) (errors : List CellError)
  | migrateAttemptTimeout (cluster : Nat)
  | evict (cluster : Nat)
  | tablePause (who : Agent) (ctx : Nat) (paused versioned : Bool)
  | copyDescriptorRead (cluster slot : Nat)
  -- synchronisation (11)
  | opAdd (who : Agent) (slot : Nat) (fence : Bool)
  | opTake (who : Agent) (slot : Nat) (fence : Bool)
  | opInit (who : Agent) (slot : Nat)
  | opRead (who : Agent) (slot : Nat)
  | opWait (who : Agent) (slot : Nat)
  | opUnwait (who : Agent) (slot : Nat)
  | taskSignal (t : TaskRef)
  | taskWaitRegister (t : TaskRef)
  | syncTimeout
  | watchdogTick
  | cellAddLand
  | syCellAdd (who : Agent) (cluster cell n : Nat)
  | syXlateInv (who : Agent) (ctx : Nat)
  | parkedSignalRelease (port : Nat)
  | parkTimeout (port : Nat)
  -- Crier (12)
  | crierTick
  | epochBoundary
  | loadArm (who : Agent)
  | timeLoad
  | epochEdge (tick : Nat)
  | epochMissed
  | refclkLost
  | timeXferSend
  | launchEntryTake (t : TaskRef)
  | launch (t : TaskRef)
  | ballastStep (up : Bool)
  -- memory (13)
  | scrub (block : Bool) (unit : Nat) (offset : Nat) (error : Option CellError)
  | memFailed (block : Bool) (unit : Nat)
  -- links (14)
  | flitReceive (port link : Nat) (bytes : List Byte)
  | nakGapTimeout (port : Nat)
  | replayTimeout (port : Nat)
  | linkFail (port link : Nat)
  | linkSilenceTimeout (port link : Nat)
  | portLostTimeout (port : Nat)
  | linkTrained (port link : Nat) (alternate : Bool)
  | helloRepeat (port link : Nat)
  | hello (port link : Nat) (m : HelloMsg)
  | retrain (who : Agent) (port : Nat)
  | rejoin (who : Agent) (port links : Nat)
  | write (h : PktHdr) (addr gen pwseq group step : Nat) (data : List Byte)
  | read (h : PktHdr) (tag exportId row rowBytes : Nat)
  | resp (h : PktHdr) (tag chunk : Nat) (refused : Bool) (data : List Byte)
  | signal (h : PktHdr) (m : SignalMsg)
  | time (h : PktHdr) (reply unlocked : Bool) (tSend fabricGen tEchoRx tEchoTx tRx : Nat)
  | abort (h : PktHdr) (group gen code origin : Nat)
  | mcast (h : PktHdr) (streamId group gen row destOffset pwseq chunk : Nat) (last : Bool) (data : List Byte)
  | mcredit (h : PktHdr) (streamId group row : Nat)
  | mgmt (h : PktHdr) (mctp : List Byte)
  | collectiveStart (t : TaskRef)
  | groupValid (who : Agent) (owner gen : Nat)
  -- host interface (15)
  | apertureRead (fn off len : Nat)
  | apertureWrite (fn off : Nat) (data : List Byte) (poisoned : Bool)
  | atsInvalidate (fn addr len : Nat)
  | flr (fn : Nat)
  | pfFlr
  | pcieLinkDown
  | mctpControl (src command : Nat) (body : List Byte)
  | mctpOtherType (src type : Nat)
  | getHealth (src : Nat)
  | readReg (src off : Nat)
  | getJournal (src age count : Nat)
  | getErrors (src count : Nat)
  -- SPDM (17)
  | getVersion
  | getCapabilities
  | negotiateAlgorithms (hashes sigs : Nat)
  | getDigests
  | getCertificate (slot off len : Nat)
  | challenge (slot : Nat) (nonce : List Byte)
  | getMeasurements (index : Nat) (signed : Bool) (nonce : List Byte)
  | keyExchange
  -- control cores (16)
  | schedReady (core t : Nat)
  | schedBlock (core : Nat)
  | schedYield (core : Nat)
  | schedDelay (core n : Nat)
  | schedCancel (core t : Nat)
  | schedSetprio (core t p : Nat)
  | schedBind (core src t : Nat)
  | delayExpire (core : Nat)
  | coreInterrupt (core source : Nat)
  | ccMailbox (who : Agent) (core value : Nat)
  | threadFault (core slot addr : Nat)
  -- boot (17)
  | start
  | bootWatchdog
  | bootStepEnd (step : Nat) (r : StepEnd)
  | restart (who : Agent)
  | resetPlan (who : Agent)
  | updateFlash (who : Agent)
  | updateThread (who : Agent)
  | updateImageCheck (flashError : Bool)
  | floorRaise (who : Agent) (key : Bool) (types : Nat) (flashError : Bool)
  -- power and pins (18)
  | modEnAssert
  | lowpowerEntry
  | modPg
  | modEnDeassert
  | perstAssert
  | perstDeassert
  | vinHigh (vin : Nat)
  | vinLow (vin : Nat)
  | vinOff
  | flowSample (flow : Nat)
  | flowLow
  | flowTrip
  | tempSample (t : Temps)
  | capAdjust (power engine : Nat)
  | inputEdge (input tick : Nat)
  | inputStuck (input : Nat)
  | inputUnstuck (input : Nat)
  | trigOutPulse (who : Agent) (k source : Nat)
  | pmInClr (who : Agent) (mask : Nat)
  -- Stocktake and counters (19)
  | skTrigger (who : Agent)
  | skArmAt (who : Agent) (disarm : Bool)
  | skDisarm (who : Agent)
  | skRelease (who : Agent)
  | skAtOrder
  | snapshotLatch
  | logWrite
  | skLogTail (who : Agent) (tail : Nat)
  | counterClear (who : Agent) (page : Nat) (freeze : Bool)
  | counterLoRead (who : Agent) (off : Nat)
  | crTimeLoRead (who : Agent)
  | syXlateInvDone
  | flrComplete (fn : Nat)
  | epochOutPulse
  | tapLeaveBypass
  | vfEnable (on : Bool)
  | atsEnable (fn : Nat) (on : Bool)
  | pcieLinkUp (rate width : Nat) (flitMode : Bool)
  | hostCompletionTimeout (t : TaskRef) (cluster addr : Nat)
  deriving DecidableEq, Repr

end Sys2Proof
end

