-- ==== Sys2Proof/Machine/Assoc.lean ====
section
/-! DEFINITION. Sparse maps in one canonical form (keys strictly rising, no entry equal to the default), and
little-endian byte strings (R8). -/

namespace Sys2Proof.Machine

/-- A sparse map from numbers: the value at an unlisted key is a default named by the reader. -/
abbrev SMap (α : Type) := List (Nat × α)

/-- The value at key `k`. -/
def look {α : Type} (d : α) (k : Nat) : SMap α → α
  | [] => d
  | (k', v) :: t => if k' = k then v else look d k t

/-- Set the value at key `k`; writing the default removes the entry. -/
def put {α : Type} [DecidableEq α] (d : α) (k : Nat) (v : α) : SMap α → SMap α
  | [] => if v = d then [] else [(k, v)]
  | (k', v') :: t =>
    if k < k' then (if v = d then (k', v') :: t else (k, v) :: (k', v') :: t)
    else if k = k' then (if v = d then t else (k, v) :: t)
    else (k', v') :: put d k v t

/-- The canonical form, for keys from `lo` up. -/
def canonFrom {α : Type} [DecidableEq α] (d : α) : Nat → SMap α → Bool
  | _, [] => true
  | lo, (k, v) :: t => decide (lo ≤ k) && decide (v ≠ d) && canonFrom d (k + 1) t

def canon {α : Type} [DecidableEq α] (d : α) (m : SMap α) : Bool := canonFrom d 0 m

/-- Drop every key in [lo, hi). -/
def dropRange {α : Type} (lo hi : Nat) (m : SMap α) : SMap α :=
  m.filter (fun e => decide (e.1 < lo) || decide (hi ≤ e.1))

/-- The first entry whose value meets `p`. -/
def firstKey {α : Type} (p : α → Bool) (m : SMap α) : Option (Nat × α) := m.find? (fun e => p e.2)

/-- Replace the first element that meets `p`. -/
def updFirst {α : Type} (p : α → Bool) (f : α → α) : List α → List α
  | [] => []
  | x :: t => if p x then f x :: t else x :: updFirst p f t

/-- Replace every element that meets `p`. -/
def updAll {α : Type} (p : α → Bool) (f : α → α) (l : List α) : List α := l.map (fun x => if p x then f x else x)

/-- Replace element `n`. -/
def updAt {α : Type} (f : α → α) : Nat → List α → List α
  | _, [] => []
  | 0, x :: t => f x :: t
  | n + 1, x :: t => x :: updAt f n t

/-- Little-endian number in a byte string (R8). -/
def leNat : List Byte → Nat
  | [] => 0
  | b :: t => b.toNat + 256 * leNat t

/-- `n` little-endian bytes of a number (R8). -/
def leBytes : Nat → Nat → List Byte
  | 0, _ => []
  | n + 1, x => BitVec.ofNat 8 x :: leBytes n (x / 256)

/-- `n` bytes from byte `off` of a descriptor, as a number. -/
def bytesAt (b : List Byte) (off n : Nat) : Nat := leNat ((b.drop off).take n)

/-- One byte of a descriptor. -/
def byteAt (b : List Byte) (off : Nat) : Nat := bytesAt b off 1

/-- Bytes [off, off + n) of a descriptor are all zero. -/
def zeroBytes (b : List Byte) (off n : Nat) : Bool := ((b.drop off).take n).all (fun x => decide (x = 0))

/-- R280: the signed 32-bit difference of two wrapping counts. -/
def serialDiff (a b : Nat) : Int :=
  let d : Nat := (a + 2 ^ 32 - b % 2 ^ 32) % 2 ^ 32
  if d < 2 ^ 31 then (d : Int) else (d : Int) - 2 ^ 32

end Sys2Proof.Machine
end

