-- ==== Sys2Proof/Machine/Floats.lean ====
section
/-! DEFINITION. Exact values of elements and the one rounding of R34: to nearest, ties to even, subnormals kept. -/

namespace Sys2Proof.Machine

/-- An exact value: (-1)^neg * m * 2^e, an infinity, or a NaN. -/
inductive Val where
  | fin (neg : Bool) (m : Nat) (e : Int)
  | inf (neg : Bool)
  | nan
  deriving DecidableEq, Repr

def Val.zero : Val := .fin false 0 0
def Val.one : Val := .fin false 1 0

def Val.isNan : Val → Bool
  | .nan => true
  | _ => false

def Val.isZero : Val → Bool
  | .fin _ m _ => m == 0
  | _ => false

def Val.isInf : Val → Bool
  | .inf _ => true
  | _ => false

def Val.neg? : Val → Bool
  | .fin n _ _ => n
  | .inf n => n
  | .nan => false

def Val.negate : Val → Val
  | .fin n m e => .fin (!n) m e
  | .inf n => .inf (!n)
  | .nan => .nan

/-- m * 2^k for k at least 0. -/
def shl (m : Nat) (k : Int) : Nat := m * 2 ^ k.toNat

/-- Signed mantissa at exponent `e0`, at most the value's own. -/
def Val.mantAt (neg : Bool) (m : Nat) (e e0 : Int) : Int :=
  let x : Int := (shl m (e - e0) : Nat)
  if neg then -x else x

/-- Exact sum; x + (-x) is +0, and two zeros of one sign keep it (IEEE 754). -/
def Val.add : Val → Val → Val
  | .nan, _ => .nan
  | _, .nan => .nan
  | .inf a, .inf b => if a == b then .inf a else .nan
  | .inf a, _ => .inf a
  | _, .inf b => .inf b
  | .fin a m e, .fin b n f =>
    if m = 0 ∧ n = 0 then .fin (a && b) 0 0
    else
      let e0 := min e f
      let s := Val.mantAt a m e e0 + Val.mantAt b n f e0
      .fin (decide (s < 0)) s.natAbs e0

/-- Exact product. -/
def Val.mul : Val → Val → Val
  | .nan, _ => .nan
  | _, .nan => .nan
  | .inf a, y => if y.isZero then .nan else .inf (a != y.neg?)
  | x, .inf b => if x.isZero then .nan else .inf (x.neg? != b)
  | .fin a m e, .fin b n f => .fin (a != b) (m * n) (e + f)

/-- x < y for values that are not NaN; the two zeros are equal. -/
def Val.lt : Val → Val → Bool
  | .nan, _ => false
  | _, .nan => false
  | .inf a, .inf b => a && !b
  | .inf a, _ => a
  | _, .inf b => !b
  | .fin a m e, .fin b n f =>
    let e0 := min e f
    decide (Val.mantAt a m e e0 < Val.mantAt b n f e0)

def Val.eq (x y : Val) : Bool := !x.isNan && !y.isNan && !x.lt y && !y.lt x

/-- floor(log2 (num / den)), num and den positive. -/
def floorLog2 (num den : Nat) : Int :=
  let k : Int := (num.log2 : Int) - (den.log2 : Int)
  -- num / den lies in (2^(k-1), 2^(k+1))
  if k ≥ 0 then (if den * 2 ^ k.toNat ≤ num then k else k - 1)
  else (if den ≤ num * 2 ^ (-k).toNat then k else k - 1)

/-- num / den rounded to the nearest integer, ties to even. -/
def roundHalfEven (num den : Nat) : Nat :=
  let q := num / den
  let r := num % den
  if 2 * r < den then q else if den < 2 * r then q + 1 else if q % 2 = 0 then q else q + 1

/-- A binary format: precision with the hidden bit, exponent range, exponent field width. -/
structure FloatFmt where
  p : Nat
  emin : Int
  emax : Int
  ebits : Nat
  deriving DecidableEq, Repr

def fp32 : FloatFmt := ⟨24, -126, 127, 8⟩
def bf16 : FloatFmt := ⟨8, -126, 127, 8⟩
def fp16 : FloatFmt := ⟨11, -14, 15, 5⟩
def e4m3 : FloatFmt := ⟨4, -6, 8, 4⟩
def e5m2 : FloatFmt := ⟨3, -14, 15, 5⟩
def e2m1 : FloatFmt := ⟨2, 0, 2, 2⟩

/-- Quantum exponent of a format at a value of that binary exponent. -/
def FloatFmt.quantum (f : FloatFmt) (lg : Int) : Int := max lg f.emin - ((f.p : Int) - 1)

/-- num/den * 2^e rounded to the format without an upper limit: (count of quanta, quantum exponent). -/
def FloatFmt.roundRat (f : FloatFmt) (num den : Nat) (e : Int) : Nat × Int :=
  if num = 0 then (0, f.quantum f.emin)
  else
    let q := f.quantum (floorLog2 num den + e)
    let k := e - q
    (if k ≥ 0 then roundHalfEven (num * 2 ^ k.toNat) den else roundHalfEven num (den * 2 ^ (-k).toNat), q)

/-- An IEEE-like rounding: beyond the finite range gives infinity (R34, FP32, BF16, FP16). -/
def FloatFmt.roundInf (f : FloatFmt) (v : Val) (den : Nat) : Val :=
  match v with
  | .nan => .nan
  | .inf n => .inf n
  | .fin n m e =>
    let (k, q) := f.roundRat m den e
    if k ≠ 0 ∧ floorLog2 k 1 + q > f.emax then .inf n else .fin n k q

/-- Rounding to FP32, and to BF16. -/
def round32 (v : Val) : Val := fp32.roundInf v 1
def roundB16 (v : Val) : Val := bf16.roundInf v 1

/-- The largest finite FP32 value. -/
def maxFin32 : Val := .fin false (2 ^ 24 - 1) 104

/-- An exact product as the addition that takes it in finds it (R36): ±infinity when it lies beyond the FP32 range, rounded
when it lies below the normal range, and exact otherwise. An FP32 value is itself. Log 12, DEDUCED: pooling and the Vector
Engine's reductions take products in the same way. -/
def taken (v : Val) : Val :=
  match v with
  | .fin n m e =>
    if m = 0 then v
    else if floorLog2 m 1 + e < -126 then round32 v
    else if maxFin32.lt (.fin false m e) then .inf n else v
  | w => w

/-- x / y rounded once to the format, with the IEEE 754 results of division by zero and invalid operations. -/
def FloatFmt.div (f : FloatFmt) (x y : Val) : Val :=
  match x, y with
  | .nan, _ => .nan
  | _, .nan => .nan
  | .inf _, .inf _ => .nan
  | .inf a, w => .inf (a != w.neg?)
  | z, .inf b => .fin (z.neg? != b) 0 0
  | .fin a m e, .fin b n g =>
    if n = 0 then (if m = 0 then .nan else .inf (a != b))
    else f.roundInf (.fin (a != b) m (e - g)) n

/-- Encoded bits of a rounded value in an IEEE-like layout: sign, exponent, fraction. -/
def FloatFmt.encode (f : FloatFmt) (v : Val) : Nat :=
  let fb := f.p - 1
  match v with
  | .nan => (2 ^ f.ebits - 1) * 2 ^ fb + 2 ^ (fb - 1)
  | .inf n => b2n n * 2 ^ (f.ebits + fb) + (2 ^ f.ebits - 1) * 2 ^ fb
  | .fin n m e =>
    let s := b2n n * 2 ^ (f.ebits + fb)
    if m = 0 then s
    else
      let lg := floorLog2 m 1 + e
      let q := f.quantum lg
      let k := if e ≥ q then m * 2 ^ (e - q).toNat else m / 2 ^ (q - e).toNat
      if lg < f.emin then s + k
      else s + ((lg - f.emin + 1).toNat) * 2 ^ fb + (k - 2 ^ fb)

/-- Value of finite encodings; `top` says that the largest exponent is infinity and NaN (FP32, BF16, FP16, E5M2). -/
def FloatFmt.decode (f : FloatFmt) (top : Bool) (w : Nat) : Val :=
  let fb := f.p - 1
  let n := w / 2 ^ (f.ebits + fb) % 2 = 1
  let ex := w / 2 ^ fb % 2 ^ f.ebits
  let fr := w % 2 ^ fb
  if top && ex == 2 ^ f.ebits - 1 then (if fr = 0 then .inf n else .nan)
  else if ex = 0 then .fin n fr (f.emin - (fb : Int))
  else .fin n (fr + 2 ^ fb) (f.emin + (ex : Int) - 1 - (fb : Int))

def decode32 (w : Nat) : Val := fp32.decode true (w % 2 ^ 32)
def encode32 (v : Val) : Nat := fp32.encode v

/-- floor of the square root, one bit of the root a round from bit `k` down. -/
def isqrtFrom : Nat → Nat → Nat → Nat
  | 0, _, r => r
  | k + 1, n, r =>
    let c := r + 2 ^ k
    isqrtFrom k n (if c * c ≤ n then c else r)

def isqrt (n : Nat) : Nat := isqrtFrom (n.log2 / 2 + 1) n 0

/-- A positive result held as (truncated quanta, quantum exponent, exact?), moved by the free ULP choice of R224:
within 1 ULP of the exact result. -/
def ulpFree (op w : Nat) (neg : Bool) (k : Nat) (q : Int) (exact : Bool) : Val :=
  let c := Config.ulpChoice op (BitVec.ofNat 32 w)
  let k' := if exact then (if c % 3 = 0 then k else if c % 3 = 1 then k + 1 else k - 1) else (if c % 2 = 0 then k else k + 1)
  fp32.roundInf (.fin neg k' q) 1

/-- R224: 1 / A within 1 ULP; special values as IEEE 754. Log 39, DEDUCED: RECIP, RSQRT and EXP (R224). -/
def recip (v : Val) : Val :=
  match v with
  | .nan => .nan
  | .inf n => .fin n 0 0
  | .fin n m e =>
    if m = 0 then .inf n
    else
      let q := fp32.quantum (floorLog2 1 m - e)
      let k := -e - q
      let num := if k ≥ 0 then 2 ^ k.toNat else 1
      let den := if k ≥ 0 then m else m * 2 ^ (-k).toNat
      ulpFree 0 (encode32 v) n (num / den) q (decide (num % den = 0))

/-- R224: 1 / √A within 1 ULP; √ of a negative value is invalid. -/
def rsqrt (v : Val) : Val :=
  match v with
  | .nan => .nan
  | .inf n => if n then .nan else .fin false 0 0
  | .fin n m e =>
    if m = 0 then .inf n
    else if n then .nan
    else
      -- 1/√(m·2^e) has 40 correct bits in isqrt(2^(2t) / (m·2^(e mod 2))) · 2^(-t - e/2)
      let par := (e % 2).toNat
      let half := e / 2
      let t := 40 + (m * 2 ^ par).log2
      let r := isqrt (2 ^ (2 * t) / (m * 2 ^ par))
      let lg := floorLog2 r 1
      let q := fp32.quantum (lg - (t : Int) - half)
      let sh := (q + (t : Int) + half).toNat
      let k := r / 2 ^ sh
      ulpFree 1 (encode32 v) false k q (decide (k * 2 ^ sh * (k * 2 ^ sh) * (m * 2 ^ par) = 2 ^ (2 * t)))

/-- e^(m * 2^e) for a value of at most 104, in units of 2^-256: the series at 1/512 of the value, squared nine times. -/
def expFix (m : Nat) (e : Int) : Nat :=
  let one := 2 ^ 256
  let y := m * 2 ^ (e + 256).toNat / 2 ^ (-256 - e).toNat / 512
  let s := (List.range 48).foldl (fun (acc : Nat × Nat) i =>
    let t := acc.2 * y / one / (i + 1)
    (acc.1 + t, t)) (one, one)
  (List.range 9).foldl (fun r _ => r * r / one) s.1

/-- R224: e^A within 2 ULP of the exact result, by a free choice; NaN and infinities as IEEE 754. Above 104 the result lies beyond
the finite range, and below -104 under half the smallest subnormal. -/
def expv (v : Val) : Val :=
  match v with
  | .nan => .nan
  | .inf n => if n then .fin false 0 0 else .inf false
  | .fin neg m e =>
    let c := Config.ulpChoice 2 (BitVec.ofNat 32 (encode32 (round32 v)))
    if m = 0 then fp32.roundInf (.fin false (2 ^ 23 + c % 5 - 2) (-23)) 1
    else if (Val.fin false 104 0).lt (.fin false m e) then
      if neg then .fin false (c % 3) (-149) else .inf false
    else
      let r := expFix m e
      let num := if neg then 2 ^ 256 else r
      let den := if neg then r else 2 ^ 256
      let q := fp32.quantum (floorLog2 num den)
      let k := num * (if q < 0 then 2 ^ (-q).toNat else 1) / (den * (if q < 0 then 1 else 2 ^ q.toNat))
      fp32.roundInf (.fin false (k + c % 4 - 1) q) 1

/-- Maximum and minimum, NaN if either operand is NaN (R97, R219). -/
def vmax (x y : Val) : Val := if x.isNan || y.isNan then .nan else if x.lt y then y else x
def vmin (x y : Val) : Val := if x.isNan || y.isNan then .nan else if y.lt x then y else x

/-- x below y where -0 lies below +0 (IEEE 754 minimumNumber and maximumNumber). -/
def Val.below (x y : Val) : Bool := x.lt y || (x.isZero && y.isZero && x.neg? && !y.neg?)

/-- IEEE maximumNumber and minimumNumber (R115). -/
def maxNum (x y : Val) : Val := if x.isNan then y else if y.isNan then x else if x.below y then y else x
def minNum (x y : Val) : Val := if x.isNan then y else if y.isNan then x else if y.below x then y else x

end Sys2Proof.Machine
end

