-- ==== Sys2Proof/Machine/Operands.lean ====
section
/-! DEFINITION. Element formats (R30 to R35), rows (R38 to R40), tiles (R42 to R49), and poison on bytes and elements (R50 to R52). -/

namespace Sys2Proof.Machine

/-- A byte as a unit read it: its bits and whether its granule was poisoned (R50, R51). -/
abbrev PByte := Byte × Bool

/-- An element: its exact value and whether it is poisoned (R51). -/
structure Elem where
  v : Val
  p : Bool
  deriving DecidableEq, Repr

/-- Element formats (R30). -/
inductive Fmt where
  | fp32 | bf16 | fp16 | e4m3 | e5m2 | mxfp4 | mxint8 | int8 | int4 | code8 | code4
  deriving DecidableEq, Repr

/-- R30: codes 0x00 and 0x0C to 0xFF name no format. -/
def fmtOf (c : Nat) : Option Fmt :=
  if c = 0 then none
  else ([.fp32, .bf16, .fp16, .e4m3, .e5m2, .mxfp4, .mxint8, .int8, .int4, .code8, .code4] : List Fmt)[c - 1]?

/-- R30 code of a format. -/
def Fmt.code : Fmt → Nat
  | .fp32 => 1 | .bf16 => 2 | .fp16 => 3 | .e4m3 => 4 | .e5m2 => 5 | .mxfp4 => 6 | .mxint8 => 7 | .int8 => 8 | .int4 => 9
  | .code8 => 10 | .code4 => 11

/-- Bits of one element (R30). -/
def Fmt.bits : Fmt → Nat
  | .fp32 => 32 | .bf16 | .fp16 => 16 | .e4m3 | .e5m2 | .mxint8 | .int8 | .code8 => 8 | .mxfp4 | .int4 | .code4 => 4

def Fmt.isMx : Fmt → Bool
  | .e4m3 | .e5m2 | .mxfp4 | .mxint8 => true
  | _ => false

def Fmt.isCode : Fmt → Bool
  | .code8 | .code4 => true
  | _ => false

/-- R31, R32: the element counts a format allows. -/
def Fmt.countOk (f : Fmt) (n : Nat) : Bool :=
  (!f.isMx || n % 32 == 0) && (f.bits != 4 || n % 2 == 0)

/-- R33: feature rows, embedding rows, array operands, output tiles. -/
def Fmt.featureRow (f : Fmt) : Bool := !f.isCode
def Fmt.arrayOperand (f : Fmt) : Bool := !f.isCode && f != .fp32

/-- R39: row size in bytes. -/
def Fmt.rowBytes (f : Fmt) (n : Nat) : Nat :=
  if f.isCode then 4 + (n * f.bits + 7) / 8 else (n * f.bits + 7) / 8 + (if f.isMx then n / 32 else 0)

/-- The value of an element's bits, block scale left out; NaN where it encodes one (R30). -/
def Fmt.elemVal (f : Fmt) (w : Nat) : Val :=
  let signed (b : Nat) : Val := if w < 2 ^ (b - 1) then .fin false w 0 else .fin true (2 ^ b - w) 0
  match f with
  | .fp32 => Sys2Proof.Machine.fp32.decode true w
  | .bf16 => Sys2Proof.Machine.bf16.decode true w
  | .fp16 => Sys2Proof.Machine.fp16.decode true w
  | .e4m3 => if w % 128 = 127 then .nan else Sys2Proof.Machine.e4m3.decode false w
  | .e5m2 => Sys2Proof.Machine.e5m2.decode true w
  | .mxfp4 => Sys2Proof.Machine.e2m1.decode false w
  | .mxint8 => match signed 8 with
    | .fin n m _ => .fin n m (-6)
    | v => v
  | .int8 => signed 8
  | .int4 => signed 4
  | .code8 | .code4 => .fin false w 0

/-- R31: an element value under its block scale byte. Log 92, DESIGN CHOICE: an E5M2 infinity under scale 0xFF (R31). -/
def scaled (v : Val) (scale : Nat) : Val :=
  if scale = 255 then .nan
  else match v with
    | .fin n m e => .fin n m (e + (scale : Int) - 127)
    | w => w

/-- Byte k of a read string; a missing byte reads 0. -/
def pbAt (b : List PByte) (k : Nat) : PByte := b.getD k (0, false)

def pbNat (b : List PByte) (off n : Nat) : Nat := leNat (((b.drop off).take n).map (·.1))
def pbPoison (b : List PByte) (off n : Nat) : Bool := ((b.drop off).take n).any (·.2)

/-- The bits of element i of a packed string that starts at byte `off`, and its poison (R32). -/
def packedBits (f : Fmt) (b : List PByte) (off i : Nat) : Nat × Bool :=
  if f.bits = 4 then
    let x := pbAt b (off + i / 2)
    (if i % 2 = 0 then x.1.toNat % 16 else x.1.toNat / 16, x.2)
  else (pbNat b (off + i * (f.bits / 8)) (f.bits / 8), pbPoison b (off + i * (f.bits / 8)) (f.bits / 8))

/-- R39, R40, R51: the elements of a row of n elements, exact, scales and code tables applied. -/
def decodeRow (f : Fmt) (n : Nat) (b : List PByte) : List Elem :=
  if f.isCode then
    let sc := Sys2Proof.Machine.fp16.decode true (pbNat b 0 2)
    let of := Sys2Proof.Machine.fp16.decode true (pbNat b 2 2)
    let hp := pbPoison b 0 4
    (List.range n).map (fun i =>
      let (w, p) := packedBits f b 4 i
      ⟨round32 ((Val.mul (.fin false w 0) sc).add of), p || hp⟩)
  else if f.isMx then
    let so := (n * f.bits + 7) / 8
    (List.range n).map (fun i =>
      let (w, p) := packedBits f b 0 i
      let s := pbAt b (so + i / 32)
      ⟨scaled (f.elemVal w) s.1.toNat, p || s.2⟩)
  else (List.range n).map (fun i =>
    let (w, p) := packedBits f b 0 i
    ⟨f.elemVal w, p⟩)

/-- R31: elements taken into FP32. -/
def toF32 (l : List Elem) : List Elem := l.map (fun e => ⟨round32 e.v, e.p⟩)

/-- Saturating round to a signed integer of b bits. -/
def satInt (b : Nat) (v : Val) (scale : Int) : Nat :=
  let enc (neg : Bool) (k : Nat) : Nat :=
    if neg then (2 ^ b - min k (2 ^ (b - 1))) % 2 ^ b else min k (2 ^ (b - 1) - 1)
  match v with
  | .nan => 0
  | .inf n => enc n (2 ^ b)
  | .fin n m e =>
    let k := e - scale
    enc n (if k ≥ 0 then m * 2 ^ k.toNat else roundHalfEven m (2 ^ (-k).toNat))

/-- Round to a float format and saturate at its largest finite encoding `top` (E4M3, E5M2, MXFP4; R34). -/
def satFloat (f : FloatFmt) (maxEnc : Nat) (v : Val) : Nat :=
  match v with
  | .nan => 0
  | .inf n => b2n n * 2 ^ (f.ebits + (f.p - 1)) + maxEnc
  | .fin n m e =>
    let (k, q) := f.roundRat m 1 e
    let w := f.encode (.fin false k q)
    b2n n * 2 ^ (f.ebits + (f.p - 1)) + min w maxEnc

/-- R34: the bits of a value in a format, already divided by its block scale for MX formats. -/
def Fmt.encVal (f : Fmt) (v : Val) : Nat :=
  match f with
  | .fp32 => Sys2Proof.Machine.fp32.encode (Sys2Proof.Machine.fp32.roundInf v 1)
  | .bf16 => Sys2Proof.Machine.bf16.encode (Sys2Proof.Machine.bf16.roundInf v 1)
  | .fp16 => Sys2Proof.Machine.fp16.encode (Sys2Proof.Machine.fp16.roundInf v 1)
  | .e4m3 => satFloat Sys2Proof.Machine.e4m3 0x7E v
  | .e5m2 => satFloat Sys2Proof.Machine.e5m2 0x7B v
  | .mxfp4 => satFloat Sys2Proof.Machine.e2m1 7 v
  | .mxint8 => satInt 8 v (-6)
  | .int8 => satInt 8 v 0
  | .int4 => satInt 4 v 0
  | .code8 | .code4 => 0

/-- E of R35. -/
def Fmt.mxE : Fmt → Int
  | .mxfp4 => 2
  | .e4m3 => 8
  | .e5m2 => 15
  | _ => 0

/-- Exponent of the largest finite magnitude of a block, none when no finite value is non-zero. -/
def blockExp (vs : List Val) : Option Int :=
  vs.foldl (fun acc v => match v with
    | .fin _ m e => if m = 0 then acc else
        let x := floorLog2 m 1 + e
        match acc with
        | none => some x
        | some y => some (max x y)
    | _ => acc) none

/-- R35: scale byte and element bits of one MX block. -/
def encBlock (f : Fmt) (vs : List Val) : Nat × List Nat :=
  if vs.any Val.isNan then (255, vs.map (fun _ => 0))
  else match blockExp vs with
    | some lg =>
      let x : Int := max (-127) (min 127 (lg - f.mxE))
      ((x + 127).toNat, vs.map (fun v => match v with
        | .fin n m e => f.encVal (.fin n m (e - x))
        | w => f.encVal w))
    | none =>
      if vs.any Val.isInf then (254, vs.map (fun v => if v.isInf then f.encVal v else 0))
      else (0, vs.map (fun _ => 0))

/-- A list in chunks of n. -/
def chunksOf {α : Type} (n : Nat) (l : List α) : List (List α) :=
  (List.range (ceilDiv l.length n)).map (fun k => (l.drop (k * n)).take n)

/-- Scales and element bits of a row of values: one scale for each 32 elements of an MX format, none otherwise. -/
def Fmt.encRow (f : Fmt) (vs : List Val) : List Nat × List Nat :=
  if f.isMx then
    let bs := (chunksOf 32 vs).map (encBlock f)
    (bs.map (·.1), bs.flatMap (·.2))
  else ([], vs.map f.encVal)

/-- Element bits packed into bytes; a byte is poisoned where any element in it is (R32, R52). -/
def packBits (f : Fmt) (ws : List Nat) (ps : List Bool) : List PByte :=
  if f.bits = 4 then
    ((chunksOf 2 ws).zip (chunksOf 2 ps)).map (fun (w, p) =>
      (BitVec.ofNat 8 (w.getD 0 0 + 16 * w.getD 1 0), p.any id))
  else (ws.zip ps).flatMap (fun (w, p) => (leBytes (f.bits / 8) w).map (·, p))

/-- R34, R35, R39, R52: a row as it is written. A poisoned element poisons the bytes it is held in, its scale included. -/
def encodeRow (f : Fmt) (es : List Elem) : List PByte :=
  let (sc, ws) := f.encRow (es.map (·.v))
  let ps := es.map (·.p)
  packBits f ws ps
    ++ (sc.zip (chunksOf 32 ps)).map (fun (s, p) => (BitVec.ofNat 8 s, p.any id))

/-! ### Tiles -/

/-- R49: dense tile size, header included. -/
def Fmt.tileBytes (f : Fmt) : Nat := 64 + (if f.isMx then 512 else 0) + 16384 * f.bits / 8

/-- One element of a tile as encoded: bits, zero or not (R42), poison. -/
structure TEl where
  w : Nat
  nz : Bool
  p : Bool
  deriving DecidableEq, Repr

/-- R42: an encoded element is zero when it encodes +0 or -0 or integer 0, is not poisoned, and its scale is not 0xFF. -/
def Fmt.nonZero (f : Fmt) (w : Nat) (p : Bool) (scale : Nat) : Bool :=
  p || (f.isMx && scale == 255)
    || (match f with
      | .mxint8 | .int8 | .int4 | .code8 | .code4 => w != 0
      | _ => w % 2 ^ (f.bits - 1) != 0)

/-- A whole tile row of 256 positions from the encoded columns, zeros beyond COLS. -/
def tileRow (f : Fmt) (es : List Elem) : List Nat × List TEl :=
  let (sc, ws) := f.encRow (es.map (·.v))
  let els := (List.range 256).map (fun c =>
    if c < es.length then
      let w := ws.getD c 0
      let p := (es.getD c ⟨.zero, false⟩).p
      (⟨w, f.nonZero w p (sc.getD (c / 32) 0), p⟩ : TEl)
    else ⟨0, false, false⟩)
  ((List.range 8).map (fun b => sc.getD b 0), els)

/-- Number whose bit k is l[k]. -/
def bitsToNat (l : List Bool) : Nat := l.foldr (fun b acc => b2n b + 2 * acc) 0

/-- Pad a byte string with zeros to a multiple of 64. -/
def pad64 (b : List PByte) : List PByte := b ++ List.replicate (roundUp b.length 64 - b.length) (0, false)

/-- Header bytes of R43. -/
def tileHeader (f : Fmt) (dense approx pois : Bool) (rows cols nnzB nnz bytes rowO colO : Nat) : List PByte :=
  ([BitVec.ofNat 8 f.code, BitVec.ofNat 8 (b2n dense + 2 * b2n approx + 4 * b2n pois)]
    ++ leBytes 2 rows ++ leBytes 2 cols ++ leBytes 2 0 ++ leBytes 4 nnzB ++ leBytes 4 nnz ++ leBytes 4 bytes ++ leBytes 4 0
    ++ leBytes 4 rowO ++ leBytes 2 colO ++ List.replicate 34 0).map (·, false)

/-- R43 to R46: the tile that holds `rows` (each of at most 256 elements), and whether it is stored dense. -/
def encodeTile (f : Fmt) (rows : List (List Elem)) (cols : Nat) (approx : Bool) (rowO colO : Nat) : List PByte × Bool :=
  let full := (List.range 64).map (fun r => tileRow f (rows.getD r []))
  let blocks : List (Nat × List TEl) := full.flatMap (fun (sc, els) => sc.zip (chunksOf 32 els))
  let set := blocks.map (fun b => b.2.any (·.nz))
  let live := blocks.filter (fun b => b.2.any (·.nz))
  let nnzB := live.length
  let vals := live.flatMap (fun b => b.2.filter (·.nz))
  let nnz := vals.length
  let pois := vals.any (·.p)
  let packed (l : List TEl) := packBits f (l.map (·.w)) (l.map (·.p))
  let bitmap := (leBytes 64 (bitsToNat set)).map (·, false)
  let masks := live.flatMap (fun b => (leBytes 4 (bitsToNat (b.2.map (·.nz)))).map (·, false))
  let scOf (l : List (Nat × List TEl)) : List PByte :=
    if f.isMx then l.map (fun b => (BitVec.ofNat 8 b.1, b.2.any (·.p))) else []
  let comp := bitmap ++ masks ++ scOf live ++ packed vals
  let compSize := roundUp (64 + comp.length) 64
  let dense := decide (f.tileBytes ≤ compSize)
  let body := if dense then scOf blocks ++ packed (blocks.flatMap (·.2)) else comp
  let size := if dense then f.tileBytes else compSize
  (pad64 (tileHeader f dense approx pois rows.length cols nnzB nnz size rowO colO ++ body), dense)

/-- BYTES computed from FORMAT, the flags and the counts (R44, R45). -/
def tileSize (f : Fmt) (dense : Bool) (nnzB nnz : Nat) : Nat :=
  if dense then f.tileBytes
  else roundUp (128 + 4 * nnzB + (if f.isMx then nnzB else 0) + (nnz * f.bits + 7) / 8) 64

/-- What a reader finds in a landed tile: a failed check of R241 by number, or its rows, APPROX, and compressed or not. -/
inductive TileRead where
  | bad (check : Nat)
  | ok (rows : List (List Elem)) (approx dense : Bool)
  deriving DecidableEq, Repr

/-- The number of bits set among the low n. -/
def popcount (n x : Nat) : Nat := (List.range n).foldl (fun a k => a + x / 2 ^ k % 2) 0

/-- R241, checks 1 and 2: what a clean header alone breaks. -/
def tileHeadCheck (b : List PByte) : Option Nat :=
  let fl := pbNat b 1 1
  let tf := fmtOf (pbNat b 0 1)
  let r := pbNat b 2 2
  let c := pbNat b 4 2
  let rsvd := fl / 8 ≠ 0 ∨ pbNat b 6 2 ≠ 0 ∨ pbNat b 20 4 ≠ 0 ∨ pbNat b 30 34 ≠ 0
  let fmtOk := (tf.map Fmt.featureRow).getD false
  if rsvd ∨ fmtOk = false ∨ r = 0 ∨ r > 64 ∨ c = 0 ∨ c > 256 ∨ c % 32 ≠ 0 then some 1
  else if pbNat b 16 4 ≠ tileSize (tf.getD .fp32) (fl % 2 == 1) (pbNat b 8 4) (pbNat b 12 4) then some 2
  else none

/-- R47, R240, R241: check a landed tile for position (rowO, colO) with the rows and columns the position requires, and decode it.
A poisoned header, bitmap or mask is not checked and every element is poisoned and non-zero (R240); APPROX is a clean header's. -/
def readTile (f : Fmt) (b : List PByte) (rowO colO rows cols : Nat) : TileRead :=
  let allPoison (approx : Bool) : TileRead := .ok (List.replicate rows (List.replicate cols ⟨.one, true⟩)) approx false
  if pbPoison b 0 64 then allPoison false
  else
    let fl := pbNat b 1 1
    let approx : Bool := fl / 2 % 2 == 1
    let dense := fl % 2 = 1
    let nnzB := pbNat b 8 4
    let nnz := pbNat b 12 4
    match tileHeadCheck b with
    | some n => .bad n
    | none =>
        if !dense && pbPoison b 64 (64 + 4 * nnzB) then allPoison approx
        else
          let g := (fmtOf (pbNat b 0 1)).getD .fp32
          let r := pbNat b 2 2
          let c := pbNat b 4 2
          let bm := pbNat b 64 64
          let live := (List.range 512).filter (fun k => bm / 2 ^ k % 2 = 1)
          let mask (j : Nat) : Nat := pbNat b (128 + 4 * j) 4
          let js := List.range nnzB
          let vo := 128 + 4 * nnzB + (if g.isMx then nnzB else 0)
          let used := vo + (nnz * g.bits + 7) / 8
          let odd := g.bits = 4 ∧ nnz % 2 = 1 ∧ pbNat b (used - 1) 1 / 16 ≠ 0
          if !dense ∧ (live.length ≠ nnzB ∨ js.foldl (fun a j => a + popcount 32 (mask j)) 0 ≠ nnz) then .bad 3
          else if !dense ∧ live.any (fun k => decide (k / 8 ≥ r) || decide (k % 8 * 32 ≥ c)) then .bad 4
          else if !dense ∧ js.any (fun j => mask j == 0) then .bad 5
          else if !dense ∧ (odd ∨ pbNat b used (pbNat b 16 4 - used) ≠ 0) then .bad 6
          else if g ≠ f ∨ pbNat b 24 4 ≠ rowO ∨ pbNat b 28 2 ≠ colO ∨ r ≠ rows ∨ c ≠ cols then .bad 7
          else if dense then
            let so := if g.isMx then 512 else 0
            .ok ((List.range r).map (fun i => (List.range c).map (fun k =>
              let (w, p) := packedBits g b (64 + so) (i * 256 + k)
              let s := pbAt b (64 + i * 8 + k / 32)
              if g.isMx then ⟨scaled (g.elemVal w) s.1.toNat, p || s.2⟩ else ⟨g.elemVal w, p⟩))) approx true
          else
            -- place of each live block, and of its first value
            let starts := js.foldl (fun (acc : List Nat × Nat) j => (acc.1 ++ [acc.2], acc.2 + popcount 32 (mask j))) ([], 0)
            .ok ((List.range r).map (fun i => (List.range c).map (fun k =>
              let blk := i * 8 + k / 32
              if bm / 2 ^ blk % 2 = 0 then ⟨.zero, false⟩
              else
                let j := live.idxOf blk
                let m := mask j
                let e := k % 32
                if m / 2 ^ e % 2 = 0 then ⟨.zero, false⟩
                else
                  let (w, p) := packedBits g b vo (starts.1.getD j 0 + popcount e m)
                  let s := pbAt b (128 + 4 * nnzB + j)
                  if g.isMx then ⟨scaled (g.elemVal w) s.1.toNat, p || s.2⟩ else ⟨g.elemVal w, p⟩))) approx false

end Sys2Proof.Machine
end

