-- ==== Sys2Proof/Machine/Kernels.lean ====
section
/-! DEFINITION. What the execute engines compute on landed operands, as pure functions: pooling and reduction (R97, R103),
scatter arithmetic (R115), the dense transform with prediction and gather-merge (R193 to R205, R244), the Vector Engine's
operations (R219 to R224), and set intersection (R249). The order of accumulation is a free value (R37). -/

namespace Sys2Proof.Machine

/-- A free permutation: each pick is a free value of the seed and the place. -/
def permuteFrom {α : Type} (seed : Nat) : Nat → List α → List α
  | 0, l => l
  | _, [] => []
  | n + 1, x :: t =>
    let l := x :: t
    let k := Config.freeValue (seed * 2 ^ 32 + n) % l.length
    match l[k]? with
    | some y => y :: permuteFrom seed n (l.eraseIdx k)
    | none => l

/-- A list in an order that is not fixed (R37). Two summands commute, so fewer than three keep their order. Log 18, DEDUCED: order of accumulation. -/
def freeOrder {α : Type} (seed : Nat) (l : List α) : List α :=
  if l.length < 3 then l else permuteFrom seed l.length l

def anyPoison (l : List Elem) : Bool := l.any (·.p)

/-- FP32 sum of exact values, one rounding per addition, in an order that is not fixed (R36, R37). Log 12, DEDUCED: rounding of products. -/
def sumVals (seed : Nat) (l : List Val) : Val := (freeOrder seed l).foldl (fun a v => round32 (a.add (taken v))) Val.zero

/-- Sum of elements, poisoned where any is (R51). -/
def sumElems (seed : Nat) (l : List Elem) : Elem := ⟨sumVals seed (l.map (·.v)), anyPoison l⟩

/-- Column k of a list of rows. -/
def column (rows : List (List Elem)) (k : Nat) : List Elem := rows.map (fun r => r.getD k ⟨.zero, false⟩)

/-- REDUCE and POOL (R97, R163). -/
inductive Reduce where
  | none | sum | mean | max | wsum
  deriving DecidableEq, Repr

def reduceOf : Nat → Option Reduce
  | 0 => some .none | 1 => some .sum | 2 => some .mean | 3 => some .max | 4 => some .wsum
  | _ => Option.none

/-- One operand of a reduction: an FP32 row, the number of its occurrences merged, their summed weight (R103). -/
structure Operand where
  row : List Elem
  count : Nat
  weight : Elem
  deriving DecidableEq, Repr

/-- What an operand adds to a segment: its row, each element taken into FP32 first (R31), times weight under WSUM, times count
under SUM and MEAN, as it stands under MAX (R103, R133). The product is exact until the addition that takes it in (R36, R224;
log 12, DEDUCED). -/
def Operand.term (r : Reduce) (o : Operand) : List Elem :=
  let row := toF32 o.row
  match r with
  | .wsum => row.map (fun e => ⟨taken (e.v.mul o.weight.v), e.p || o.weight.p⟩)
  | .sum | .mean => if o.count = 1 then row else row.map (fun e => ⟨taken (e.v.mul (.fin false o.count 0)), e.p⟩)
  | _ => row

/-- Merge a partial aggregate with another: sum or maximum, element by element (R97). -/
def mergeElem (r : Reduce) (a b : Elem) : Elem :=
  match r with
  | .max => ⟨vmax a.v b.v, a.p || b.p⟩
  | _ => ⟨round32 (a.v.add b.v), a.p || b.p⟩

def mergeRows (r : Reduce) (a b : List Elem) : List Elem := (a.zip b).map (fun (x, y) => mergeElem r x y)

/-- The terms of some operands reduced element by element, in an order that is not fixed; none for no operand. -/
def reduceTerms (seed : Nat) (r : Reduce) (ops : List Operand) : Option (List Elem) :=
  match freeOrder seed (ops.map (Operand.term r)) with
  | [] => none
  | t :: ts => some (ts.foldl (mergeRows r) (toF32 t))

/-- R97: the finished row of a segment from its aggregate and its count of non-null entries; zeros when empty. Log 85, DEDUCED: gathers (R99 to R109, R115 to R117). -/
def finishRow (r : Reduce) (n count : Nat) (agg : Option (List Elem)) : List Elem :=
  match agg with
  | none => List.replicate n ⟨.zero, false⟩
  | some l => if r = .mean then l.map (fun e => ⟨fp32.div e.v (.fin false count 0), e.p⟩) else l

/-! ### Scatter (R115) -/

/-- Unsigned 32-bit value of an element held as its FP32 code's bits (R215). -/
def u32Of (v : Val) : Nat :=
  match v with
  | .fin _ m _ => m % 2 ^ 32
  | _ => 0

def u32Val (n : Nat) : Val := .fin false (n % 2 ^ 32) 0

/-- MODE of a scatter; UPDATE of EMBED_BAG is `add` (R164). -/
inductive Scatter where
  | add | min | max
  deriving DecidableEq, Repr

/-- Combine two held updates of one target, in FP32 or in the table's own format (R115, R116). `u32`: unsigned comparison. Log 66, DEDUCED: U32 (R90, R116). -/
def scatterElem (m : Scatter) (u32 : Bool) (a b : Elem) : Elem :=
  let p := a.p || b.p
  match m with
  | .add => ⟨round32 (a.v.add b.v), p⟩
  | .min => if u32 then (if u32Of b.v < u32Of a.v then ⟨b.v, p⟩ else ⟨a.v, p⟩) else ⟨minNum a.v b.v, p⟩
  | .max => if u32 then (if u32Of a.v < u32Of b.v then ⟨b.v, p⟩ else ⟨a.v, p⟩) else ⟨maxNum a.v b.v, p⟩

/-! ### Transform Array -/

/-- One output before the epilogue: exact products, one FP32 rounding per addition (R36). `skip`: zero elements of X are not
multiplied (R246), and the others form row groups of 32 in ascending K, whose sums accumulate in FP32 (R244). Log 18,
DEDUCED: the order of the additions is free, within a group and among the groups of a row as well. -/
def dotExact (seed : Nat) (skip : Bool) (x w : List Elem) : Elem :=
  let pr := x.zip w
  let prod (l : List (Elem × Elem)) : List Val := l.map (fun q => q.1.v.mul q.2.v)
  let v := if skip then
      let gs := chunksOf 32 (pr.filter (fun q => !q.1.v.isZero || q.1.p))
      sumVals seed ((gs.zipIdx).map (fun (g, k) => sumVals (seed + 2 ^ 20 * (k + 1)) (prod g)))
    else sumVals seed (prod pr)
  ⟨v, anyPoison x || anyPoison w⟩

/-- ACT of R197: 0 NONE, 1 RELU, 2 RELU_CAP. -/
def actVal (act cap : Nat) (v : Val) : Val :=
  let relu := if v.isNan then .nan else if Val.lt Val.zero v then v else Val.zero
  if act = 0 then v
  else if act = 1 then relu
  else
    let c := fp16.decode true cap
    if relu.isNan then .nan else if c.lt relu then c else relu

/-- Epilogue of R197 up to the conversion: bias added with one rounding, then ACT. -/
def epilogue (act cap : Nat) (b : Option Elem) (a : Elem) : Elem :=
  let y : Elem := match b with
    | none => a
    | some e => ⟨round32 (a.v.add e.v), a.p || e.p⟩
  ⟨actVal act cap y.v, y.p⟩

/-- A row converted to MXFP4 and read back (R200 step 1). -/
def toMxfp4 (x : List Elem) : List Elem := decodeRow .mxfp4 x.length (encodeRow .mxfp4 x)

/-- Columns of U, V and the shadow weights, as lists of elements. -/
structure Predictor where
  u : List (List Elem)
  v : List (List Elem)
  shadow : List (List Elem)
  thresh : Val
  margin : Val
  deriving DecidableEq, Repr

/-- How one block of 32 outputs was made (R200 to R202), for the counters of R209. -/
structure BlockOut where
  out : List Elem
  full : Bool       -- predicted active or audited: counts in A_s
  skipped : Bool    -- predicted inactive
  madeUp : Bool     -- mispredicted, recomputed
  falseAct : Bool   -- computed as predicted active, all outputs zero after ACT
  auditMiss : Bool
  deriving DecidableEq, Repr

/-- A comparison of scores: active when above the threshold or NaN. -/
def above (s t : Val) : Bool := s.isNan || t.lt s

/-- One block of outputs: `cols` are its columns of W with their biases. `pred` none: OFF. `mode`: 1 CHECKED, 2 LOSSY. -/
def transformBlock (seed : Nat) (skip : Bool) (act cap mode : Nat) (audit : Bool) (pred : Option Predictor)
    (x xh h : List Elem) (j0 : Nat) (cols : List (List Elem)) (bias : List (Option Elem)) : BlockOut :=
  let js := List.range cols.length
  let full := js.map (fun j => epilogue act cap (bias.getD j none) (dotExact (seed + j) skip x (cols.getD j [])))
  let zeros := full.map (fun e => (⟨Val.zero, e.p⟩ : Elem))
  let allZero := full.all (fun e => e.v.isZero && !e.p)
  match pred with
  | none => ⟨full, false, false, false, false, false⟩
  | some q =>
    let score (w : List Elem) (xs : List Elem) (j k : Nat) : Elem :=
      let a := dotExact (seed + 4096 + k) false xs w
      match bias.getD j none with
      | none => a
      | some e => ⟨round32 (a.v.add e.v), a.p || e.p⟩
    let ss := js.map (fun j => score (q.v.getD (j0 + j) []) h j j)
    let poisoned := anyPoison xh || anyPoison ss || (q.u.any anyPoison)
    let active := poisoned || ss.any (fun s => above s.v q.thresh)
    if active then ⟨full, true, false, false, allZero, false⟩
    else if mode = 2 then
      ⟨zeros, audit, true, false, false, audit && !allZero⟩
    else
      let zs := js.map (fun j => score (q.shadow.getD (j0 + j) []) xh j (64 + j))
      let bad := anyPoison zs || zs.any (fun z => above z.v q.margin.negate)
      if bad then ⟨full, false, true, true, false, false⟩
      else ⟨zeros, false, true, false, false, false⟩

/-- h of R200 step 2: x̂ · U in FP32, converted to one MXFP4 block. -/
def predictorH (seed : Nat) (q : Predictor) (xh : List Elem) : List Elem :=
  toMxfp4 ((List.range 32).map (fun c => dotExact (seed + 8192 + c) false xh (q.u.getD c [])))

/-! ### Vector Engine -/

/-- CTYPE of R210. -/
inductive CType where
  | fp32 | bf16 | u32
  deriving DecidableEq, Repr

def ctypeOf : Nat → Option CType
  | 0 => some .fp32 | 1 => some .bf16 | 2 => some .u32
  | _ => none

/-- A result rounded for its compute type (R224). -/
def CType.round (c : CType) (v : Val) : Val :=
  match c with
  | .fp32 => round32 v
  | .bf16 => roundB16 (round32 v)
  | .u32 => v

/-- Element-wise operations of R219 on values already converted to the compute type. `d` is the present D element (FMA). -/
def elemOp (op : Nat) (c : CType) (imm : Nat) (a b d : Val) : Val :=
  let u := c = .u32
  let bool (x : Bool) : Val := if x then Val.one else Val.zero
  match op with
  | 0x01 => a
  | 0x02 => if u then u32Val (u32Of a + u32Of b) else c.round (a.add b)
  | 0x03 => if u then u32Val (u32Of a + 2 ^ 32 - u32Of b) else c.round (a.add b.negate)
  | 0x04 => c.round (a.mul b)
  | 0x05 => c.round ((a.mul b).add d)
  | 0x06 => vmin a b
  | 0x07 => vmax a b
  | 0x09 => if a.isNan then .nan else if Val.lt Val.zero a then a else Val.zero
  | 0x0A => if a.isNan then .nan else if Val.lt Val.zero a then a else c.round (a.mul (decode32 imm))
  | 0x0B => expv a
  | 0x0C => recip a
  | 0x0D => rsqrt a
  | 0x0E => fp32.div a b
  | 0x0F => bool (b.lt a)
  | 0x10 => bool (a.eq b)
  | _ => a

/-- R219 operations that read B. -/
def opReadsB (op : Nat) : Bool := op ∈ [0x02, 0x03, 0x04, 0x05, 0x06, 0x07, 0x0E, 0x0F, 0x10, 0x22, 0x34, 0x40, 0x41]

/-- Element-wise operation over a run; B under GROUP (R216). Log 107, DESIGN CHOICE: GROUP and a run length under DYN0 that is not a multiple of it (R216). -/
def elemRun (op : Nat) (c : CType) (imm group : Nat) (a b d : List Elem) : List Elem :=
  (List.range a.length).map (fun i =>
    let x := a.getD i ⟨.zero, false⟩
    let y := b.getD (i / group) ⟨.zero, false⟩
    let z := d.getD i ⟨.zero, false⟩
    ⟨elemOp op c imm x.v y.v z.v, x.p || (opReadsB op && y.p) || (op == 0x05 && z.p)⟩)

/-- Row reductions of R220; `acc` is the present D run under ACCUM. A length that DYN0 gives need not be a multiple of GROUP: the
last group is then short (log 107, DESIGN CHOICE). -/
def reduceRun (seed op group : Nat) (a b : List Elem) (acc : Option (List Elem)) : List Elem :=
  (List.range (ceilDiv a.length group)).map (fun g =>
    let xs := (a.drop (g * group)).take group
    let ys := (b.drop (g * group)).take group
    let r : Elem :=
      if op = 0x21 then
        match xs with
        | [] => ⟨.zero, false⟩
        | x :: t => t.foldl (fun m e => ⟨vmax m.v e.v, m.p || e.p⟩) x
      else if op = 0x22 then
        sumElems (seed + g) ((xs.zip ys).map (fun (x, y) => ⟨x.v.mul y.v, x.p || y.p⟩))
      else sumElems (seed + g) xs
    match acc with
    | none => r
    | some l =>
      let z := l.getD g ⟨.zero, false⟩
      if op = 0x21 then ⟨vmax z.v r.v, z.p || r.p⟩ else ⟨round32 (z.v.add r.v), z.p || r.p⟩)

/-- COMPRESS of R223: the elements kept, and the count. A poisoned mask element poisons the run and the count (R229). -/
def compressRun (a b : List Elem) (group : Nat) : List Elem × Nat × Bool :=
  let mp := anyPoison b
  let kept := (List.range a.length).filterMap (fun i =>
    if (b.getD (i / group) ⟨.zero, false⟩).v.isZero then none else a[i]?)
  (kept.map (fun e => ⟨e.v, e.p || mp⟩), kept.length, mp)

/-- EXPAND of R223, by structural recursion on the mask: set positions take the next A element, clear ones IMM. -/
def expandRun (imm : Elem) (mp : Bool) : List Elem → List Elem → List Elem
  | [], _ => []
  | m :: ms, a =>
    if m.v.isZero then ⟨imm.v, imm.p || mp⟩ :: expandRun imm mp ms a
    else match a with
      | [] => ⟨Val.zero, mp⟩ :: expandRun imm mp ms []
      | x :: t => ⟨x.v, x.p || mp⟩ :: expandRun imm mp ms t

/-- One segment of SEG_SUM, SEG_MEAN, SEG_MAX, SEG_MIN, SEG_WSUM (R221): its D row. `rows` A rows, `ws` B rows. -/
def segRow (seed op group n : Nat) (rows ws : List (List Elem)) (acc : Option (List Elem)) : List Elem :=
  let base : List Elem := (List.range n).map (fun i =>
    let col := column rows i
    match col with
    | [] => ⟨.zero, false⟩
    | x :: t =>
      if op = 0x32 then t.foldl (fun m e => ⟨vmax m.v e.v, m.p || e.p⟩) x
      else if op = 0x33 then t.foldl (fun m e => ⟨vmin m.v e.v, m.p || e.p⟩) x
      else if op = 0x34 then
        let w := column ws (i / group)
        sumElems (seed + i) ((w.zip col).map (fun (y, e) => ⟨y.v.mul e.v, y.p || e.p⟩))
      else
        let s := sumElems (seed + i) col
        if op = 0x31 then ⟨fp32.div s.v (.fin false col.length 0), s.p⟩ else s)
  match acc with
  | none => base
  | some d =>
    if rows = [] then d
    else (base.zip d).map (fun (r, z) =>
      if op = 0x32 then ⟨vmax z.v r.v, z.p || r.p⟩
      else if op = 0x33 then ⟨vmin z.v r.v, z.p || r.p⟩
      else ⟨round32 (z.v.add r.v), z.p || r.p⟩)

/-- SEG_SOFTMAX of one segment (R222): one D row per A row. -/
def segSoftmax (seed n : Nat) (rows : List (List Elem)) : List (List Elem) :=
  let cols : List (List Elem) := (List.range n).map (fun i =>
    let col := column rows i
    let p := anyPoison col
    match col with
    | [] => []
    | x :: t =>
      let m : Val := t.foldl (fun (a : Val) (e : Elem) => vmax a e.v) x.v
      if m.isNan then col.map (fun _ => (⟨.nan, p⟩ : Elem))
      else if m = .inf true then col.map (fun _ => (⟨Val.zero, p⟩ : Elem))
      else
        let es : List Val := col.map (fun e => expv (round32 (e.v.add m.negate)))
        let s := sumVals (seed + i) es
        let inv := fp32.div Val.one s
        es.map (fun e => (⟨round32 (e.mul inv), p⟩ : Elem)))
  (List.range rows.length).map (fun r => cols.map (fun c => c.getD r ⟨.zero, false⟩))

/-- NaNs produced from operands of which none is NaN (R230). -/
def newNans (ins outs : List Elem) : Nat := if ins.any (·.v.isNan) then 0 else (outs.filter (·.v.isNan)).length

/-! ### Matching -/

/-- Common IDs of two strictly ascending lists, ascending (R249). -/
def intersect (a b : List Nat) : List Nat := a.filter (fun x => b.contains x)

/-- TRIANGLE count of R249: `rs` is R(u), and `nb v` the neighbours of v. -/
def triangles (rs : List Nat) (nb : List (Nat × List Nat)) : Nat :=
  nb.foldl (fun acc (v, ws) => acc + (ws.filter (fun w => decide (v < w) && rs.contains w)).length) 0

end Sys2Proof.Machine
end

