-- ==== Sys2Proof/Machine/RegMap.lean ====
section
/-! DEFINITION. The register map as data: pages (R397 to R400), the registers of every page with their fields,
access and reset values, the counters of every page, and the ERR_STAT bits each page assigns.
Every table row follows the register tables of the chapter named beside it. -/

namespace Sys2Proof.Machine

/-- The blocks that own register pages (R400). -/
inductive Block where
  | hub | tt | dl | px | pm | sk | chRoot | eb | syHub | cr | bt | cc
  | chNode | hm | dd | gu | wh | ta | ve | sp | hk | pt | sh | sy | cf | tp | ex
  deriving DecidableEq, Repr

/-- A register page: its block and its number among that block's pages. -/
structure Page where
  block : Block
  num : Nat
  deriving DecidableEq, Repr

/-- BAR0 offset of a page (R398, R399, R350, R353, R385). -/
def Page.base (p : Page) : Nat :=
  match p.block with
  | .hub => 0 | .tt => 0x1000 | .dl => 0x2000 | .px => 0x3000 | .pm => 0x4000 | .sk => 0x5000
  | .chRoot => 0x6000 | .eb => 0x7000 | .syHub => 0x8000 | .cr => 0x9000 | .bt => 0xA000
  | .cc => 0xB000 + p.num * 0x1000
  | .chNode => 0x100000 + p.num * 0x100000 + 0x2000
  | .hm => 0x100000 + p.num / 3 * 0x100000 + 0x3000 + p.num % 3 * 0x1000
  | .dd => 0x100000 + p.num / 4 * 0x100000 + 0x6000 + p.num % 4 * 0x1000
  | .gu => 0x1000000 + p.num * 0x10000
  | .wh => 0x1000000 + p.num * 0x10000 + 0x1000
  | .ta => 0x1000000 + p.num * 0x10000 + 0x2000
  | .ve => 0x1000000 + p.num * 0x10000 + 0x3000
  | .sp => 0x1000000 + p.num * 0x10000 + 0x4000
  | .hk => 0x1000000 + p.num * 0x10000 + 0x5000
  | .pt => 0x1000000 + p.num * 0x10000 + 0x6000
  | .sh => 0x1000000 + p.num * 0x10000 + 0x7000
  | .sy => 0x1000000 + p.num * 0x10000 + 0x8000
  | .cf => 0x1000000 + p.num * 0x10000 + 0x9000
  | .tp => 0x2000000 + p.num * 0x1000
  | .ex => 0x2010000

/-- The page that occupies the 4 KiB of BAR0 at `off`, on a full device; none where no unit stands on any variant (R397). -/
def pageAt (off : Nat) : Option Page :=
  let k := off / 0x1000
  if k < 11 then
    ([.hub, .tt, .dl, .px, .pm, .sk, .chRoot, .eb, .syHub, .cr, .bt][k]?).map (fun b => ⟨b, 0⟩)
  else if k < 19 then some ⟨.cc, k - 11⟩
  else if 0x100 ≤ k ∧ k < 0x500 then
    let n := (k - 0x100) / 0x100
    let j := k % 0x100
    if j = 2 then some ⟨.chNode, n⟩
    else if 3 ≤ j ∧ j < 6 then some ⟨.hm, 3 * n + (j - 3)⟩
    else if 6 ≤ j ∧ j < 10 then some ⟨.dd, 4 * n + (j - 6)⟩
    else none
  else if 0x1000 ≤ k ∧ k < 0x1000 + 216 * 16 then
    let c := (k - 0x1000) / 16
    ([.gu, .wh, .ta, .ve, .sp, .hk, .pt, .sh, .sy, .cf][k % 16]?).map (fun b => ⟨b, c⟩)
  else if 0x2000 ≤ k ∧ k < 0x2010 then some ⟨.tp, k - 0x2000⟩
  else if k = 0x2010 then some ⟨.ex, 0⟩
  else none

/-- The die a page stands on, none for the hub (R6: pages of absent units). -/
def Page.die (p : Page) : Option Nat :=
  match p.block with
  | .chNode => some p.num
  | .hm => some (p.num / 3)
  | .dd => some (p.num / 4)
  | .gu | .wh | .ta | .ve | .sp | .hk | .pt | .sh | .sy | .cf => some (dieOfCluster p.num)
  | _ => none

/-- The unit behind the page exists on the variant (R2, R6). Ports and the Exchange are kept by every variant. -/
def Page.present (v : Variant) (p : Page) : Bool :=
  (match p.die with
    | some d => decide (d < v.dies)
    | none => true)
  && (match p.block with
    | .dd => v.hasDdr
    | _ => true)

/-- Every page of a full device, in ascending block type and number. -/
def allPages : List Page :=
  let cl := List.range 216
  [⟨.hub, 0⟩] ++ cl.map (⟨.gu, ·⟩) ++ cl.map (⟨.wh, ·⟩) ++ (List.range 4).map (⟨.chNode, ·⟩) ++ [⟨.chRoot, 0⟩]
  ++ cl.map (⟨.ta, ·⟩) ++ cl.map (⟨.ve, ·⟩) ++ cl.map (⟨.sp, ·⟩) ++ cl.map (⟨.hk, ·⟩) ++ cl.map (⟨.pt, ·⟩)
  ++ cl.map (⟨.sh, ·⟩) ++ [⟨.eb, 0⟩, ⟨.tt, 0⟩] ++ cl.map (⟨.sy, ·⟩) ++ [⟨.syHub, 0⟩, ⟨.cr, 0⟩, ⟨.dl, 0⟩]
  ++ (List.range 12).map (⟨.hm, ·⟩) ++ (List.range 16).map (⟨.dd, ·⟩) ++ cl.map (⟨.cf, ·⟩)
  ++ (List.range 16).map (⟨.tp, ·⟩) ++ [⟨.ex, 0⟩, ⟨.px, 0⟩, ⟨.bt, 0⟩, ⟨.pm, 0⟩, ⟨.sk, 0⟩] ++ (List.range 8).map (⟨.cc, ·⟩)

/-- Block type code (R400). -/
def Block.code : Block → Nat
  | .hub => 0x01 | .gu => 0x10 | .wh => 0x11 | .chRoot => 0x12 | .chNode => 0x12 | .ta => 0x13 | .ve => 0x14
  | .sp => 0x15 | .hk => 0x16 | .pt => 0x17 | .sh => 0x18 | .eb => 0x19 | .tt => 0x20 | .sy => 0x21 | .syHub => 0x21
  | .cr => 0x22 | .dl => 0x23 | .hm => 0x30 | .dd => 0x31 | .cf => 0x32 | .tp => 0x40 | .ex => 0x41 | .px => 0x50
  | .bt => 0x60 | .pm => 0x61 | .sk => 0x62 | .cc => 0x63

/-- PAGE_ID instance number (R154: the root is instance 4; R309: the hub SY page is 0x0100). -/
def Page.instNo (p : Page) : Nat :=
  match p.block with
  | .chRoot => 4
  | .syHub => 0x100
  | _ => p.num

/-- PAGE_ID (R400): block type [31:16], instance [15:0]. -/
def Page.id (p : Page) : Word := BitVec.ofNat 32 (p.block.code * 65536 + p.instNo)

/-- PAGE_CAPS of each block (R4, R84, R88, R151, R154, R183, R186, R207, R232, R252, R275, R309, R312, R330, R350, R353,
R354, R385, R421, R434, R457, R479, R495). -/
def Page.caps (v : Variant) (p : Page) : Word :=
  match p.block with
  | .hub => v.hubCaps
  | .gu | .dd | .syHub | .cr | .ex | .px => 3
  | .wh | .eb | .sh | .ve | .sy | .cc | .bt | .sk => 1
  | .ta => if v.hasSparse then 1 else 0
  | .sp => if v.hasSparse then 7 else 4
  | .tp => 0x1D
  | .chRoot | .chNode | .hk | .pt | .hm | .cf | .pm | .tt | .dl => 0

/-- The blocks whose page implements PAGE_CTL (R402). -/
def Block.hasPageCtl : Block → Bool
  | .gu | .wh | .ta | .ve | .sp | .hk | .pt | .sh => true
  | _ => false

/-- Cluster pages (R398). -/
def Block.isCluster : Block → Bool
  | .gu | .wh | .ta | .ve | .sp | .hk | .pt | .sh | .sy | .cf => true
  | _ => false

/-- Number of ERR_STAT bits a page assigns, from bit 0 up (R123, R153, R154, R185, R188, R209, R234, R254, R275, R278, R311,
R313, R332, R352, R354, R387, R389, R422, R436, R458, R481, R497, R498). -/
def Block.errBits : Block → Nat
  | .gu => 7 | .wh => 3 | .eb => 1 | .sh => 2 | .ta => 2 | .ve => 4 | .sp => 5 | .pt => 4 | .syHub => 9 | .sy => 2
  | .cr => 4 | .hm => 4 | .dd => 4 | .cf => 1 | .tp => 3 | .ex => 5 | .px => 2 | .cc => 1 | .bt => 3 | .pm => 5 | .tt => 3
  | .hub | .dl | .chRoot | .chNode | .hk | .sk => 0

/-- First counter offset, number of counters and control offset of a page (0: no control register). Log 78, DEDUCED: the CF pages (R354). -/
def Block.counters : Block → Nat × Nat × Nat
  | .gu => (0x120, 14, 0x1F0) | .wh => (0x120, 9, 0x1F0) | .chRoot => (0x120, 6, 0x1F0) | .chNode => (0x120, 6, 0x1F0)
  | .eb => (0x520, 6, 0x5F0) | .sh => (0x120, 7, 0x1F0) | .ta => (0x120, 9, 0x1F0) | .ve => (0x120, 6, 0x1F0)
  | .sp => (0x120, 14, 0x1F0) | .hk => (0x140, 9, 0x1F0) | .pt => (0x120, 6, 0x1F0) | .syHub => (0x120, 7, 0x1F0)
  | .sy => (0x120, 3, 0x1F0) | .cr => (0x180, 9, 0x1F0) | .hm => (0x120, 6, 0x1F0) | .dd => (0x120, 6, 0x1F0)
  | .cf => (0x120, 2, 0) | .tp => (0x180, 9, 0x1F0) | .ex => (0x180, 8, 0x1F0) | .px => (0x120, 7, 0x1F0)
  | .cc => (0x120, 5, 0x1F0) | .pm => (0x200, 5, 0x2F0) | .sk => (0x200, 5, 0x2F0)
  | .hub | .tt | .dl | .bt => (0, 0, 0)

/-- The registers by the spec's names. -/
inductive RegId where
  -- common header (R401 to R406, R84, R485)
  | pageId | pageVer | pageCaps | pageCtl | pageStat | errStat | errMask | errFirst | rejInfo | dealStat | snapWord
  | cntLo | cntHi | cntCtl
  -- hub (R6)
  | hubRejAddr
  -- Task Tracker (R54, R55, R58, R63, R70, R73, R77)
  | ttCtxCfg | ttPitch | ttXlateLo | ttXlateHi | ttXlateInv | ttCancel | ttSaveCtl | ttSaveAddrLo | ttSaveAddrHi
  | ttSaveStat | ttFree | ttCancelTag
  -- Deal engine (R84)
  | dlCtl | dlStatus | dlAtLo | dlAtHi | dlDirAddrLo | dlDirAddrHi | dlDirExpectLo | dlDirExpectHi | dlDirDataLo
  | dlDirDataHi | dlDirCtl | dlCount | dlDoneLo | dlDoneHi
  -- Gather Unit (R121), Wholesale (R152), Clearing House (R154)
  | guWindow | guPromote | guRemoteTo | guCombine | guStatus | whCfg | whDeal | whStatus | chNodeCfg | chRootCfg | chStat
  -- embedding (R184), Shelf (R187)
  | ebTables | ebRegLo | ebRegHi | ebDrained | ebTblSel | ebTblCtl
  | shMigListLo | shMigListHi | shMigCtl | shMigCount | shMigStat | shMigEpoch
  -- Transform Array (R208), Vector Engine (R233), sparse (R253), Hawker (R276), Porter (R278)
  | taCfg | taStatus | veCfg | veStatus | veOpcStat | spCfg | spStatus | hkCfg | hkTcCfg | hkStatus | hkSlotGen | ptStatus
  -- sync hub (R310) and cluster (R312)
  | syCfg | syParkTo | syXlateInv | syStatus | syCtxFirst | syCtxCount | syXlateLo | syXlateHi | syOpObj | syOpArg | syOpCtl
  | syOpStat | syOpValue | syOpAux | syOpInit | syOpMask | syOpVec | syCellAdd | syCellStatus | syCell | syCellWs
  -- Crier (R331)
  | crTimeLo | crTimeHi | crCfg | crEpochPeriod | crLoadLo | crLoadHi | crLoadCtl | crEpochLen | crEpochNum | crStatus
  | crLock | crXfer | crLaunchLo | crLaunchHi | crLaunchInfo | crPend | crPortOfs
  -- memory controllers (R351, R353)
  | hmStat | hmCap | hmScrub | hmCeLimit | hmErrAddrLo | hmErrAddrHi | ddCfg
  -- Tlagiur ports (R386), Exchange (R388)
  | tpCfg | tpState | tpCtl | tpLoss | tpPeerSec | tpPeerEpoch | tpPeerGen | tpPeerDigest | tpLink
  | exDevice | exFabricGen | exExportLo | exExportHi | exRouteQ | exStatus | exGrpSel | exGrpCfg | exGrpId | exGrpSize
  | exGrpMemLo | exGrpMemHi
  -- PCIe endpoint (R421), queue pages of BAR2 (R408)
  | pxLink | pxAperLo | pxAperHi | pxFnStat | pxFnAperLo | pxFnAperHi
  | qDoorbell | qBaseLo | qBaseHi | qCfg | qHead | qTail | qStat | qRej | qReset
  -- control cores (R435), boot and trust (R457), power manager (R480), Stocktake (R496)
  | ccStatus | ccThreadSel | ccThread | ccMailbox
  | btState | btStart | btJournalSel | btCtl | btSlot | btFloorCtl | btUpdLo | btUpdHi | btUpdLen | btUpdCtl | btUpdStat
  | btSec | btFloor | btKey | btJournal
  | pmCap | pmStep | pmStat | pmVin | pmFlow | pmTemp | pmTemp2 | pmSkip | pmTrip | pmInCfg | pmInStat | pmInDrop | pmInClr
  | pmTrigOut
  | skCfg | skCtl | skAtLo | skAtHi | skStat | skSeq | skLatchLo | skLatchHi | skRoute | skOvf | skOvfSrc | skLogHead
  | skLogTail | skLogSel | skLogData | skCtxVec
  deriving DecidableEq, Repr

/-- Field access types (R12). -/
inductive Acc where
  | ro | rw | w1c | w1s | wo | rwd
  deriving DecidableEq, Repr

/-- A field [hi:lo]; bits no field covers are reserved (R9). -/
structure Field where
  hi : Nat
  lo : Nat
  acc : Acc
  deriving DecidableEq, Repr

/-- Who may write a register, beside the PF where a chapter says so. -/
inductive Who where
  | pf            -- only the PF
  | owner         -- the PF, and the function of the context that owns the pitch holding the cluster
  | ctx           -- the PF and the function of the context that indexes the register
  | fnOnly        -- only the function that indexes the register (PX_FN_APER)
  | slot          -- only the slot's own function or core
  | pfCores       -- the PF and the control cores (R495)
  | skCtx         -- as pfCores, and the function of the indexing context
  | anyFn         -- every function; the register's own checks restrict the rest
  | anyWriter     -- every writer, on its own copy (REJ_INFO, HUB_REJ_ADDR)
  | rwdPf         -- an RWD register writable by the PF, staged too by a control core (R82)
  | exGroup       -- the PF, and the function whose context owns the selected group (R388)
  deriving DecidableEq, Repr

/-- One row of a register table. A repeated register has `count` copies `stride` bytes apart. -/
structure Reg where
  id : RegId
  off : Nat
  count : Nat
  stride : Nat
  who : Who
  fields : List Field
  deriving DecidableEq, Repr

/-- Fields by type, and single registers, as the tables write them. -/
def fro (hi lo : Nat) : Field := ⟨hi, lo, .ro⟩
def frw (hi lo : Nat) : Field := ⟨hi, lo, .rw⟩
def fwo (hi lo : Nat) : Field := ⟨hi, lo, .wo⟩
def fw1s (n : Nat) : Field := ⟨n, n, .w1s⟩
def fw1c (n : Nat) : Field := ⟨n, n, .w1c⟩
def fwd (hi lo : Nat) : Field := ⟨hi, lo, .rwd⟩
def reg1 (id : RegId) (off : Nat) (who : Who) (fields : List Field) : Reg := ⟨id, off, 1, 4, who, fields⟩
def full (acc : Acc) : List Field := [⟨31, 0, acc⟩]

/-- The common header (R402, R404, R405, R406, R84, R485). `who` is the page's own writers for ERR_STAT and ERR_MASK. -/
def headerRegs (b : Block) (who : Who) : List Reg :=
  let eb := if b.errBits = 0 then [] else [⟨b.errBits - 1, 0, Acc.w1c⟩]
  let em := if b.errBits = 0 then [] else [frw (b.errBits - 1) 0]
  [ reg1 .pageId 0x000 who (full .ro), reg1 .pageVer 0x004 who (full .ro), reg1 .pageCaps 0x008 who (full .ro),
    reg1 .pageCtl 0x010 .pf [fw1s 2, frw 1 1, frw 0 0], reg1 .pageStat 0x014 who (full .ro),
    reg1 .errStat 0x020 who eb, reg1 .errMask 0x024 who em, reg1 .errFirst 0x028 who (full .ro),
    reg1 .rejInfo 0x030 .anyWriter [fw1c 31, fro 27 16, fro 7 0], reg1 .dealStat 0x038 who (full .ro),
    ⟨.snapWord, 0x080, 32, 4, who, full .ro⟩ ]

/-- The counters of a page and their control register (R122). -/
def counterRegs (b : Block) (who : Who) : List Reg :=
  let (base, n, ctl) := b.counters
  if n = 0 then [] else
    [ ⟨.cntLo, base, n, 8, who, full .ro⟩, ⟨.cntHi, base + 4, n, 8, who, [fw1c 31, fro 15 0]⟩ ]
    ++ (if ctl = 0 then [] else [reg1 .cntCtl ctl who [frw 1 1, fwo 0 0]])

/-- The block registers of every page. -/
def blockRegs : Block → List Reg
  | .hub => [reg1 .hubRejAddr 0x108 .anyWriter [fw1c 31, fro 25 0]]
  | .tt =>
    [ ⟨.ttCtxCfg, 0x100, 32, 4, .anyFn, [frw 31 31, fro 30 30, frw 29 28, frw 17 0]⟩,
      ⟨.ttPitch, 0x180, 32, 4, .rwdPf, [fwd 31 31, fwd 30 30, fwd 29 25, fwd 24 20, fwd 19 15, fwd 14 11, fwd 10 6, fwd 5 2]⟩,
      ⟨.ttXlateLo, 0x200, 32, 8, .rwdPf, [fwd 31 17, fwd 0 0]⟩, ⟨.ttXlateHi, 0x204, 32, 8, .rwdPf, [fwd 15 0]⟩,
      reg1 .ttXlateInv 0x300 .anyFn [fro 31 31, fwo 4 0], reg1 .ttCancel 0x304 .anyFn [fwo 31 30, fwo 9 0],
      reg1 .ttSaveCtl 0x308 .pf [fro 31 31, fwo 25 24, frw 20 16, frw 15 0],
      reg1 .ttSaveAddrLo 0x310 .pf (full .rw), reg1 .ttSaveAddrHi 0x314 .pf [frw 15 0],
      reg1 .ttSaveStat 0x318 .pf (full .ro), reg1 .ttFree 0x31C .pf (full .ro), reg1 .ttCancelTag 0x320 .anyFn (full .rw) ]
  | .dl =>
    [ ⟨.dlCtl, 0x100, 40, 0x40, .slot, [fwo 4 4, fwo 3 3, fwo 2 0]⟩, ⟨.dlStatus, 0x104, 40, 0x40, .slot, full .ro⟩,
      ⟨.dlAtLo, 0x108, 40, 0x40, .slot, full .rw⟩, ⟨.dlAtHi, 0x10C, 40, 0x40, .slot, full .rw⟩,
      ⟨.dlDirAddrLo, 0x110, 40, 0x40, .slot, full .rw⟩, ⟨.dlDirAddrHi, 0x114, 40, 0x40, .slot, full .rw⟩,
      ⟨.dlDirExpectLo, 0x118, 40, 0x40, .slot, full .rw⟩, ⟨.dlDirExpectHi, 0x11C, 40, 0x40, .slot, full .rw⟩,
      ⟨.dlDirDataLo, 0x120, 40, 0x40, .slot, full .rw⟩, ⟨.dlDirDataHi, 0x124, 40, 0x40, .slot, full .rw⟩,
      ⟨.dlDirCtl, 0x128, 40, 0x40, .slot, [fwo 3 3, fwo 2 2, fwo 1 1, fwo 0 0]⟩, ⟨.dlCount, 0x12C, 40, 0x40, .slot, full .ro⟩,
      ⟨.dlDoneLo, 0x130, 40, 0x40, .slot, full .ro⟩, ⟨.dlDoneHi, 0x134, 40, 0x40, .slot, full .ro⟩ ]
  | .gu =>
    [ reg1 .guWindow 0x100 .owner [frw 27 16, frw 12 0], reg1 .guPromote 0x104 .owner [frw 31 31, frw 21 16, frw 12 0],
      reg1 .guRemoteTo 0x108 .owner [frw 15 0], reg1 .guCombine 0x10C .owner [frw 31 31, frw 10 0],
      reg1 .guStatus 0x110 .owner (full .ro) ]
  | .wh =>
    [ reg1 .whCfg 0x100 .owner [frw 31 31, frw 19 16, frw 10 0], reg1 .whDeal 0x104 .owner [frw 15 0],
      reg1 .whStatus 0x108 .owner (full .ro) ]
  | .chNode => [reg1 .chNodeCfg 0x100 .pf [frw 11 0], reg1 .chStat 0x104 .pf (full .ro)]
  | .chRoot => [reg1 .chRootCfg 0x100 .pf [frw 8 0], reg1 .chStat 0x104 .pf (full .ro)]
  | .eb =>
    [ ⟨.ebTables, 0x100, 32, 0x20, .pf, [frw 30 16, frw 13 0]⟩, ⟨.ebRegLo, 0x104, 32, 0x20, .ctx, [frw 31 6]⟩,
      ⟨.ebRegHi, 0x108, 32, 0x20, .ctx, [frw 11 0]⟩, ⟨.ebDrained, 0x10C, 32, 0x20, .ctx, full .ro⟩,
      ⟨.ebTblSel, 0x110, 32, 0x20, .ctx, [frw 13 0]⟩, ⟨.ebTblCtl, 0x114, 32, 0x20, .ctx, [frw 31 31, frw 30 30, fro 10 0]⟩ ]
  | .sh =>
    [ reg1 .shMigListLo 0x100 .owner [frw 31 3], reg1 .shMigListHi 0x104 .owner [frw 11 0],
      reg1 .shMigCtl 0x108 .owner [fwo 31 31, frw 20 16, frw 13 0], reg1 .shMigCount 0x10C .owner [frw 15 0],
      reg1 .shMigStat 0x110 .owner (full .ro), reg1 .shMigEpoch 0x114 .owner (full .ro) ]
  | .ta => [reg1 .taCfg 0x100 .owner [frw 31 31, frw 11 8, frw 1 0], reg1 .taStatus 0x104 .owner (full .ro)]
  | .ve => [reg1 .veCfg 0x100 .owner [frw 0 0], reg1 .veStatus 0x104 .owner (full .ro), reg1 .veOpcStat 0x108 .owner (full .ro)]
  | .sp => [reg1 .spCfg 0x100 .owner [frw 31 31], reg1 .spStatus 0x104 .owner (full .ro)]
  | .hk =>
    [ reg1 .hkCfg 0x100 .owner [frw 31 31, frw 27 16, frw 10 0], reg1 .hkTcCfg 0x104 .owner [frw 31 31, fwo 0 0],
      reg1 .hkStatus 0x108 .owner (full .ro), ⟨.hkSlotGen, 0x110, 8, 4, .owner, full .ro⟩ ]
  | .pt => [reg1 .ptStatus 0x100 .owner (full .ro)]
  | .syHub =>
    [ reg1 .syCfg 0x100 .pf [frw 31 31, frw 15 0], reg1 .syParkTo 0x104 .pf [frw 15 0],
      reg1 .syXlateInv 0x108 .anyFn [fro 31 31, fwo 4 0], reg1 .syStatus 0x10C .pf (full .ro),
      ⟨.syCtxFirst, 0x200, 32, 0x10, .pf, [frw 19 0]⟩, ⟨.syCtxCount, 0x204, 32, 0x10, .pf, [frw 20 0]⟩,
      ⟨.syXlateLo, 0x208, 32, 0x10, .ctx, [frw 31 3, frw 0 0]⟩, ⟨.syXlateHi, 0x20C, 32, 0x10, .ctx, [frw 31 12, frw 11 0]⟩,
      ⟨.syOpObj, 0x400, 40, 0x40, .slot, [frw 28 24, frw 19 0]⟩, ⟨.syOpArg, 0x404, 40, 0x40, .slot, full .rw⟩,
      ⟨.syOpCtl, 0x408, 40, 0x40, .slot, [fwo 4 4, fwo 3 0]⟩, ⟨.syOpStat, 0x40C, 40, 0x40, .slot, full .ro⟩,
      ⟨.syOpValue, 0x410, 40, 0x40, .slot, full .ro⟩, ⟨.syOpAux, 0x414, 40, 0x40, .slot, full .ro⟩,
      ⟨.syOpInit, 0x418, 40, 0x40, .slot, full .rw⟩, ⟨.syOpMask, 0x41C, 40, 0x40, .slot, full .rw⟩,
      ⟨.syOpVec, 0x420, 40, 0x40, .slot, [frw 15 0]⟩ ]
  | .sy =>
    [ reg1 .syCellAdd 0x100 .owner [fwo 21 16, fwo 15 0], reg1 .syCellStatus 0x104 .owner (full .ro),
      ⟨.syCell, 0x200, 48, 4, .owner, full .rw⟩, ⟨.syCellWs, 0x300, 12, 4, .owner, full .rw⟩ ]
  | .cr =>
    [ reg1 .crTimeLo 0x100 .pf (full .ro), reg1 .crTimeHi 0x104 .pf (full .ro),
      reg1 .crCfg 0x108 .pf [frw 11 8, frw 4 4, frw 1 0], reg1 .crEpochPeriod 0x10C .pf [frw 23 0],
      reg1 .crLoadLo 0x110 .pf (full .rw), reg1 .crLoadHi 0x114 .pf (full .rw),
      reg1 .crLoadCtl 0x118 .pf [fro 31 31, fw1s 0], reg1 .crEpochLen 0x11C .pf (full .rw),
      reg1 .crEpochNum 0x120 .pf (full .ro), reg1 .crStatus 0x124 .pf (full .ro),
      reg1 .crLock 0x128 .pf [frw 31 24, frw 23 16, frw 15 0], reg1 .crXfer 0x12C .pf [frw 15 0],
      reg1 .crLaunchLo 0x130 .pf (full .ro), reg1 .crLaunchHi 0x134 .pf (full .ro), reg1 .crLaunchInfo 0x138 .pf (full .ro),
      reg1 .crPend 0x13C .pf (full .ro), ⟨.crPortOfs, 0x140, 16, 4, .pf, full .ro⟩ ]
  | .hm =>
    [ reg1 .hmStat 0x100 .pf (full .ro), reg1 .hmCap 0x104 .pf (full .ro), reg1 .hmScrub 0x108 .pf [frw 31 31, frw 7 0],
      reg1 .hmCeLimit 0x10C .pf [frw 15 0], reg1 .hmErrAddrLo 0x110 .pf (full .ro),
      reg1 .hmErrAddrHi 0x114 .pf [fw1c 31, fro 15 0] ]
  | .dd =>
    [ reg1 .hmStat 0x100 .pf (full .ro), reg1 .hmCap 0x104 .pf (full .ro), reg1 .hmScrub 0x108 .pf [frw 31 31, frw 7 0],
      reg1 .hmCeLimit 0x10C .pf [frw 15 0], reg1 .hmErrAddrLo 0x110 .pf (full .ro),
      reg1 .hmErrAddrHi 0x114 .pf [fw1c 31, fro 15 0], reg1 .ddCfg 0x118 .pf (full .ro) ]
  | .cf => []
  | .tp =>
    [ reg1 .tpCfg 0x100 .pf (full .ro), reg1 .tpState 0x104 .pf (full .ro), reg1 .tpCtl 0x108 .pf [fw1s 31, fwo 15 0],
      reg1 .tpLoss 0x10C .pf [frw 15 0], reg1 .tpPeerSec 0x110 .pf (full .ro), reg1 .tpPeerEpoch 0x114 .pf (full .ro),
      reg1 .tpPeerGen 0x118 .pf (full .ro), ⟨.tpPeerDigest, 0x120, 4, 4, .pf, full .ro⟩, ⟨.tpLink, 0x140, 16, 4, .pf, full .ro⟩ ]
  | .ex =>
    [ reg1 .exDevice 0x100 .pf (full .ro), reg1 .exFabricGen 0x104 .pf [frw 15 0], reg1 .exExportLo 0x108 .pf [frw 31 6, frw 0 0],
      reg1 .exExportHi 0x10C .pf [frw 15 0], reg1 .exRouteQ 0x110 .pf [fro 31 30, fro 19 16, frw 11 0],
      reg1 .exStatus 0x114 .pf (full .ro), reg1 .exGrpSel 0x120 .anyFn [frw 7 0],
      reg1 .exGrpCfg 0x124 .exGroup [frw 31 31, fro 30 30, frw 28 24, frw 15 0], reg1 .exGrpId 0x128 .exGroup [frw 15 0],
      reg1 .exGrpSize 0x12C .exGroup [frw 28 16, frw 11 0], reg1 .exGrpMemLo 0x130 .exGroup [frw 31 2],
      reg1 .exGrpMemHi 0x134 .exGroup [frw 11 0] ]
  | .px =>
    [ reg1 .pxLink 0x100 .pf (full .ro), reg1 .pxAperLo 0x108 .pf [frw 31 28], reg1 .pxAperHi 0x10C .pf [frw 15 0],
      ⟨.pxFnStat, 0x200, 32, 0x10, .fnOnly, full .ro⟩, ⟨.pxFnAperLo, 0x204, 32, 0x10, .fnOnly, [frw 31 30]⟩,
      ⟨.pxFnAperHi, 0x208, 32, 0x10, .fnOnly, [frw 11 0]⟩ ]
  | .cc =>
    [ reg1 .ccStatus 0x100 .pf (full .ro), reg1 .ccThreadSel 0x104 .pf [frw 5 0], reg1 .ccThread 0x108 .pf (full .ro),
      reg1 .ccMailbox 0x10C .pf (full .rw) ]
  | .bt =>
    [ reg1 .btState 0x100 .pf (full .ro), reg1 .btStart 0x104 .pf (full .ro), reg1 .btJournalSel 0x108 .pf [frw 5 0],
      reg1 .btCtl 0x10C .pf [fw1s 1, fw1s 0], reg1 .btSlot 0x110 .pf [fro 13 8, frw 5 5, frw 3 0],
      reg1 .btFloorCtl 0x114 .pf [fwo 8 8, fwo 5 0], reg1 .btUpdLo 0x118 .pf [frw 31 12], reg1 .btUpdHi 0x11C .pf (full .rw),
      reg1 .btUpdLen 0x120 .pf [frw 25 0], reg1 .btUpdCtl 0x124 .pf [fwo 31 31, frw 0 0], reg1 .btUpdStat 0x128 .pf (full .ro),
      ⟨.btSec, 0x140, 6, 4, .pf, full .ro⟩, ⟨.btFloor, 0x160, 6, 4, .pf, full .ro⟩, reg1 .btKey 0x178 .pf (full .ro),
      ⟨.btJournal, 0x180, 8, 4, .pf, full .ro⟩ ]
  | .pm =>
    [ reg1 .pmCap 0x100 .pf [frw 23 16, frw 15 0], reg1 .pmStep 0x104 .pf [frw 11 0], reg1 .pmStat 0x108 .pf (full .ro),
      reg1 .pmVin 0x10C .pf (full .ro), reg1 .pmFlow 0x110 .pf (full .ro), reg1 .pmTemp 0x114 .pf (full .ro),
      reg1 .pmTemp2 0x118 .pf (full .ro), reg1 .pmSkip 0x11C .pf (full .ro), reg1 .pmTrip 0x120 .pf [fw1c 31, fro 11 8, fro 7 0],
      ⟨.pmInCfg, 0x140, 5, 4, .pf, [frw 31 16, frw 15 15, frw 14 0]⟩, ⟨.pmInStat, 0x160, 5, 4, .pf, full .ro⟩,
      ⟨.pmInDrop, 0x180, 5, 4, .pf, full .ro⟩, reg1 .pmInClr 0x194 .pf [fwo 4 0],
      ⟨.pmTrigOut, 0x1A0, 4, 4, .pf, [fw1s 31, frw 2 0]⟩ ]
  | .sk =>
    [ reg1 .skCfg 0x100 .pfCores [frw 31 31, frw 27 24, frw 17 16, frw 15 0],
      reg1 .skCtl 0x104 .pfCores [fw1s 3, fw1s 2, fw1s 1, fw1s 0], reg1 .skAtLo 0x108 .pfCores (full .rw),
      reg1 .skAtHi 0x10C .pfCores (full .rw), reg1 .skStat 0x110 .pfCores (full .ro), reg1 .skSeq 0x114 .pfCores (full .ro),
      reg1 .skLatchLo 0x118 .pfCores (full .ro), reg1 .skLatchHi 0x11C .pfCores (full .ro),
      reg1 .skRoute 0x120 .pfCores [frw 31 31, frw 30 30, frw 28 26, frw 25 24, frw 10 0],
      reg1 .skOvf 0x124 .pfCores [frw 31 31, frw 10 0], reg1 .skOvfSrc 0x128 .pfCores [fw1c 31, fro 25 0],
      reg1 .skLogHead 0x130 .pfCores (full .ro), reg1 .skLogTail 0x134 .pfCores (full .rw), reg1 .skLogSel 0x138 .pfCores [frw 11 0],
      ⟨.skLogData, 0x140, 8, 4, .pfCores, full .ro⟩, ⟨.skCtxVec, 0x180, 32, 4, .skCtx, [frw 17 16, frw 15 0]⟩ ]

/-- The page's own writers, for its ERR_STAT, ERR_MASK and counter control (the chapters' page lists; R405). Log 77, DEDUCED: who may write ERR_STAT, ERR_MASK and CNT_CTL (R405, R122). -/
def Block.who (b : Block) : Who :=
  match b with
  | .gu | .wh | .ta | .ve | .sp | .hk | .pt | .sh | .sy => .owner
  | .sk => .pfCores
  | _ => .pf

/-- All registers of a page. -/
def pageRegs (b : Block) : List Reg := headerRegs b b.who ++ counterRegs b b.who ++ blockRegs b

/-- The queue page of BAR2 (R408). -/
def queueRegs : List Reg :=
  [ reg1 .qDoorbell 0x000 .anyFn (full .wo), reg1 .qBaseLo 0x008 .anyFn [frw 31 12], reg1 .qBaseHi 0x00C .anyFn [frw 11 0],
    reg1 .qCfg 0x010 .anyFn [frw 31 31, frw 4 0], reg1 .qHead 0x018 .anyFn (full .ro), reg1 .qTail 0x01C .anyFn (full .ro),
    reg1 .qStat 0x020 .anyFn (full .ro), reg1 .qRej 0x024 .anyFn [fw1c 31, fro 27 16, fro 7 0], reg1 .qReset 0x028 .anyFn [fw1s 0] ]

/-- The row of a table that covers page offset `off`, with the copy's index. -/
def findReg (rs : List Reg) (off : Nat) : Option (Reg × Nat) :=
  (rs.find? (fun r => decide (r.off ≤ off) && decide (off < r.off + r.stride * r.count) && decide ((off - r.off) % r.stride = 0))).map
    (fun r => (r, (off - r.off) / r.stride))

/-- Bits of a register whose field has one of the access types. -/
def Reg.mask (r : Reg) (p : Acc → Bool) : Word :=
  r.fields.foldl (fun m f => if p f.acc then m ||| maskBits f.hi f.lo else m) 0

/-- Reserved bits: covered by no field (R9). -/
def Reg.reserved (r : Reg) : Word := ~~~ r.mask (fun _ => true)

/-- Some field is writable (R501). -/
def Reg.writable (r : Reg) : Bool := r.fields.any (fun f => decide (f.acc ≠ .ro))

/-- A write to copy i of the register is ignored whole: none of its fields is writable (R501). The fields of PX_FN_APER of
function 0 are RO 0 (R421). ERR_STAT, ERR_MASK and PAGE_CTL state rejections of their own (R402, R405). -/
def Reg.ignored (r : Reg) (i : Nat) : Bool :=
  match r.id with
  | .errStat | .errMask | .pageCtl => false
  | .pxFnAperLo | .pxFnAperHi => i == 0
  | _ => !r.writable

/-- Plain stored bits a write replaces: RW fields. -/
def Reg.rwMask (r : Reg) : Word := r.mask (fun a => a == .rw)
def Reg.w1cMask (r : Reg) : Word := r.mask (fun a => a == .w1c)

/-- Reset values that the tables give, 0 where the table gives 0 or the value is computed on reading. -/
def resetOf (v : Variant) (id : RegId) (idx : Nat) (b : Block) : Word :=
  match id with
  | .pageCtl => 1
  | .ttCtxCfg => if idx = 0 then 0x80020000 else 0
  | .guWindow => 0x00401000
  | .guPromote => 0x80200040
  | .guRemoteTo => 0x00000064
  | .guCombine => 0x80000400
  | .whCfg => 0x80040100
  | .whDeal => 0x00000040
  | .chNodeCfg => 16
  | .chRootCfg => 32
  | .ebDrained => 0xFFFFFFFF
  | .taCfg => if v.hasSparse then 0x80000800 else 0x00000800
  | .spCfg => if v.hasSparse then 0x80000000 else 0
  | .hkCfg => 0x88000100
  | .hkTcCfg => 0x80000000
  | .syCfg => 0x000003E8
  | .syParkTo => 0x00000064
  | .syOpVec => 0x0000FFFF
  | .crEpochPeriod => 0x000F4240
  | .crEpochLen => 0x00002710
  | .crStatus => 0x40000000
  | .crLock => 0x08000032
  | .crXfer => 0x00001000
  | .hmCap => if b = .hm then 0x00B2D05E else 0
  | .hmScrub => 0x80000018
  | .hmCeLimit => 0x000003E8
  | .tpLoss => 0x00000032
  | .pmCap => 0x000A0B54
  | .pmStep => 200
  | .pmStat => 0x80000000
  | .pmInCfg => 0x0064000A
  | .skRoute => 0x41000000
  | .skCtxVec => 0x0001FFFF
  | .qCfg => 4
  | _ => 0

/-- REJ codes (R499). -/
inductive Rej where
  | reserved | range | state | locked | absent | align | deal | route | context | version
  deriving DecidableEq, Repr

def Rej.code : Rej → Nat
  | .reserved => 1 | .range => 2 | .state => 3 | .locked => 4 | .absent => 5 | .align => 6 | .deal => 7 | .route => 8
  | .context => 9 | .version => 10

/-- ERR codes (R500). -/
inductive Err where
  | taskTimeout | saveTimeout | xlate | poisonStop | gatherRange | topoMeta | remoteTimeout | remoteRefused | mcastTimeout
  | mcastMissed | tableInvalid | vectorRange | vectorNan | sparseMeta | copyRange | tallyOverrun | tallyUnderrun | tallyRange
  | bellOverrun | syncTimeout | signalParkTimeout | signalRefused | syncXlate | launchLate | timeUnlocked | epochMissed
  | refclkLost | memUe | memCeRate | memThermal | memFailed | sramUe | linkDegrade | linkLost | linkHandshake | collRefused
  | hostAperture | pcieLinkDown | ccFault | bootStep | imageRefused | guard | thermal | coolant | flowLow | trip | inputStuck
  deriving DecidableEq, Repr

def Err.code : Err → Nat
  | .taskTimeout => 0x01 | .saveTimeout => 0x02 | .xlate => 0x03 | .poisonStop => 0x04 | .gatherRange => 0x10 | .topoMeta => 0x11
  | .remoteTimeout => 0x12 | .remoteRefused => 0x13 | .mcastTimeout => 0x14 | .mcastMissed => 0x15 | .tableInvalid => 0x16
  | .vectorRange => 0x18 | .vectorNan => 0x19 | .sparseMeta => 0x1A | .copyRange => 0x1B | .tallyOverrun => 0x20
  | .tallyUnderrun => 0x21 | .tallyRange => 0x22 | .bellOverrun => 0x23 | .syncTimeout => 0x24 | .signalParkTimeout => 0x25
  | .signalRefused => 0x26 | .syncXlate => 0x27 | .launchLate => 0x30 | .timeUnlocked => 0x31 | .epochMissed => 0x32
  | .refclkLost => 0x33 | .memUe => 0x40 | .memCeRate => 0x41 | .memThermal => 0x42 | .memFailed => 0x43 | .sramUe => 0x44
  | .linkDegrade => 0x50 | .linkLost => 0x51 | .linkHandshake => 0x52 | .collRefused => 0x53 | .hostAperture => 0x60
  | .pcieLinkDown => 0x61 | .ccFault => 0x70 | .bootStep => 0x71 | .imageRefused => 0x72 | .guard => 0x73 | .thermal => 0x80
  | .coolant => 0x81 | .flowLow => 0x82 | .trip => 0x83 | .inputStuck => 0x84

def allErrs : List Err :=
  [.taskTimeout, .saveTimeout, .xlate, .poisonStop, .gatherRange, .topoMeta, .remoteTimeout, .remoteRefused, .mcastTimeout,
   .mcastMissed, .tableInvalid, .vectorRange, .vectorNan, .sparseMeta, .copyRange, .tallyOverrun, .tallyUnderrun, .tallyRange,
   .bellOverrun, .syncTimeout, .signalParkTimeout, .signalRefused, .syncXlate, .launchLate, .timeUnlocked, .epochMissed,
   .refclkLost, .memUe, .memCeRate, .memThermal, .memFailed, .sramUe, .linkDegrade, .linkLost, .linkHandshake, .collRefused,
   .hostAperture, .pcieLinkDown, .ccFault, .bootStep, .imageRefused, .guard, .thermal, .coolant, .flowLow, .trip, .inputStuck]

/-- ERR_STAT bit of an error on the page that raises it; none where the page assigns it no bit. -/
def errBit (b : Block) (e : Err) : Option Nat :=
  match b, e with
  | .gu, .gatherRange => some 0 | .gu, .topoMeta => some 1 | .gu, .xlate => some 2 | .gu, .remoteTimeout => some 3
  | .gu, .remoteRefused => some 4 | .gu, .linkLost => some 5 | .gu, .poisonStop => some 6
  | .wh, .topoMeta => some 0 | .wh, .mcastTimeout => some 1 | .wh, .mcastMissed => some 2
  | .eb, .tableInvalid => some 0 | .sh, .tableInvalid => some 0 | .sh, .xlate => some 1
  | .ta, .xlate => some 0 | .ta, .poisonStop => some 1
  | .ve, .xlate => some 0 | .ve, .vectorRange => some 1 | .ve, .vectorNan => some 2 | .ve, .poisonStop => some 3
  | .sp, .sparseMeta => some 0 | .sp, .xlate => some 1 | .sp, .topoMeta => some 2 | .sp, .gatherRange => some 3
  | .sp, .poisonStop => some 4
  | .pt, .xlate => some 0 | .pt, .copyRange => some 1 | .pt, .poisonStop => some 2 | .pt, .gatherRange => some 3
  | .syHub, .tallyOverrun => some 0 | .syHub, .tallyUnderrun => some 1 | .syHub, .tallyRange => some 2
  | .syHub, .bellOverrun => some 3 | .syHub, .syncTimeout => some 4 | .syHub, .signalParkTimeout => some 5
  | .syHub, .signalRefused => some 6 | .syHub, .syncXlate => some 7 | .syHub, .linkLost => some 8
  | .sy, .tallyRange => some 0 | .sy, .syncTimeout => some 1
  | .cr, .launchLate => some 0 | .cr, .timeUnlocked => some 1 | .cr, .epochMissed => some 2 | .cr, .refclkLost => some 3
  | .hm, .memUe => some 0 | .hm, .memCeRate => some 1 | .hm, .memThermal => some 2 | .hm, .memFailed => some 3
  | .dd, .memUe => some 0 | .dd, .memCeRate => some 1 | .dd, .memThermal => some 2 | .dd, .memFailed => some 3
  | .cf, .sramUe => some 0
  | .tp, .linkDegrade => some 0 | .tp, .linkLost => some 1 | .tp, .linkHandshake => some 2
  | .ex, .linkLost => some 0 | .ex, .collRefused => some 1 | .ex, .mcastMissed => some 2 | .ex, .xlate => some 3
  | .ex, .poisonStop => some 4
  | .px, .hostAperture => some 0 | .px, .pcieLinkDown => some 1
  | .cc, .ccFault => some 0
  | .bt, .bootStep => some 0 | .bt, .imageRefused => some 1 | .bt, .guard => some 2
  | .pm, .thermal => some 0 | .pm, .coolant => some 1 | .pm, .flowLow => some 2 | .pm, .trip => some 3 | .pm, .inputStuck => some 4
  | .tt, .taskTimeout => some 0 | .tt, .saveTimeout => some 1 | .tt, .xlate => some 2
  | _, _ => none

end Sys2Proof.Machine
end

