-- ==== Sys2Proof/Machine/Device.lean ====
section
/-! DEFINITION. The structures of the device's state, unit by unit, as plain data. Register bits live in `Dev.regs`;
the structures here hold what the registers only report, and what they do not show. -/

namespace Sys2Proof.Machine

/-! ### Tasks, graphs and instances (chapter 03) -/

/-- R68. -/
inductive TaskState where
  | waiting | primed | released | active | draining | done | failed | cancelled
  deriving DecidableEq, Repr

/-- States of a task whose graph has not ended through it (R69). -/
def TaskState.live : TaskState → Bool
  | .waiting | .primed | .released | .active | .draining => true
  | .done | .failed | .cancelled => false

/-- R62 KIND. -/
inductive Kind where
  | gather | embedBag | transform | vector | matchT | copy | collective | signal
  deriving DecidableEq, Repr

def kindOf : Nat → Option Kind
  | 1 => some .gather | 2 => some .embedBag | 3 => some .transform | 4 => some .vector | 5 => some .matchT | 6 => some .copy
  | 7 => some .collective | 8 => some .signal
  | _ => none

/-- A task entry: the admitted descriptor, the format descriptors its body names as admission read them (R64, R410),
and its progress. -/
structure Task where
  desc : List Byte
  fmts : List (Nat × List Byte)
  state : TaskState
  /-- beat on which the last condition of R67 was met; none while one is unmet -/
  metAt : Option Nat
  /-- beat on which the last soft predecessor became DONE, while PRIMED -/
  softAt : Option Nat
  releasedAt : Nat
  waitRegistered : Bool
  waitMet : Bool
  waitPhys : Nat          -- entry on which the wait is or was registered (R287)
  dealt : Bool            -- instances created
  launchTaken : Bool      -- holds a launch entry (R328)
  launched : Bool         -- its launch beat has come (R328)
  orderAt : Nat           -- beat on which the launch order reaches the clusters (R328)
  launchBeat : Nat        -- the launch beat, once launched
  span : Nat              -- S of its launch (R329)
  gen : Word              -- generation of the slot its instances last took or were evicted from (R79; log 27, DESIGN CHOICE)
  signalDue : Option Nat  -- beat on which its object signal reaches the store (R290)
  err : Nat               -- ERR code when FAILED
  doneAt : Nat
  deriving DecidableEq, Repr

/-- R61 edge. -/
structure Edge where
  src : Nat
  dst : Nat
  soft : Bool
  deriving DecidableEq, Repr

/-- An admitted graph (R59 to R69). -/
structure Graph where
  gid : Nat
  queue : Nat
  tag : Nat
  msix : Nat
  ordered : Bool
  afterGraph : Option Nat   -- the queue's last admitted graph, for ORDERED (R59)
  complAddr : Nat
  paramAddr : Nat
  tasks : List Task
  edges : List Edge
  valid : Bool              -- its admission Deal has committed (R65)
  ttCancelled : Bool        -- cancelled by TT_CANCEL (R69)
  silent : Bool             -- ends with no record and no message (R66: FLR)
  firstFail : Option (Nat × Nat)  -- first task that failed, and its ERR code
  poisonRead : Nat
  poisonWritten : Nat
  deriving DecidableEq, Repr

/-- An admission in progress: an admitted graph whose Deal is due, or a refusal (R64, R65). -/
structure Admission where
  queue : Nat
  due : Nat                -- beat on which its Deal is first due
  graph : Graph
  deriving DecidableEq, Repr

/-- A completion record that is due without an admitted graph: a refusal (R64, R66). -/
structure RefusalDue where
  gid : Nat                -- the serial number COMPLETION_RECORD names
  queue : Nat
  addr : Nat
  addrOk : Bool
  msix : Nat
  tag : Nat
  code : Nat
  task : Nat
  offset : Nat
  deriving DecidableEq, Repr

/-- An index in an instance's stream: its row ID, weight, segment, list place (R97, R257); or a hub vertex (R124). -/
structure Idx where
  id : Nat
  null : Bool
  home : Option Nat        -- another device's ID (R22)
  weight : Elem
  seg : Nat
  entry : Nat              -- list entry, or place in the stream
  va : Nat                 -- address of the list entry, for R110
  self : Bool              -- SELF row (R97)
  hub : Option (Nat × Nat) -- a hub: first neighbour-array index, degree
  deriving DecidableEq, Repr

/-- State of a distinct row held by an instance (R103, R108). -/
inductive RowState where
  | queued | flying | landed
  deriving DecidableEq, Repr

/-- Where a row's fetch goes (R100). -/
inductive Source where
  | shelf (cluster slot : Nat)   -- directory hit: slice and SLOT
  | home                         -- the row's address
  | default                      -- default row of R159
  | remote (device : Nat)
  | sourceRow (k : Nat)          -- scatter source row, by list entry
  deriving DecidableEq, Repr

structure RowEnt where
  ref : Nat
  win : Nat
  row : Nat
  src : Source
  st : RowState
  data : List PByte
  isHot : Bool           -- kept by a hot entry (R105)
  uses : Nat             -- occurrences in its window (R105)
  deriving DecidableEq, Repr

/-- An occurrence: which row serves which segment (R103). -/
structure Occ where
  idx : Idx
  ref : Nat
  win : Nat
  deriving DecidableEq, Repr

/-- A hot entry (R105, R106). -/
structure Hot where
  row : Nat
  home : Option Nat
  ref : Nat
  served : Bool          -- served an occurrence in this Crier epoch
  refresh : Bool         -- its next occurrence refetches
  deriving DecidableEq, Repr

/-- A combining-queue entry (R116): target row, held value, last use, and its EMBED_BAG row. -/
structure Comb where
  row : Nat
  val : List Elem
  stamp : Nat
  deriving DecidableEq, Repr

/-- A landed unit of a Hawker stream: which stream and place, and its bytes (R255, R257). -/
structure Landed where
  stream : Nat
  item : Nat
  data : List PByte
  deriving DecidableEq, Repr

/-- A request's part of a unit that has not landed whole yet (R257, R259). -/
structure Part where
  stream : Nat
  item : Nat
  part : Nat
  data : List PByte
  deriving DecidableEq, Repr

/-- A tile that the epilogue has finished, with what its write needs when its task has ended (R206, R237). -/
structure TileOut where
  iid : Nat
  gid : Nat
  ti : Nat
  ctx : Nat
  va : Nat
  data : List PByte
  dense : Bool
  approx : Bool
  deriving DecidableEq, Repr

/-- An instance of a task in a cluster, or a lane serving a slab (slots 8 to 15; R130 to R132). -/
structure Inst where
  iid : Nat
  gid : Nat
  ti : Nat
  rel : Nat                -- row-major relative position
  cluster : Nat
  slot : Option Nat
  tookAt : Nat
  started : Bool
  startEpoch : Nat
  stopPolicy : Bool        -- POISON_POLICY STOP, read at the start (R269)
  stopOrdered : Bool       -- a stop order has taken effect (R264)
  bumped : Bool            -- its generation has been incremented after the order
  late : Bool              -- it was not armed on its launch beat (R328)
  startDue : Option Nat    -- beat on which it starts after its launch (R328, R329)
  lo : Nat                 -- dealt range of segments, rows, iterations, descriptors or entries
  hi : Nat
  issued : Nat             -- indices requested (R258)
  idxTaken : Nat           -- of those, indices the coalescer has taken
  parts : List Part
  landed : List Landed
  pos : Nat                -- next N-panel, operation, entry or descriptor
  sub : Nat                -- steps done in it
  ended : Bool             -- last execute step issued
  -- coalescer (R99 to R108)
  idxPos : Nat             -- indices entered
  win : Nat
  winOpen : Bool
  winCount : Nat
  winAt : Nat              -- beat of the last index entered
  winSize : Nat            -- GU_WINDOW.SIZE and PROMOTE as the window opened with (R121)
  winIdle : Nat
  winPromote : Word
  nextRef : Nat
  rows : List RowEnt
  occs : List Occ
  hots : List Hot
  comb : List Comb
  combCfg : Word           -- GU_COMBINE as the instance started with (R121)
  -- pooling
  agg : Option (List Elem) -- aggregate of the segment in progress
  aggCount : Nat
  hubDone : List (Nat × Option (List Elem) × Nat)  -- hub aggregates landed: segment, value, COUNT
  -- EMBED_BAG: descriptor read at the start, the header of its directory, its table slot (R158, R167)
  tbl : List Byte
  dirHdr : List Byte
  tblSlot : Nat
  -- TRANSFORM layout chosen when the instance takes its slot (R195, R203, R238)
  resident : Bool
  rb : Nat
  merge : Bool
  predict : Nat
  audit : Nat
  hseed : Nat              -- free choices of the present row block's h (R200)
  outTiles : List TileOut  -- finished tiles that the epilogue holds back (R237)
  hkCfg : Word             -- HK_CFG as it stood when the instance started (R275)
  nanFault : Bool          -- VE_CFG as the instance started with (R232)
  opc : SMap PByte         -- operand-cache contents by offset (R227)
  packW : Nat              -- lanes taken in the Vector Engine step that short runs share (R225)
  packN : Nat              -- and elements in it
  -- MATCH: the present entry (R249, R250)
  keys : List Nat          -- build list as read
  chunk : Nat              -- chunk of it being probed
  probe : Nat              -- probe list, by its place
  bpart : Option (Nat × Nat) -- positions of the build list still to be read: next, end
  part : Option (Nat × Nat)  -- the same of the probe list
  prev : Option Nat          -- last ID read of the list being read (R26)
  hits : Nat
  common : List Nat
  -- COPY: the present descriptor (R272, R273)
  desc : List PByte
  row : Nat                -- row being read: of a descriptor, or of a segment of a segmented VECTOR operation
  off : Nat                -- bytes of it requested
  -- lane
  owner : Nat              -- the dealing instance
  tag : Nat
  slab : Nat
  voided : Bool            -- the slab faulted or its task ended (R142)
  waitHub : Option Nat     -- segment of the oldest hub, whose aggregate the stream waits for (R127)
  deriving DecidableEq, Repr

/-- Where a fetch lands: part `part` of the `total` parts of a unit; a gathered row; bytes of a COPY row, at their destination; a
row of the instance's multicast stream. -/
inductive Dest where
  | stream (s item part total : Nat)
  | row (ref : Nat)
  | copy (desc row va : Nat) (first last : Bool)
  | mcast (row : Nat)
  deriving DecidableEq, Repr

/-- A fetch in flight (R257, R258, R265). -/
structure Fetch where
  id : Nat
  unit : Nat               -- 0 Hawker, 1 Gather Unit, 2 Porter
  cluster : Nat
  home : Nat               -- cluster of the slot whose generation it carries: the dealing task's, for a lane (R131)
  slot : Nat
  gen : Word
  iid : Nat
  gid : Nat
  ti : Nat
  ctx : Nat
  dest : Dest
  phys : Bool                  -- pieces are device physical addresses (a Shelf slice)
  pieces : List (Nat × Nat)    -- device virtual address and length
  span : List (Nat × Nat)      -- those of the whole unit it is part of
  copy : List PByte            -- contents as they stood at issue (R27, R111)
  cached : Bool                -- they come from the topology cache (R260)
  remote : Option (Nat × Nat)  -- home device and row number (R112)
  dueAt : Nat                  -- beat on which a remote request times out (R114, R121)
  deriving DecidableEq, Repr

/-- A topology-cache line (R260): context, physical line number, contents. -/
structure TcLine where
  ctx : Nat
  line : Nat
  data : List PByte
  stamp : Nat
  deriving DecidableEq, Repr

/-- What a cluster holds beside its registers: slot generations, operand-cache pages being zeroed, compressor queue,
topology cache, the most recent window's count, the matcher's keys and holder. -/
structure Cluster where
  gens : SMap Word
  zeroing : Nat
  tiles : List TileOut
  tc : List TcLine
  winLast : Nat
  winBy : Nat                  -- iid of the instance whose window that is
  keys : Nat
  matchHolder : Option Nat     -- iid
  starving : List Nat          -- instances whose next step waits for landed data: iids (R263)
  opIndex : Nat
  veBusyAt : Nat
  mergeAt : Nat
  taLast : Nat                 -- layout of the TRANSFORM instance last started: RESIDENT and ROW_BLOCK of TA_STATUS
  whEff : Word                 -- WH_CFG in effect while lanes serve slabs (R151)
  deriving DecidableEq, Repr

def Cluster.empty : Cluster := ⟨[], 0, [], [], 0, 0, 0, none, [], 0, 0, 0, 0, 0⟩

/-! ### Wholesale path and Clearing House (chapter 05) -/

/-- A hub being dealt or merged, under its tag (R127 to R139). -/
structure Hub where
  gid : Nat
  ti : Nat
  iid : Nat
  seg : Nat
  vertex : Nat
  first : Nat            -- neighbour-array index of the first neighbour
  degree : Nat
  tag : Option Nat       -- granted hub tag
  asked : Bool           -- a tag has been requested (R127, R135)
  askedAt : Nat
  edges : List (Nat × Nat)   -- neighbour-array index and ID of the slabs' first and last neighbours that have landed (R26)
  dealt : Nat            -- slabs sent so far, to clusters or served by the owner
  lastCand : Nat         -- rotation: relative position after which the next candidate is sought
  creditAt : Nat         -- beat of the last slab sent, or of the grant
  perDie : List Nat      -- slabs dealt to the clusters of each die
  closed : Bool          -- CLOSE messages sent
  total : Nat            -- slabs the CLOSE counts
  aborted : Bool
  selfSeen : Bool        -- own row taken (SELF)
  cluster : Nat          -- the owning cluster
  deriving DecidableEq, Repr

/-- A merge entry of a hub (R136, R137). An element is poisoned where POISON_MAP names its 64 bytes of the body. -/
structure MergeEntry where
  tag : Nat
  op : Reduce
  ctx : Nat
  n : Nat
  slabs : Nat
  count : Nat
  body : Option (List Elem)   -- none: VOID
  abort : Bool
  deriving DecidableEq, Repr

/-- One hub slot of a die node or of the root. -/
structure HubSlot where
  tag : Nat
  op : Reduce
  ctx : Nat
  n : Nat
  slabs : Nat
  count : Nat
  body : Option (List Elem)
  close : Option Nat          -- slabs this node waits for, once its CLOSE has arrived
  mask : Nat                  -- root: dies named in the CLOSE
  deriving DecidableEq, Repr

/-- Messages on their way in the Clearing House tree. `node` 0 to 3: die nodes; 4: root. -/
inductive TreeMsg where
  | entry (node : Nat) (e : MergeEntry)
  | close (node tag count mask : Nat)
  | aggregate (tag : Nat) (count : Nat) (body : Option (List Elem))
  deriving DecidableEq, Repr

/-- A scatter entry (R117, R136, R141). -/
structure ScatEntry where
  node : Nat
  target : Nat               -- device physical address of the target row
  at_ : List (Nat × Nat)     -- of its parts, where its pages put them apart
  op : Scatter
  u32 : Bool
  ctx : Nat
  fmt : Fmt
  n : Nat
  val : List Elem
  gid : Nat
  ti : Nat
  cluster : Nat
  row : Nat
  update : Bool              -- UPDATE of EMBED_BAG: reports back for VERSION (R165)
  held : Bool                -- in the scatter area; false: still on its way
  stamp : Nat
  since : Nat                -- beat on which it took its space
  parts : List (Nat × Nat × Nat × Nat × Nat)   -- merged senders: gid, ti, cluster, row, directory
  deriving DecidableEq, Repr

/-- A report of an UPDATE application on its way to the Gather Unit that sent the entry (R165). -/
structure BumpDue where
  cluster : Nat
  ctx : Nat
  obj : Nat              -- the task, as an error record names it
  dir : Nat              -- the table's directory
  row : Nat
  deriving DecidableEq, Repr

/-- A receiver of a multicast stream (R146): a cluster, or a remote device; rows landed and credited. -/
structure McRecv where
  remote : Bool
  who : Nat
  landed : Nat           -- rows written so far, all earlier ones included
  credited : Nat         -- rows credited at the sender
  detached : Bool
  deriving DecidableEq, Repr

/-- A multicast stream being sent (R144 to R149). -/
structure McStream where
  iid : Nat
  gid : Nat
  ti : Nat
  cluster : Nat
  sent : Nat
  ctx : Nat
  off : Nat              -- DEST_OFFSET and slot size S of the rows (R146)
  slotBytes : Nat
  read : Nat             -- rows whose read has been issued
  staged : List (Nat × List PByte)   -- rows read and not yet sent, by number
  waitAt : Nat           -- beat from which the sender waits on a credit
  recvs : List McRecv
  rows : List (Nat × List PByte)   -- rows sent, with their numbers, kept until every receiver has them
  ended : Bool           -- its last row has been sent
  stopped : Bool         -- it ended before that: timeout, failure or cancellation
  deriving DecidableEq, Repr

/-! ### Shelf migration (chapter 06) -/

/-- The list a Shelf unit works through, and its present entry (R172 to R177). -/
structure Migration where
  cluster : Nat
  ctx : Nat
  table : Nat
  count : Nat
  listVa : Nat
  tbl : List Byte          -- descriptor and directory header, read at the start
  dirHdr : List Byte
  done : Nat
  row : Nat
  slot : Nat
  entryVa : Option Nat     -- directory entry claimed, or being evicted
  prior : Nat              -- its word B as it was read
  attempt : Nat            -- attempts begun on it
  version : Nat            -- VERSION read by the attempt
  readAt : Nat             -- beat of the VERSION read
  copy : List PByte        -- row as read by the attempt
  copying : Bool           -- its slot write is still to come
  outcome : Nat            -- outcome to record when a restoring Deal commits
  stop : Bool              -- the list stops then (R177)
  deriving DecidableEq, Repr

/-! ### Deals (chapter 03) -/

structure DirWord where
  va : Nat
  expect : DWord
  data : DWord
  compare : Bool
  low32 : Bool
  write : Bool
  deriving DecidableEq, Repr

/-- R84 STATE. -/
inductive DealState where
  | idle | opened | committing
  deriving DecidableEq, Repr

/-- One of the 40 Deal slots (R81, R84). -/
structure DealSlot where
  state : DealState
  outcome : Nat
  code : Nat
  index : Nat
  staged : List (Nat × Word)   -- BAR0 offset and value, in staging order
  words : List DirWord
  due : Nat
  at_ : Option Nat             -- AT beat
  lateFail : Bool
  late : Bool                  -- its AT fell before validation ended, or it was moved from its AT beat
  doneTime : Nat
  thread : Nat                 -- control core: thread slot that opened it (R433)
  deriving DecidableEq, Repr

def DealSlot.idle : DealSlot := ⟨.idle, 0, 0, 0, [], [], 0, none, false, false, 0, 0⟩

/-- The kinds of Deal that share beats (R87). -/
inductive DealKind where
  | slotted (slot : Nat)
  | admission (queue : Nat)
  | migration (cluster : Nat) (kind : Nat)   -- 0 migrate, 1 bar, 2 evict, 3 restore
  deriving DecidableEq, Repr

/-- A Deal that is due: when first due, arrival order, and its kind. -/
structure DealDue where
  firstDue : Nat
  seq : Nat
  kind : DealKind
  words : List DirWord         -- of a migration Deal
  deriving DecidableEq, Repr

end Sys2Proof.Machine
end

