-- ==== Sys2Proof/Machine/Work.lean ====
section
/-! DEFINITION. Device memory and host memory as canonical cell lists, the whole device, and the working view in which a
command's effect is computed: the memory as the command found it, and the writes the command makes. A command that nothing in
the state enables leaves it as it is (log 9, DESIGN CHOICE). -/

namespace Sys2Proof.Machine

/-- Memory. Device cells are kept under their device-wide or SRAM-window address (R339 to R341), host cells under their
bus address. Unlisted bytes read 0 (R343; log 5, DESIGN CHOICE). Poison and uncorrectable granules by address / 64 (R50, R345). -/
structure Mem where
  cells : List Host.Cell
  poison : SMap Bool
  dead : SMap Bool
  host : List Host.Cell
  hostPoison : SMap Bool
  deriving DecidableEq, Repr

def Mem.empty : Mem := ⟨[], [], [], [], []⟩

/-- The canonical form: addresses strictly rising, no entry equal to what an unlisted address reads as. -/
abbrev Memory.wf (m : Mem) : Prop :=
  (canon (0 : Byte) m.cells && canon false m.poison && canon false m.dead && canon (0 : Byte) m.host
    && canon false m.hostPoison) = true

/-- One write of a command. -/
inductive Write where
  | byte (host : Bool) (a : Nat) (v : Byte)
  | poison (host : Bool) (g : Nat) (b : Bool)
  | dead (g : Nat) (b : Bool)
  | clear (lo hi : Nat)          -- device bytes [lo, hi), multiples of 64: zeros, no poison (R343, R460)
  deriving DecidableEq, Repr

/-- Apply one write; every case keeps the canonical form. -/
def Mem.write (m : Mem) : Write → Mem
  | .byte false a v => { m with cells := put 0 a v m.cells }
  | .byte true a v => { m with host := put 0 a v m.host }
  | .poison false g b => { m with poison := put false g b m.poison }
  | .poison true g b => { m with hostPoison := put false g b m.hostPoison }
  | .dead g b => { m with dead := put false g b m.dead }
  | .clear lo hi =>
    { m with cells := dropRange lo hi m.cells, poison := dropRange (lo / 64) (hi / 64) m.poison,
             dead := dropRange (lo / 64) (hi / 64) m.dead }

/-- Apply the writes of a command, newest first in the list. -/
def Mem.writeAll (m : Mem) (ws : List Write) : Mem := ws.foldr (fun w m => m.write w) m

/-- A device byte after some writes, newest first. -/
def Mem.byteAfter (m : Mem) (host : Bool) (a : Nat) : List Write → Byte
  | [] => look 0 a (if host then m.host else m.cells)
  | .byte h a' v :: t => if h = host ∧ a' = a then v else m.byteAfter host a t
  | .clear lo hi :: t => if host = false ∧ lo ≤ a ∧ a < hi then 0 else m.byteAfter host a t
  | _ :: t => m.byteAfter host a t

/-- Poison of a granule after some writes. -/
def Mem.poisonAfter (m : Mem) (host : Bool) (g : Nat) : List Write → Bool
  | [] => look false g (if host then m.hostPoison else m.poison)
  | .poison h g' b :: t => if h = host ∧ g' = g then b else m.poisonAfter host g t
  | .clear lo hi :: t => if host = false ∧ lo / 64 ≤ g ∧ g < hi / 64 then false else m.poisonAfter host g t
  | _ :: t => m.poisonAfter host g t

/-- Whether a granule's cells are uncorrectable after some writes. -/
def Mem.deadAfter (m : Mem) (g : Nat) : List Write → Bool
  | [] => look false g m.dead
  | .dead g' b :: t => if g' = g then b else m.deadAfter g t
  | .clear lo hi :: t => if lo / 64 ≤ g ∧ g < hi / 64 then false else m.deadAfter g t
  | _ :: t => m.deadAfter g t

/-- What leaves the device, oldest last; the model's own record (log 7, DESIGN CHOICE). -/
inductive Sent where
  | msix (fn vector : Nat)
  | record (queue : Nat)                      -- a completion record written
  | launchOrder (gid ti : Nat)
  | packet (port : Nat) (bytes : List Byte)
  | flit (port link : Nat) (bytes : List Byte)
  | hello (port link : Nat) (bytes : List Byte)
  | pulse (pin : Nat)                         -- 0 EPOCH_OUT, 1 to 4 TRIG_OUT[k]
  | pin (pin : Nat) (level : Bool)            -- 0 MOD_PG, 1 THERMTRIP
  | completion (fn : Nat) (data : List Byte) (ep : Bool)   -- of an aperture or register read
  | atsDone (fn : Nat)
  | mgmt (eid : Nat) (kind : Nat) (body : List Byte)       -- management replies
  | spdm (code : Nat) (body sig : List Byte)
  | status (core : Nat) (ok : Bool)           -- scheduler port (R427)
  | tree (node tag : Nat)
  deriving DecidableEq, Repr

/-- Rejections kept by page and writer (R406): writers 0 to 31 functions, 32 to 39 control cores. -/
structure RejKey where
  page : Nat
  writer : Nat
  deriving DecidableEq, Repr

end Sys2Proof.Machine
end

