-- ==== Sys2Proof/Machine/Units.lean ====
section
/-! DEFINITION. The state of the remaining units: sync store, Crier, ports and Exchange, PCIe endpoint, control cores, boot and
trust, power manager, Stocktake; and the whole device. -/

namespace Sys2Proof.Machine

/-! ### Synchronisation (chapter 11) -/

/-- A physical entry of the sync store (R284). -/
structure SyEnt where
  value : Word
  aux : Word
  cfg : Word
  mask : Word
  deriving DecidableEq, Repr

def SyEnt.zero : SyEnt := ⟨0, 0, 0, 0⟩

/-- Who waits on an object (R298). -/
inductive Waiter where
  | task (gid ti : Nat)
  | slot (s : Nat)
  deriving DecidableEq, Repr

/-- A registered wait on an object. `never`: registered with ERR_TALLY_RANGE, never satisfied (R286). -/
structure SyWait where
  phys : Nat
  ctx : Nat
  id : Nat
  target : Word
  who : Waiter
  since : Nat
  never : Bool
  reported : Bool
  marked : Bool
  deriving DecidableEq, Repr

/-- An operation slot (R308, R310). -/
structure SySlot where
  busy : Bool
  waiting : Bool
  outcome : Nat
  code : Nat
  value : Word
  aux : Word
  thread : Nat
  deriving DecidableEq, Repr

def SySlot.idle : SySlot := ⟨false, false, 0, 0, 0, 0, 0⟩

/-- A signal on its way to the store, or parked in a port (R290, R302). -/
structure Parked where
  port : Nat
  sender : Nat
  ctx : Nat
  rid : Nat
  op : Nat
  n : Nat
  fence : Nat
  since : Nat
  group : Nat
  step : Nat
  gen : Nat
  cop : Nat
  format : Nat
  elements : Nat
  deriving DecidableEq, Repr

/-- A cell add in flight (R296): due beat, cluster, cell. -/
structure CellAdd where
  due : Nat
  cluster : Nat
  cell : Nat
  n : Nat
  deriving DecidableEq, Repr

/-- An instance's wait on a cell (R293, R297, R298). -/
structure CellWait where
  iid : Nat
  at_ : Nat            -- waiting instance's cluster
  cluster : Nat        -- the cell's cluster
  cell : Nat
  id : Nat
  target : Word
  since : Nat
  never : Bool
  wakeAt : Option Nat  -- satisfied: the beat from which its first step may issue
  reported : Bool
  marked : Bool
  deriving DecidableEq, Repr

structure Sync where
  store : SMap SyEnt
  waits : List SyWait
  slots : List SySlot
  parked : List Parked
  adds : List CellAdd
  cellWaits : List CellWait
  invDue : Option Nat        -- SY_XLATE_INV in progress: its context (R283)
  held : SMap (List Nat)     -- entries read since the last invalidation: context × 2^48 + address (R283)
  deriving DecidableEq, Repr

def Sync.reset : Sync := ⟨[], [], List.replicate 40 .idle, [], [], [], none, []⟩

/-! ### Crier (chapter 12) -/

/-- Ballast for a launch (R329): its launch time, steps up and down taken, and the beat from which the next may be. -/
structure Ballast where
  time : Nat
  ups : Nat
  downs : Nat
  due : Nat
  deriving DecidableEq, Repr

/-- Ballast runs while it has gone up and is not wholly down. -/
def Ballast.runs (b : Ballast) : Bool := decide (b.ups ≠ 0) && decide (b.downs < 16)

structure Crier where
  armed : Bool
  history : List Int         -- upstream offsets, newest first, at most 8 (R323)
  upMean : Option Int        -- their mean at the last exchange (R324)
  goodRun : Nat
  missedRun : Nat
  period : Nat               -- epoch pulse period in effect, ticks (R320)
  expected : Nat             -- next expected epoch time
  nextTick : Nat             -- next due times of the periodic events (R315)
  nextEpoch : Nat
  lastWatch : Nat            -- time of the last watchdog tick or load (R299, R315)
  epochLen : Nat             -- length in effect (R327)
  hold : Bool                -- the next beat holds the time base (R320)
  upUnlocked : Bool          -- the upstream partner reports itself unlocked (R324)
  disagree : List Nat        -- ports that disagree in time (R324)
  refLost : Bool
  lastXfer : Nat
  echo : SMap Nat            -- by port: t1 of the exchange in progress
  loadEdge : Option Nat      -- RACK: time of the accepted edge that takes the armed load (R319)
  judged : Option Nat        -- time of the last edge judged (R320)
  ballasts : List Ballast    -- of launches to come, and of those that did not start (R329)
  tickNo : Nat               -- ticks issued
  deriving DecidableEq, Repr

def Crier.reset : Crier :=
  ⟨false, [], none, 0, 0, 1000000000, 1000000000, 1000, 10000, 0, 10000, false, false, [], false, 0, [], none, none, [], 0⟩

/-! ### Tlagiur and the Exchange (chapter 14) -/

/-- TP_LINK LSTATE (R386). -/
inductive LinkState where
  | down | live | failed | miswired
  deriving DecidableEq, Repr

/-- A member link of a port: its manifest entry (R372) and its state. -/
structure PLink where
  num : Nat
  partnerDevice : Nat
  partnerKind : Nat
  partnerPort : Nat
  partnerLink : Nat
  state : LinkState
  method : Bool
  trained : Bool
  helloSentAt : Nat
  helloSeen : Bool        -- partner's HELLO received
  heard : Bool            -- a flit has come: the partner has received this side's HELLO (R369)
  crcRun : Nat
  lastRx : Nat
  deriving DecidableEq, Repr

/-- R366. -/
inductive PortState where
  | down | training | up | degraded | quarantined | lost
  deriving DecidableEq, Repr

/-- A DATA flit in the replay buffer (R358). -/
structure Replay where
  fseq : Nat
  link : Nat               -- the link that carried it
  slots : List Byte
  sentAt : Nat
  deriving DecidableEq, Repr

structure Port where
  state : PortState
  links : List PLink
  version : Nat
  features : Nat
  offers : Nat                -- FEATURES of the partner's HELLO (R369)
  fseq : Nat                  -- next FSEQ to use
  replay : List Replay        -- oldest first
  ackAt : Nat                 -- beat on which an ACK last advanced
  rxNext : Nat                -- next FSEQ to deliver
  ackSent : Nat               -- ACK that the last flit sent carried (R357)
  reorder : List (Nat × List Byte)
  gapSince : Option Nat
  rxBytes : List Byte         -- slots delivered, not yet a whole packet
  packets : List (List Byte)  -- packets reassembled, oldest first (R360)
  credits : List Nat          -- credit slots held, by class (R362)
  owed : List Nat             -- credit to return, by class (R363)
  withheld : Nat              -- credit of signals withheld while 256 are parked (R303)
  crNext : Nat                -- class whose credit the rotation comes to next
  rotate : Nat                -- links take flits in turn (R365)
  queued : List (List Byte)   -- packets waiting to be sent
  watermark : SMap Word       -- by sending device, plus one (R302, R364)
  pwtx : SMap Word            -- by destination: posted writes numbered (R301, R364)
  deriving DecidableEq, Repr

def creditDivision : List Nat := [1024, 4096, 16384, 32768, 1024, 10240]

def Port.reset : Port :=
  ⟨.down, [], 0, 0, 0, 0, [], 0, 0, 65535, [], none, [], [], creditDivision, [0, 0, 0, 0, 0, 0], 0, 0, 0, [], [], []⟩

/-- The device's own ID routes to itself (R373): such packets cross no link. They are handled as port 16, which is always UP. -/
def Port.loopback : Port := { Port.reset with state := .up, version := 3, features := 0x1D }

/-- An Exchange group's member list as read when VALID was set (R374). -/
structure GroupMembers where
  group : Nat
  entries : List Word
  deriving DecidableEq, Repr

/-- A collective in progress (R378, R380). -/
structure Coll where
  gid : Nat
  ti : Nat
  group : Nat
  gen : Nat
  dests : List Nat             -- devices it sends to
  applied : Nat                -- steps received and applied
  sent : Nat                   -- steps sent
  buf : Option (List PByte)    -- the chunk of the next step to send, read
  readySeen : List Nat         -- steps the receiver is READY for
  readySent : Nat              -- steps this member has been READY for
  haloFrom : List Nat          -- devices whose fenced STEP has been released
  stopPolicy : Bool            -- POISON_POLICY STOP, read at the start (R269)
  finalBytes : List (Nat × Nat)   -- ranges of DST that hold final values: offset, length
  deriving DecidableEq, Repr

/-- A fenced STEP that arrived before the local task started (R380), or a READY before the local send. -/
structure EarlyStep where
  group : Nat
  gen : Nat
  src : Nat
  ready : Bool
  step : Nat
  cop : Nat
  format : Nat
  elements : Nat
  deriving DecidableEq, Repr

/-- A multicast row that is arriving (R384). -/
structure McRow where
  src : Nat
  stream : Nat
  group : Nat
  row : Nat
  data : List PByte
  deriving DecidableEq, Repr

/-- The rows of a stream from another device that this device's slices hold (R147): all below `next`, and those listed after it. -/
structure McIn where
  src : Nat
  stream : Nat
  group : Nat
  next : Nat
  later : List Nat
  deriving DecidableEq, Repr

structure Exchange where
  groupRegs : SMap Word        -- group × 8 + register index (R388)
  sel : SMap Nat               -- EX_GRP_SEL by function
  members : List GroupMembers
  colls : List Coll
  early : List EarlyStep
  aborts : List (Nat × Nat)    -- groups and GENs whose first ABORT has been seen (R382)
  routes : List (Nat × Nat × Nat)  -- manifest route entries: first, last, port (R373)
  device : Nat
  manifestOk : Bool
  secFloor : Nat
  digest : Nat
  mcRx : List McRow
  mcIn : List McIn
  deriving DecidableEq, Repr

def Exchange.reset : Exchange := ⟨[], [], [], [], [], [], [], 0, false, 0, 0, [], []⟩

/-! ### Control cores (chapter 16) -/

/-- R425. -/
inductive ThreadState where
  | empty | blocked | delayed | ready
  deriving DecidableEq, Repr

structure Thread where
  state : ThreadState
  prio : Nat
  user : Bool
  image : Nat
  deriving DecidableEq, Repr

def Thread.none : Thread := ⟨.empty, 0, false, 0⟩

structure Core where
  threads : List Thread        -- 64 slots
  ready : List Nat             -- READY slots, in the order they became READY; the running one first of its level
  running : Option Nat         -- slot switched in
  delays : List (Nat × Nat)    -- slot, tick on which it wakes; sorted by wake tick (R428)
  binds : List (Option Nat)    -- four interrupt sources (R427, R429)
  pends : List Nat             -- threads with a pending interrupt
  sram : List (Nat × List Byte) -- what images put into the private SRAM, by thread slot (R423, R431; log 91, DESIGN CHOICE)
  deriving DecidableEq, Repr

def Core.reset : Core := ⟨List.replicate 64 .none, [], none, [], List.replicate 4 none, [], []⟩

/-! ### Boot and trust (chapter 17) -/

/-- R457 MODE. -/
inductive BootMode where
  | booting | service | recovery
  deriving DecidableEq, Repr

/-- R442, a journal entry. RESULT 0xFF is STARTED. -/
structure JEntry where
  seq : Nat
  start : Nat
  step : Nat
  attempt : Nat
  result : Nat
  method : Nat
  code : Nat
  tUs : Nat
  durUs : Nat
  detail : Nat
  deriving DecidableEq, Repr

/-- An image held in a flash slot (R444, R445): what of its header matters later, and its body. -/
structure FlashImage where
  sec : Nat
  key : Nat
  imageId : Nat
  body : List Byte
  deriving DecidableEq, Repr

structure Boot where
  mode : BootMode
  startNo : Nat
  startBeat : Nat
  running : List JEntry          -- steps whose attempts run, as journalled STARTED
  carried : List (Nat × Nat)     -- failed attempts counted in this start: step, SEQ (R458)
  ended : List Nat               -- steps that have ended in this start
  failStep : Nat
  failCode : Nat
  journal : List JEntry          -- newest first, at most 64
  flash : List (Nat × Nat × FlashImage)   -- type, slot
  active : Word
  booted : List (Nat × Nat × FlashImage)  -- type, slot, image booted in this start
  floors : List Nat              -- guarded region (R452): six floors
  keyFloor : Nat
  threadDigests : List (List Byte)   -- service threads loaded, in load order (R456)
  threadSec : Nat
  updTarget : Option Nat         -- update in progress: 0 FLASH, 1 THREAD
  updAddr : Nat
  updLen : Nat
  updResult : Nat
  tap : Bool
  held : Bool                    -- a start waits for PERST_N (R461)
  begun : Bool                   -- that start has begun, at power-good (R461)
  deriving DecidableEq, Repr

/-! ### Power manager (chapter 18) -/

/-- R460. -/
inductive PowerState where
  | off | low | full
  deriving DecidableEq, Repr

/-- A conditioned input (R476, R477). -/
structure InputSt where
  lastEdge : Option Nat      -- tick of the last accepted active edge
  level : Bool
  since : Nat                -- tick from which the present level has held
  stuck : Bool
  drops : Word
  deriving DecidableEq, Repr

def InputSt.reset : InputSt := ⟨none, false, 0, false, 0⟩

/-- A DIMM as its SPD states it (R334, R335). Type and rate are coded as DD_CFG codes them (R353). -/
structure Dimm where
  kind : Nat                 -- 1 MRDIMM, 2 RDIMM
  ranks : Nat
  rate : Nat                 -- the highest rate
  gb : Nat
  organisation : Nat
  ecc : Bool
  deriving DecidableEq, Repr

structure Power where
  state : PowerState
  modEn : Bool
  modPg : Bool
  perst : Bool               -- PERST_N asserted
  thermSkip : List Nat       -- thermal skip level of each die
  capSkip : Nat
  drawn : List (Nat × Nat)   -- input power in W and the beat from which it holds, newest first (R468)
  overSince : Option Nat     -- beat from which it has exceeded the cap (R468)
  flowCap : Bool             -- cap of 1,200 W until flow recovers (R464)
  inletDrop : Nat            -- W taken off the cap above 40 °C (R465)
  hotDies : List Nat         -- dies at or above 105 °C, already reported
  hotStacks : List Nat
  hotDimms : List Nat
  hotInlet : Bool
  lowFlow : Bool             -- ERR_FLOW_LOW raised in this crossing
  lowSince : Option Nat      -- beat from which flow has been below 3.0 L/min, in FULL (R464)
  tripSince : Option Nat     -- the same for 2.4 L/min
  enAt : Nat                 -- beat on which MOD_EN asserted (R460)
  lowAt : Nat                -- beat on which LOW-POWER was entered (R460)
  rampAt : Nat               -- beat on which FLOW_OK last asserted (R438, R464)
  inputs : List InputSt
  outUntil : List Nat        -- tick until which EPOCH_OUT and TRIG_OUT[0..3] are high (R478)
  deriving DecidableEq, Repr

/-! ### Stocktake (chapter 19) -/

/-- A queued error record: page base, beat of the raising, and bytes (R492). -/
structure ErrRec where
  page : Nat
  beat : Nat
  bytes : List Byte
  deriving DecidableEq, Repr

/-- A pending snapshot: latch beat, first source, time trigger or not (R483). -/
structure Pending where
  beat : Nat
  source : Nat
  timed : Bool
  deriving DecidableEq, Repr

/-- What the last snapshot latched (R485). -/
structure Snap where
  seq : Word
  time : Nat
  stats : SMap Word             -- PAGE_STAT by page base, where it is not 0x8000_0000
  gated : List Nat              -- pages with ENABLE 0
  ctrs : SMap (Nat × Bool)
  deriving DecidableEq, Repr

structure Stock where
  queue : List ErrRec
  log : SMap (List Byte)        -- by slot
  logAt : Nat                   -- first beat on which the next record may be written
  pending : List Pending
  armed : Option Nat            -- time of the armed latch, rounded to a beat
  armLate : Bool
  snap : Option Snap
  deriving DecidableEq, Repr

def Stock.reset : Stock := ⟨[], [], 0, [], none, false, none⟩

/-! ### The device -/

structure Dev where
  beat : Nat                    -- beats since reset
  time : Nat                    -- time base, ticks (R314)
  counting : Bool               -- the root VCO has locked
  free : Nat                    -- free values drawn (log 6, DESIGN CHOICE)
  nextId : Nat                  -- the model's own serial numbers
  sent : List Sent
  regs : SMap Word              -- registers that differ from their reset value, by BAR0 offset (BAR2: 0x0400_0000 + queue × 0x1000)
  ctrs : SMap (Nat × Bool)      -- counters by BAR0 offset of LO: count and OVF (R122)
  hiLatch : SMap (Option Word)  -- HI latched by a LO read: function × 2^26 + offset of HI (R317, R488)
  rejs : SMap Word              -- REJ_INFO: page base × 64 + writer (R406)
  hubRej : SMap Word            -- HUB_REJ_ADDR by writer (R6)
  cancelTags : SMap Word        -- TT_CANCEL_TAG by function (R70)
  msix : SMap Word              -- MSI-X table words: function × 2^17 + offset (R407)
  msixPend : SMap Bool          -- pending bits: function × 2048 + vector
  vfEnabled : Bool
  atsEn : SMap Bool
  flrBusy : List Nat
  eid : Nat                     -- MCTP endpoint ID, 0 unassigned (R420)
  -- tracker
  graphs : List Graph
  admissions : List Admission
  turnCtx : Nat                 -- context that was last visited for admission (R63)
  turnQueue : SMap Nat          -- by context: its queue last visited
  refusals : List RefusalDue
  insts : List Inst
  lastGraph : SMap (Option Nat) -- by queue: last admitted graph
  save : Option (Nat × Nat)     -- SAVE in progress: context, beat of its limit (R78)
  saved : List Graph            -- task entries of saved contexts: what the image does not carry (R79; log 27, DESIGN CHOICE)
  ttInvDue : Option Nat         -- TT_XLATE_INV in progress: its context (R58)
  xheld : SMap (List Nat)       -- translation entries read since the last invalidation: (context × 2^32 + cluster) × 2^48 + address (R58)
  -- clusters and engines
  clusters : SMap Cluster
  fetches : List Fetch
  hubs : List Hub
  tree : List TreeMsg
  hubSlots : List (Nat × HubSlot)   -- node (4: root), slot
  abortedTags : List (Nat × Nat × Nat × Nat)    -- aborted tags still draining: tag, SLABS seen, total, context
  scat : List ScatEntry
  bumps : List BumpDue
  streams : List McStream
  migs : List Migration
  -- Deals
  deals : List DealSlot
  due : List DealDue
  lastCommit : Option Nat
  -- units
  sync : Sync
  crier : Crier
  ports : List Port
  exch : Exchange
  cores : List Core
  boot : Boot
  power : Power
  dimms : List (List Dimm)      -- what each DDR5 channel carries; fitted from outside (R335)
  stock : Stock
  tblCtl : SMap Word            -- EB_TBL_CTL PAUSED and VERSIONED by slot (R184)
  closedEpoch : Option Word     -- newest closed epoch
  ceCounts : SMap (Nat × Nat × Bool)   -- by controller page base: second, corrected errors in it, ERR_MEM_CE_RATE raised (R347)
  ueBeats : SMap (List Nat)     -- by controller page base: beats of the uncorrectable granules of the last second (R349)
  broken : List Page            -- stacks and channels that failed in service: they do not train again (R349)
  deriving DecidableEq, Repr

/-- The view in which a command's effect is computed: the variant and the memory as the command found them, the device, and
the command's writes, newest first. -/
structure Work where
  variant : Variant
  mem : Mem
  dev : Dev
  out : List Write
  deriving Repr

end Sys2Proof.Machine
end

