-- ==== Sys2Proof/Machine/State.lean ====
section
/-! DEFINITION. The state of the block: the ordering code, memory, the device and the queue of waiting commands; the reasons
a step can stop; and the state right after reset. -/

namespace Sys2Proof.Machine

/-- The whole machine. Commands enter `pending` at the back and leave it at the front. -/
structure State where
  variant : Variant
  mem : Mem
  dev : Dev
  pending : List Instr
  deriving DecidableEq, Repr

/-- Why a step stops. Log 10, DESIGN CHOICE: register accesses that are not naturally aligned DWORDs or QWORDs, and accesses past the end of a BAR. -/
inductive Fault where
  /-- Raised by a register access that is not a naturally aligned 4-byte or 8-byte access: R395 requires those and gives no
  effect to any other. Safe: the machine stops where the hardware's behaviour is not stated. -/
  | registerAccessMisaligned
  /-- Raised by an access to an offset past the end of the function's BAR (R392), or to a BAR it does not have. Safe. -/
  | registerAccessBeyondBar
  deriving DecidableEq, Repr

/-- Why a command has no meaning. -/
inductive Refusal where
  /-- Raised only by a command that has no meaning in this model. Safe. -/
  | notModelled (mnemonic : String)
  deriving DecidableEq, Repr

/-- The configuration body of R503 for a variant. -/
def shippedConfig (v : Variant) : List Byte := [1, 0, 0, if v.hasDdr then 0x94 else 0x00]

/-- Flash as shipped (R503). What R503 does not give is the model's choice (log 1, DESIGN CHOICE): security version 1, key 0, empty bodies. -/
def shippedFlash (v : Variant) : List (Nat × Nat × FlashImage) :=
  let img (t : Nat) (b : List Byte) : FlashImage := ⟨1, 0, t, b⟩
  [(1, 0, img 1 []), (1, 1, img 1 []), (2, 0, img 2 []), (2, 1, img 2 []),
   (3, 0, img 3 (shippedConfig v)), (3, 1, img 3 (shippedConfig v)), (4, 0, img 4 [1]), (4, 1, img 4 [1]),
   (6, 0, img 6 []), (6, 1, img 6 [])]

/-- Boot and trust before the first start. -/
def Boot.reset (v : Variant) : Boot :=
  { mode := .booting, startNo := 0, startBeat := 0, running := [], carried := [], ended := [], failStep := 0, failCode := 0,
    journal := [], flash := shippedFlash v, active := 0, booted := [], floors := [0, 0, 0, 0, 0, 0], keyFloor := 0,
    threadDigests := [], threadSec := 0, updTarget := none, updAddr := 0, updLen := 0, updResult := 0, tap := false, held := false, begun := false }

/-- The power manager at power-good: LOW-POWER, MOD_EN and MOD_PG asserted, PERST_N deasserted (R460, R461). -/
def Power.reset : Power :=
  { state := .low, modEn := true, modPg := true, perst := false, thermSkip := [0, 0, 0, 0], capSkip := 0, drawn := [], overSince := none, flowCap := false,
    inletDrop := 0, hotDies := [], hotStacks := [], hotDimms := [], hotInlet := false, lowFlow := false,
    lowSince := none, tripSince := none, enAt := 0, lowAt := 0, rampAt := 0, inputs := List.replicate 5 .reset, outUntil := [0, 0, 0, 0, 0] }

/-- The DIMMs of R503's module: one MRDIMM of 256 GB at 12,800 MT/s on every channel (log 44, DEDUCED). -/
def shippedDimms (v : Variant) : List (List Dimm) := List.replicate v.channels [⟨1, 2, 4, 256, 0, true⟩]

/-- The device with every register, counter and unit at its reset value. -/
def Dev.reset (v : Variant) : Dev :=
  { beat := 0, time := 0, counting := false, free := 0, nextId := 0, sent := [], regs := [], ctrs := [], hiLatch := [], rejs := [],
    hubRej := [], cancelTags := [], msix := [], msixPend := [], vfEnabled := false, atsEn := [], flrBusy := [], eid := 0,
    graphs := [], admissions := [], turnCtx := 31, turnQueue := [], refusals := [], insts := [], lastGraph := [], save := none, saved := [], ttInvDue := none, xheld := [],
    clusters := [], fetches := [], hubs := [], tree := [], hubSlots := [], abortedTags := [], scat := [], bumps := [],
    streams := [], migs := [], deals := List.replicate 40 .idle, due := [], lastCommit := none,
    sync := .reset, crier := .reset, ports := List.replicate 16 .reset ++ [.loopback], exch := .reset, cores := List.replicate 8 .reset,
    boot := Boot.reset v, power := .reset, dimms := shippedDimms v, stock := .reset, tblCtl := [], closedEpoch := none, ceCounts := [], ueBeats := [], broken := [] }

/-- The machine right after reset: an SVX-96A at power-good, every register at its reset value, memory empty, no command
waiting (log 1, DESIGN CHOICE). -/
def State.reset : State := ⟨.svx96A, .empty, Dev.reset .svx96A, []⟩

end Sys2Proof.Machine
end

