-- ==== Sys2Proof/Machine/Sched.lean ====
section
/-! DEFINITION. The hardware scheduler of a control core (R425 to R429), on the core alone. -/

namespace Sys2Proof.Machine

def Core.thread (c : Core) (t : Nat) : Thread := c.threads.getD t .none
def Core.setThread (c : Core) (t : Nat) (f : Thread → Thread) : Core := { c with threads := updAt f t c.threads }
def Core.setState (c : Core) (t : Nat) (st : ThreadState) : Core := c.setThread t (fun x => { x with state := st })

/-- The thread R425 makes run: of the READY ones, the highest priority, first come first served. -/
def Core.pick (c : Core) : Option Nat :=
  c.ready.foldl (fun best t => match best with
    | none => some t
    | some b => if (c.thread b).prio < (c.thread t).prio then some t else some b) none

/-- A core after its switch, with what CC_CNT_SWITCH and CC_CNT_PREEMPT gain (R426, R436). -/
structure Settled where
  core : Core
  switches : Nat
  preempts : Nat
  deriving DecidableEq, Repr

/-- The switch of R426 completes. A switch to idle is no thread switch; a switch away from a thread that stays READY, to one
of higher priority, is a pre-emption. -/
def Core.settle (c : Core) : Settled :=
  let p := c.pick
  if p = c.running then ⟨c, 0, 0⟩
  else
    let pre : Bool := match c.running, p with
      | some o, some n => c.ready.contains o && decide ((c.thread o).prio < (c.thread n).prio)
      | _, _ => false
    ⟨{ c with running := p }, b2n p.isSome, b2n pre⟩

/-- A slot becomes READY, at the tail of its level (R425, R427). -/
def Core.makeReady (c : Core) (t : Nat) : Core :=
  { c.setState t .ready with ready := c.ready ++ [t], delays := c.delays.filter (fun d => d.1 != t) }

/-- A slot leaves the READY list. -/
def Core.unready (c : Core) (t : Nat) (st : ThreadState) : Core := { c.setState t st with ready := c.ready.filter (· != t) }

/-- An interrupt is pending for the slot. -/
def Core.pendingFor (c : Core) (t : Nat) : Bool := c.pends.contains t

/-- R429: a slot that blocks becomes READY again when an interrupt is pending for it; the flag says so. -/
def Core.blockNow (c : Core) (t : Nat) : Core × Bool :=
  let c := c.unready t .blocked
  let c := { c with delays := c.delays.filter (fun d => d.1 != t) }
  if c.pendingFor t then
    let c := { c with pends := c.pends.filter (· != t) }
    (c.makeReady t, true)
  else (c, false)

/-- What an interrupt did (R429). -/
inductive Irq where
  | woke | pended | lost
  deriving DecidableEq, Repr

/-- R429: an interrupt of source `s` on the core. -/
def Core.interrupt (c : Core) (s : Nat) : Core × Irq :=
  match c.binds.getD s none with
  | none => (c, .lost)
  | some t =>
    match (c.thread t).state with
    | .blocked => (c.makeReady t, .woke)
    | .ready | .delayed =>
      if c.pendingFor t then (c, .lost) else ({ c with pends := c.pends ++ [t] }, .pended)
    | .empty => (c, .lost)

/-- R428: insert a delay, sorted by wake tick, ties in order of the operations. -/
def insertDelay (t tick : Nat) : List (Nat × Nat) → List (Nat × Nat)
  | [] => [(t, tick)]
  | (t', k') :: r => if tick < k' then (t, tick) :: (t', k') :: r else (t', k') :: insertDelay t tick r

end Sys2Proof.Machine
end

