-- ==== Sys2Proof/Machine/Ops.lean ====
section
/-! DEFINITION. The shared operations in which every command's effect is written: the run of a command over the state, beats and
time, registers and counters, messages and interrupts, error records, and device and host memory. -/

namespace Sys2Proof.Machine

/-! ### Running a command -/

/-- The view a command starts from. Log 2, DESIGN CHOICE: order of commands. -/
def State.work (s : State) : Work := ⟨s.variant, s.mem, s.dev, []⟩

/-- A command's effect, as a change of the working view, on everything but the queue. -/
def State.run (f : Work → Work) (s : State) : Host.Outcome State Fault Refusal :=
  .next { s with mem := s.mem.writeAll (f s.work).out, dev := (f s.work).dev }

def Work.upd (w : Work) (f : Dev → Dev) : Work := { w with dev := f w.dev }

/-- Make a change when a condition holds. -/
def Work.whenB (w : Work) (c : Bool) (f : Work → Work) : Work := if c then f w else w

/-- Run `f` over a list, left to right. -/
def Work.each {α : Type} (w : Work) (l : List α) (f : α → Work → Work) : Work := l.foldl (fun w x => f x w) w

def Work.say (w : Work) (m : Sent) : Work := w.upd (fun d => { d with sent := d.sent ++ [m] })

/-- A fresh free value (log 6, DESIGN CHOICE). -/
def Work.draw (w : Work) : Nat × Work := (Config.freeValue w.dev.free, w.upd (fun d => { d with free := d.free + 1 }))

/-- A seed for the kernels' free choices: distinct for every call (log 6, DESIGN CHOICE). -/
def Work.seed (w : Work) : Nat × Work := ((w.dev.free + 1) * 2 ^ 64, w.upd (fun d => { d with free := d.free + 1 }))

/-- A serial number of the model. -/
def Work.fresh (w : Work) : Nat × Work := (w.dev.nextId, w.upd (fun d => { d with nextId := d.nextId + 1 }))

/-! ### Registers (R396, R402 to R406) -/

/-- BAR0 offset of a register. -/
def regOff (p : Page) (id : RegId) (i : Nat) : Nat :=
  match (pageRegs p.block).find? (fun r => r.id == id) with
  | some r => p.base + r.off + r.stride * i
  | none => p.base

/-- The bits a register holds. -/
def Work.reg (w : Work) (p : Page) (id : RegId) (i : Nat := 0) : Word :=
  look (resetOf w.variant id i p.block) (regOff p id i) w.dev.regs

def Work.setReg (w : Work) (p : Page) (id : RegId) (x : Word) (i : Nat := 0) : Work :=
  w.upd (fun d => { d with regs := put (resetOf w.variant id i p.block) (regOff p id i) x d.regs })

/-- Field [hi:lo] of a register. -/
def Work.rf (w : Work) (p : Page) (id : RegId) (hi lo : Nat) (i : Nat := 0) : Nat := fld (w.reg p id i) hi lo
def Work.rb (w : Work) (p : Page) (id : RegId) (n : Nat) (i : Nat := 0) : Bool := bitOf (w.reg p id i) n
def Work.setRf (w : Work) (p : Page) (id : RegId) (hi lo x : Nat) (i : Nat := 0) : Work :=
  w.setReg p id (setFld (w.reg p id i) hi lo x) i

/-- Queue page registers (R407, R408), under 0x0400_0000 + queue × 0x1000. -/
def qOff (q : Nat) (id : RegId) : Nat :=
  0x4000000 + q * 0x1000 + ((queueRegs.find? (fun r => r.id == id)).map (·.off)).getD 0
def Work.qreg (w : Work) (q : Nat) (id : RegId) : Word := look (resetOf w.variant id 0 .hub) (qOff q id) w.dev.regs
def Work.setQreg (w : Work) (q : Nat) (id : RegId) (x : Word) : Work :=
  w.upd (fun d => { d with regs := put (resetOf w.variant id 0 .hub) (qOff q id) x d.regs })

/-- The fixed pages. -/
def pgHub : Page := ⟨.hub, 0⟩
def pgTt : Page := ⟨.tt, 0⟩
def pgDl : Page := ⟨.dl, 0⟩
def pgPx : Page := ⟨.px, 0⟩
def pgPm : Page := ⟨.pm, 0⟩
def pgSk : Page := ⟨.sk, 0⟩
def pgEb : Page := ⟨.eb, 0⟩
def pgSy : Page := ⟨.syHub, 0⟩
def pgCr : Page := ⟨.cr, 0⟩
def pgBt : Page := ⟨.bt, 0⟩
def pgEx : Page := ⟨.ex, 0⟩

/-! ### Messages (R414) -/

/-- MSI-X vectors of a function (R414). -/
def vectorsOf (fn : Nat) : Nat := if fn = 0 then 2048 else 64

/-- Vector control word of an MSI-X table entry; its mask bit is set at reset (log 20, PRESUMED). -/
def Work.msixMasked (w : Work) (fn vec : Nat) : Bool := bitOf (look 1 (fn * 2 ^ 17 + vec * 16 + 12) w.dev.msix) 0

/-- Add n to counter k of a page. The flag is set when the counter wraps (R122, R488). A frozen page counts nothing (R489). -/
def Work.bump (w : Work) (p : Page) (k n : Nat) : Work × Bool :=
  if n = 0 ∨ (p.block ≠ .cf ∧ w.rb p .cntCtl 1) then (w, false)
  else
    let key := p.base + p.block.counters.1 + 8 * k
    let c := look (0, false) key w.dev.ctrs
    let s := c.1 + n
    let wraps : Bool := decide (2 ^ 48 ≤ s)
    (w.upd (fun d => { d with ctrs := put (0, false) key (s % 2 ^ 48, c.2 || wraps) d.ctrs }), wraps)

/-- Send a message, or set its pending bit when the vector is masked. The flag: it was sent. -/
def Work.msixRaw (w : Work) (fn vec : Nat) : Work × Bool :=
  if vectorsOf fn ≤ vec then (w, false)
  else if w.msixMasked fn vec then
    (w.upd (fun d => { d with msixPend := put false (fn * 2048 + vec) true d.msixPend }), false)
  else (w.say (.msix fn vec), true)

/-- R488: a wrap of the counter at `key` is recorded and announced. The announcement is itself counted in PX_CNT_MSIX. -/
def Work.wrapped (w : Work) (key : Nat) : Work :=
  if w.rb pgSk .skOvf 31 then
    let w := w.setReg pgSk .skOvfSrc (atBit 1 31 ||| atBit key 0)
    let (w, sent) := w.msixRaw 0 (w.rf pgSk .skOvf 10 0)
    if sent then (w.bump pgPx 3 1).1 else w
  else w

/-- Count, with the announcement of a wrap. Log 69, DESIGN CHOICE: counters of pure timing. -/
def Work.count (w : Work) (p : Page) (k : Nat) (n : Nat := 1) : Work :=
  let (w', wraps) := w.bump p k n
  if wraps then w'.wrapped (p.base + p.block.counters.1 + 8 * k) else w'

/-- R414: one message of a function, counted in PX_CNT_MSIX when it is sent. -/
def Work.message (w : Work) (fn vec : Nat) : Work :=
  let (w, sent) := w.msixRaw fn vec
  if sent then w.count pgPx 3 else w

/-! ### Control cores' interrupts (R429) -/

def Work.core (w : Work) (n : Nat) : Core := w.dev.cores.getD n .reset
def Work.setCore (w : Work) (n : Nat) (c : Core) : Work := w.upd (fun d => { d with cores := updAt (fun _ => c) n d.cores })

/-- Interrupt source s of core n. -/
def Work.coreInt (w : Work) (n s : Nat) : Work :=
  let (c, r) := (w.core n).interrupt s
  let w := w.setCore n c
  match r with
  | .woke => w.count ⟨.cc, n⟩ 2
  | .lost => w.count ⟨.cc, n⟩ 3
  | .pended => w

/-- Switches due on every core complete (R426). Log 47, DEDUCED: thread switches (R426, R436). -/
def Work.settle (w : Work) : Work :=
  w.each (List.range 8) (fun n w =>
    let r := (w.core n).settle
    ((w.setCore n r.core).count ⟨.cc, n⟩ 0 r.switches).count ⟨.cc, n⟩ 1 r.preempts)

/-! ### Stocktake triggers (R482, R483) -/

/-- A register, TRIG_IN or error trigger is accepted: discarded while HELD, joined to a pending snapshot, or latched 24 beats on. -/
def Work.trigger (w : Work) (source : Nat) : Work :=
  if w.rb pgSk .skStat 30 then w.count pgSk 2
  else if w.dev.stock.pending ≠ [] then w.count pgSk 1
  else w.upd (fun d => { d with stock := { d.stock with pending := [⟨d.beat + 24, source, false⟩] } })

/-! ### Errors (R14, R490 to R494) -/

/-- Severity of a code (R500); a raising rule that names another gives it itself. -/
def Err.severity : Err → Nat
  | .taskTimeout | .poisonStop | .gatherRange | .topoMeta | .remoteTimeout | .remoteRefused | .mcastTimeout | .vectorRange
  | .vectorNan | .sparseMeta | .copyRange | .launchLate | .collRefused | .xlate | .tableInvalid => 2
  | .memFailed | .trip => 3
  | _ => 1

/-- What an error record names beside its code and page (R14, R490). Log 65, DEDUCED: fields of error records (R490, R500). -/
structure ErrArgs where
  sev : Nat
  ctx : Option Nat := none
  obj : Nat := 0xFFFFFFFF
  waiter : Nat := 0xFFFFFFFF
  detail : List Byte := []
  deriving DecidableEq, Repr

/-- The 32-byte record of R14. -/
def errRecord (p : Page) (e : Err) (a : ErrArgs) (time : Nat) : List Byte :=
  leBytes 2 e.code ++ leBytes 1 p.block.code ++ leBytes 1 a.sev ++ leBytes 2 p.instNo ++ leBytes 2 (a.ctx.getD 0xFFFF)
    ++ leBytes 4 a.obj ++ leBytes 4 a.waiter ++ leBytes 8 time ++ a.detail.take 8 ++ List.replicate (8 - a.detail.length) 0

/-- R492: records raised on one beat queue in ascending block type, then instance. -/
def insertRecord (r : ErrRec) (key : Nat) (keyOf : ErrRec → Nat) : List ErrRec → List ErrRec
  | [] => [r]
  | x :: t => if x.beat = r.beat ∧ key < keyOf x then r :: x :: t else x :: insertRecord r key keyOf t

/-- Block type and instance of a queued record, as one number. -/
def ErrRec.order (r : ErrRec) : Nat := bytesAt r.bytes 2 1 * 65536 + bytesAt r.bytes 4 2

/-- R494: the messages of an unmasked error. -/
def Work.errMessages (w : Work) (sev : Nat) (ctx : Option Nat) : Work :=
  let min := w.rf pgSk .skRoute 25 24
  let w := w.whenB (w.rb pgSk .skRoute 31 && decide (min ≤ sev)) (fun w => w.message 0 (w.rf pgSk .skRoute 10 0))
  let w := w.whenB (w.rb pgSk .skRoute 30 && decide (min ≤ sev)) (fun w => w.coreInt (w.rf pgSk .skRoute 28 26) 2)
  match ctx with
  | none => w
  | some n =>
    let v := w.rf pgSk .skCtxVec 15 0 n
    w.whenB (decide (v ≠ 0xFFFF) && decide (w.rf pgSk .skCtxVec 17 16 n ≤ sev)) (fun w => w.message n v)

/-- R491: raise an error on a page. -/
def Work.raise (w : Work) (p : Page) (e : Err) (a : ErrArgs) : Work :=
  match errBit p.block e with
  | none => w
  | some b =>
    let w := w.setReg p .errStat (w.reg p .errStat ||| atBit 1 b)
    let w := w.count pgSk 3
    let r : ErrRec := ⟨p.base, w.dev.beat, errRecord p e a w.dev.time⟩
    let w := if w.dev.stock.queue.length < 64 then
        w.upd (fun d => { d with stock := { d.stock with queue := insertRecord r r.order ErrRec.order d.stock.queue } })
      else w.count pgSk 4
    let w := w.whenB (!w.rb p .errMask b) (fun w => w.errMessages a.sev a.ctx)
    let sev := w.rf pgSk .skCfg 17 16
    let code := w.rf pgSk .skCfg 15 0
    w.whenB (decide (sev ≠ 0) && decide (sev ≤ a.sev) && (code == 0 || code == e.code)) (fun w => w.trigger 4)

/-! ### Beats and time (R10, R314, R469, R470) -/

/-- Skip level of a die (R465, R468): the highest any rule asks of it. -/
def Work.skipOf (w : Work) (die : Nat) : Nat :=
  if die < w.variant.dies then max w.dev.power.capSkip (w.dev.power.thermSkip.getD die 0) else 0

/-- Skipped beats of the pattern of R470 among the beats before b. -/
def skipsBefore (k b : Nat) : Nat := b * k / 64

/-- Beat b is skipped at level k (R470). -/
def skipped (k b : Nat) : Bool := decide (skipsBefore k b < skipsBefore k (b + 1))

/-- CAPPED and THROTTLE (R465, R468). -/
def Work.capped (w : Work) : Bool := decide (w.dev.power.capSkip ≠ 0)
def Work.throttled (w : Work) : Bool := w.dev.power.thermSkip.any (· != 0)

/-- Instances without a slot whose EMBED_BAG task names a paused table (R155, R179). -/
def Work.pauseWaits (w : Work) : Nat :=
  if w.dev.tblCtl.all (fun x => !bitOf x.2 31) then 0
  else
    (w.dev.insts.filter (fun i => i.slot.isNone && decide (i.lo < i.hi) && (match w.dev.graphs.find? (fun g => g.gid == i.gid) with
      | none => false
      | some g => match g.tasks[i.ti]? with
        | none => false
        | some t => bytesAt t.desc 0 1 == 2
            && bitOf (look 0 (w.rf pgEb .ebTables 13 0 (g.queue / 32) + bytesAt t.desc 64 2) w.dev.tblCtl) 31))).length

/-- A wait on a cell of class STALL that is not yet satisfied (R295, R297). -/
def Work.stalling (w : Work) (x : CellWait) : Bool :=
  x.wakeAt.isNone && bitOf (w.reg ⟨.sy, x.cluster⟩ .syCellWs (x.cell / 4)) (x.cell % 4 * 8 + 7)

/-- What is counted over n beats in which the time base went from t0 to t1: idle cores count 3 KCLK a beat (R436); beats of
ballast (R332), of stalls (R297), of starving instances (R263) and of paused tables (R185); in FULL, skipped die-beats and limited microseconds (R470, R481). -/
def Work.passCounts (w : Work) (n t0 t1 : Nat) : Work :=
  let w := w.each (List.range 8) (fun c w =>
    w.whenB (decide ((w.core c).running = none) && decide (w.dev.power.state ≠ .off)) (fun w => w.count ⟨.cc, c⟩ 4 (3 * n)))
  let w := w.whenB (w.dev.crier.ballasts.any Ballast.runs) (fun w => w.count pgCr 4 n)
  let w := w.count pgEb 5 (n * w.pauseWaits)
  let w := w.each ((w.dev.sync.cellWaits.filter w.stalling).map (·.at_)).eraseDups (fun c w => w.count ⟨.sy, c⟩ 2 n)
  let w := w.each w.dev.clusters (fun (c, cl) w =>
    w.count ⟨.hk, c⟩ 8 (n * (cl.starving.filter (fun k => w.dev.insts.any (fun i => i.iid == k && !i.stopOrdered && !i.ended))).length))
  let full : Bool := decide (w.dev.power.state = .full)
  let w := w.whenB full (fun w => w.each (List.range 4) (fun die w =>
    let k := w.skipOf die
    w.count pgPm 0 (skipsBefore k (t1 / 4) - skipsBefore k (t0 / 4))))
  let us := t1 / 1000 - t0 / 1000
  let w := w.whenB (full && w.capped) (fun w => w.count pgPm 1 us)
  w.whenB (full && w.throttled) (fun w => w.count pgPm 2 us)

/-- Nanoseconds by which n beats advance the time base: it runs once the root VCO has locked, and a held one loses a beat (R320). -/
def Dev.advance (d : Dev) (n : Nat) : Nat := if d.counting then 4 * (n - b2n d.crier.hold) else 0

/-- The beat count and the time base advance by n beats. -/
def Work.advanced (w : Work) (n : Nat) : Work :=
  w.upd (fun d => { d with beat := d.beat + n, time := (d.time + d.advance n) % 2 ^ 64, crier := { d.crier with hold := false } })

/-- n beats pass: due switches complete, the beat count and the time base advance, and the counters of `passCounts` count. -/
def Work.pass (w : Work) (n : Nat) : Work :=
  if n = 0 then w
  else (w.settle.advanced n).passCounts n w.settle.dev.time (w.settle.dev.time + w.settle.dev.advance n)

/-- Beats pass until beat b (none when it has come). Log 4, DESIGN CHOICE: timed commands. -/
def Work.passTo (w : Work) (b : Nat) : Work := w.pass (b - w.dev.beat)

/-- Beats until the time base reads t or later; a held one loses a beat (R320). -/
def Work.beatsTo (w : Work) (t : Nat) : Nat :=
  if w.dev.counting ∧ w.dev.time < t then ceilDiv (t - w.dev.time) 4 + b2n w.dev.crier.hold else 0

/-- Time passes until the time base reads t. -/
def Work.passToTime (w : Work) (t : Nat) : Work := w.pass (w.beatsTo t)

/-! ### Device memory (R337 to R349) -/

/-- Where a device physical address leads: a cell's device-wide or SRAM-window address and its controller, the range of an
absent unit (R7, R338), or nowhere. -/
inductive PhysAt where
  | cell (key : Nat) (ctl : Page)
  | absent
  | unbacked
  deriving DecidableEq, Repr

/-- Capacity of a channel in bytes (R353). -/
def Work.ddBytes (w : Work) (c : Nat) : Nat := (w.reg ⟨.dd, c⟩ .hmCap).toNat * 4096

/-- R337 to R341. -/
def Work.phys (w : Work) (a : Nat) : PhysAt :=
  let v := w.variant
  let dies := v.dies
  if a < 0xC000000000 then
    let s := 3 * dies
    if a < s * Config.hbmUnits * 4096 then .cell a ⟨.hm, a / 4096 % s⟩ else .unbacked
  else if a < 0x10000000000 then
    let c := (a - 0xC000000000) / 0x400000
    if 216 ≤ c ∨ 0x300000 ≤ (a - 0xC000000000) % 0x400000 then .unbacked
    else if v.hasCluster c = false then .absent
    else .cell a ⟨.cf, c⟩
  else if a < 0x20000000000 then
    let q := (a - 0x10000000000) / 0x4000000000
    let o := (a - 0x10000000000) % 0x4000000000
    if dies ≤ q then .absent
    else if o < 3 * Config.hbmUnits * 4096 then
      let g := o / 4096
      let unit := 3 * q + g % 3
      .cell ((g / 3 * (3 * dies) + unit) * 4096 + o % 4096) ⟨.hm, unit⟩
    else .unbacked
  else if a < 0x40000000000 then .unbacked
  else if a < 0x80000000000 then
    if v.hasDdr = false then .absent
    else
      let o := a - 0x40000000000
      let n := 4 * dies
      let cap := (List.range n).foldl (fun s c => s + w.ddBytes c) 0
      if o < cap then .cell a ⟨.dd, o / 4096 % n⟩ else .unbacked
  else if a < 0xC0000000000 then
    let q := (a - 0x80000000000) / 0x10000000000
    let o := (a - 0x80000000000) % 0x10000000000
    if dies ≤ q ∨ v.hasDdr = false then .absent
    else
      let cap := (List.range 4).foldl (fun s c => s + w.ddBytes (4 * q + c)) 0
      if o < cap then
        let g := o / 4096
        let unit := 4 * q + g % 4
        .cell (0x40000000000 + (g / 4 * (4 * dies) + unit) * 4096 + o % 4096) ⟨.dd, unit⟩
      else .unbacked
  else .unbacked

/-- Who makes an access, as an error record names it (R345): task and cluster, or 0xFFFF_FFFF. -/
structure Reader where
  ctx : Option Nat := none
  obj : Nat := 0xFFFFFFFF
  who : Nat := 0xFFFFFFFF
  deriving DecidableEq, Repr

def isMemCtl (p : Page) : Bool := p.block == .hm || p.block == .dd

/-- R349: failed in service. -/
def Work.memFailed (w : Work) (ctl : Page) : Bool := isMemCtl ctl && w.rb ctl .hmStat 28

/-- A stack or channel fails in service: its status says so and ERR_MEM_FAILED is raised; it will not train again (R349). -/
def Work.failMem (w : Work) (ctl : Page) : Work :=
  ((w.setRf ctl .hmStat 28 28 1).upd (fun d => { d with broken := d.broken ++ [ctl] })).raise ctl .memFailed ⟨3, none, 0xFFFFFFFF, 0xFFFFFFFF, []⟩

/-- The uncorrectable granules a controller has seen within the last second, each read counted (log 116, DEDUCED). -/
def Dev.recentUe (d : Dev) (ctl : Page) : List Nat := (look [] ctl.base d.ueBeats).filter (fun b => decide (d.beat < b + 250000000))

/-- A controller has seen an uncorrectable granule; the 256th within one second fails it (R349). -/
def Work.noteUe (w : Work) (ctl : Page) : Work :=
  let l := w.dev.beat :: w.dev.recentUe ctl
  let w := w.upd (fun d => { d with ueBeats := put [] ctl.base l d.ueBeats })
  if 256 ≤ l.length then w.failMem ctl else w

/-- R345: a read or the scrubber meets an uncorrectable granule of HBM4E or DDR5. -/
def Work.raiseUe (w : Work) (ctl : Page) (key : Nat) (r : Reader) : Work :=
  let g := key / 64 * 64
  let w := w.setReg ctl .hmErrAddrLo (atBit (g % 2 ^ 32) 0)
  let w := w.setReg ctl .hmErrAddrHi (atBit 1 31 ||| atBit (g / 2 ^ 32 % 2 ^ 16) 0)
  ((w.count ctl 1).raise ctl .memUe ⟨1, r.ctx, r.obj, r.who, leBytes 8 g⟩).noteUe ctl

/-- R347: a corrected error in a controller. -/
def Work.correctedError (w : Work) (ctl : Page) : Work :=
  let w := w.count ctl 0
  if isMemCtl ctl then
    let sec := w.dev.time / 10 ^ 9
    let (s, n, told) := look (0, 0, false) ctl.base w.dev.ceCounts
    let n' := if s = sec then n + 1 else 1
    let told := told && decide (s = sec)
    let lim := w.rf ctl .hmCeLimit 15 0
    let tell := decide (lim ≠ 0) && decide (lim < n') && !told
    let w := w.upd (fun d => { d with ceCounts := put (0, 0, false) ctl.base (sec, n', told || tell) d.ceCounts })
    w.whenB tell (fun w => w.raise ctl .memCeRate ⟨1, none, 0xFFFFFFFF, 0xFFFFFFFF, []⟩)
  else w

def Work.poisonAt (w : Work) (host : Bool) (g : Nat) : Bool := w.mem.poisonAfter host g w.out
def Work.deadAt (w : Work) (g : Nat) : Bool := w.mem.deadAfter g w.out
def Work.byteOf (w : Work) (host : Bool) (a : Nat) : Byte := w.mem.byteAfter host a w.out
def Work.emit (w : Work) (ws : List Write) : Work := { w with out := ws ++ w.out }

/-- n bytes of cells with one poison mark. -/
def Work.cellBytes (w : Work) (host : Bool) (a n : Nat) (p : Bool) : List PByte :=
  (List.range n).map (fun i => (w.byteOf host (a + i), p))

/-- R345, R349: read bytes that lie in one granule, from cell address `key`. -/
def Work.readCells (w : Work) (ctl : Page) (key n : Nat) (r : Reader) : List PByte × Work :=
  let g := key / 64
  if w.memFailed ctl then (w.cellBytes false key n true, w)
  else if w.deadAt g then
    let l := w.cellBytes false key n true
    if isMemCtl ctl then (l, w.raiseUe ctl key r)
    else
      let w := w.count ctl 1
      let w := w.raise ctl .sramUe ⟨1, r.ctx, r.obj, r.who, leBytes 8 (g * 64)⟩
      (l, w.emit [.dead g false, .poison false g true])
  else (w.cellBytes false key n (w.poisonAt false g), w)

/-- R345, R349, R52: write bytes that lie in one granule. -/
def Work.writeCells (w : Work) (ctl : Page) (key : Nat) (l : List PByte) : Work :=
  let g := key / 64
  if w.memFailed ctl then w
  else
    let pois := l.any (·.2)
    let stays := (w.poisonAt false g || w.deadAt g) && l.length < 64
    let w := w.whenB (pois && isMemCtl ctl) (fun w => w.count ctl 2)
    let bs := (List.range l.length).map (fun i => Write.byte false (key + i) (l.getD i (0, false)).1)
    w.emit ([.dead g false, .poison false g (pois || stays)] ++ bs)

/-- The parts of [a, a + n) that lie in one aligned block of size m: address and length. -/
def splitBy (m a n : Nat) : List (Nat × Nat) :=
  if n = 0 then []
  else
    (List.range ((a + n - 1) / m - a / m + 1)).map (fun i =>
      let lo := max a ((a / m + i) * m)
      let hi := min (a + n) ((a / m + i + 1) * m)
      (lo, hi - lo))

/-- Granules of 64 bytes that a transfer of some pieces touches. -/
def granuleCount (ps : List (Nat × Nat)) : Nat := (ps.map (fun (a, n) => (splitBy 64 a n).length)).sum

/-- R41: bytes charged for one transfer, of whatever pieces. -/
def chargedBytes (ps : List (Nat × Nat)) : Nat :=
  if granuleCount ps = 0 then 0 else max 256 (64 * granuleCount ps)

/-- The granules of some pieces, counted in the controllers that serve them. `k`: 4 read, 5 written. -/
def Work.chargeGranules (w : Work) (k : Nat) (ps : List (Nat × Nat)) : Work :=
  w.each (ps.flatMap (fun (a, n) => splitBy 4096 a n)) (fun (lo, len) w =>
    match w.phys lo with
    | .cell _ ctl => w.whenB (isMemCtl ctl) (fun w => w.count ctl k (64 * (splitBy 64 lo len).length))
    | _ => w)

/-- What the floor of 256 B adds to a transfer, counted where it begins (log 93, DESIGN CHOICE). -/
def Work.chargeFloor (w : Work) (k : Nat) (ps : List (Nat × Nat)) : Work :=
  w.each (ps.take 1) (fun (lo, _) w =>
    match w.phys lo with
    | .cell _ ctl => w.whenB (isMemCtl ctl) (fun w => w.count ctl k (chargedBytes ps - 64 * granuleCount ps))
    | _ => w)

/-- R41: the bytes charged for one transfer, counted in the controllers that serve its granules. Log 93, DESIGN CHOICE: the charge floor over two controllers (R41). -/
def Work.charge (w : Work) (k : Nat) (ps : List (Nat × Nat)) : Work := (w.chargeGranules k ps).chargeFloor k ps

/-- Every granule of [a, a + n) is backed. -/
def Work.backed (w : Work) (a n : Nat) : Bool :=
  (splitBy 4096 a n).all (fun (lo, len) =>
    (match w.phys lo with
      | .cell _ _ => true
      | _ => false)
    && (match w.phys (lo + len - 1) with
      | .cell _ _ => true
      | _ => false))

/-- The bytes at a backed device physical address, as part of a transfer. -/
def Work.readPart (w : Work) (a n : Nat) (r : Reader) : List PByte × Work :=
  (splitBy 64 a n).foldl (fun (acc : List PByte × Work) (lo, len) =>
    match acc.2.phys lo with
    | .cell key ctl =>
      let (l, w) := acc.2.readCells ctl key len r
      (acc.1 ++ l, w)
    | _ => (acc.1 ++ List.replicate len (0, false), acc.2)) ([], w)

/-- Read n bytes at a backed device physical address. -/
def Work.readPhys (w : Work) (a n : Nat) (r : Reader) : List PByte × Work := (w.charge 4 [(a, n)]).readPart a n r

/-- Write bytes at a backed device physical address, as part of a transfer. -/
def Work.writePart (w : Work) (a : Nat) (l : List PByte) : Work :=
  w.each (splitBy 64 a l.length) (fun (lo, len) w =>
    match w.phys lo with
    | .cell key ctl => w.writeCells ctl key ((l.drop (lo - a)).take len)
    | _ => w)

/-- Write bytes at a backed device physical address. -/
def Work.writePhys (w : Work) (a : Nat) (l : List PByte) : Work := (w.charge 5 [(a, l.length)]).writePart a l

/-! ### Host memory (R50, R413, R416) -/

def Work.linkUp (w : Work) : Bool := w.rb pgPx .pxLink 31

/-- Read host memory: none when PCI Express does not complete the access (R416, R422). -/
def Work.readHost (w : Work) (a n : Nat) : Option (List PByte) × Work :=
  if w.linkUp = false then (none, w)
  else
    let l := (splitBy 64 a n).flatMap (fun (lo, len) => w.cellBytes true lo len (w.poisonAt true (lo / 64)))
    (some l, w.whenB (l.any (·.2)) (fun w => w.count pgPx 6))

/-- Write host memory: posted, lost while the link is down. A poisoned granule is written with the EP attribute. -/
def Work.writeHost (w : Work) (a : Nat) (l : List PByte) : Work :=
  if w.linkUp = false then w
  else w.each (splitBy 64 a l.length) (fun (lo, len) w =>
    let part := (l.drop (lo - a)).take len
    let stays := w.poisonAt true (lo / 64) && len < 64
    w.emit ([.poison true (lo / 64) (part.any (·.2) || stays)]
      ++ (List.range len).map (fun i => Write.byte true (lo + i) (part.getD i (0, false)).1)))

/-! ### Translation (R55 to R57) -/

/-- Where a virtual address leads. -/
inductive Target where
  | dev (a : Nat)
  | host (a : Nat)
  deriving DecidableEq, Repr

/-- A translation entry's fields (R56). -/
structure XEntry where
  w : Nat
  deriving DecidableEq, Repr

def XEntry.valid (e : XEntry) : Bool := fieldN e.w 63 63 == 1
def XEntry.perm (e : XEntry) (write : Bool) : Bool := if write then fieldN e.w 62 62 == 1 else fieldN e.w 61 61 == 1
def XEntry.leaf (e : XEntry) : Bool := fieldN e.w 60 60 == 1
def XEntry.tier (e : XEntry) : Nat := fieldN e.w 59 58
def XEntry.addr (e : XEntry) : Nat := fieldN e.w 47 12 * 4096
def XEntry.rsvd (e : XEntry) : Bool := fieldN e.w 57 48 != 0 || fieldN e.w 11 0 != 0 || decide (2 ≤ e.tier)

/-- A table entry as it stands: none when it lies at an unbacked address or is poisoned (R57). Walks are not charged (log 21, DEDUCED). -/
def Work.entryNow (w : Work) (a : Nat) (r : Reader) : Option Nat × Work :=
  match w.phys a with
  | .cell key ctl =>
    let (l, w) := w.readCells ctl key 8 r
    if l.any (·.2) then (none, w) else (some (pbNat l 0 8), w)
  | _ => (none, w)

/-- An entry joins those read since the last invalidation. -/
def holdEntry (v : Option Nat) (held : List Nat) : List Nat :=
  match v with
  | some x => if held.contains x then held else held ++ [x]
  | none => held

/-- The entry that a cached read uses: as it stands, or, where one read since the last invalidation differs, any of them, a free
choice (R58; log 21, DEDUCED). `held` lists those; `now` reads the entry. The flag: it was read. -/
def Work.cachedEntry (w : Work) (held : List Nat) (now : Work → Option Nat × Work) : (Option Nat × Bool) × Work :=
  let others := held.filter (fun x => (now w).1 != some x)
  if others = [] then (((now w).1, true), (now w).2)
  else
    let (x, w) := w.draw
    match others[x % (others.length + 1)]? with
    | some v => ((some v, false), w)
    | none => (((now w).1, true), (now w).2)

/-- Read a table entry of a context through the translations that the reader's cluster caches (R58). -/
def Work.readEntry (w : Work) (ctx a : Nat) (r : Reader) : Option XEntry × Work :=
  let key := (ctx * 2 ^ 32 + r.who) * 2 ^ 48 + a
  let held := look [] key w.dev.xheld
  let ((v, isNew), w) := w.cachedEntry held (fun w => w.entryNow a r)
  (v.map (⟨·⟩), w.whenB isNew (fun w => w.upd (fun d => { d with xheld := put [] key (holdEntry v held) d.xheld })))

/-- R55 to R57: translate one address of a context; none is a translation fault. -/
def Work.translate (w : Work) (ctx va : Nat) (write : Bool) (r : Reader) : Option Target × Work :=
  let lo := w.reg pgTt .ttXlateLo ctx
  if 2 ^ 44 ≤ va ∨ bitOf lo 0 = false then (none, w)
  else
    let l1 := fld lo 31 17 * 2 ^ 17 + w.rf pgTt .ttXlateHi 15 0 ctx * 2 ^ 32
    let (e1, w) := w.readEntry ctx (l1 + va / 2 ^ 30 * 8) r
    match e1 with
    | none => (none, w)
    | some e =>
      let bad := !e.valid || e.rsvd || !e.perm write
      if bad then (none, w)
      else if e.leaf then
        if e.addr % 2 ^ 30 ≠ 0 then (none, w)
        else (some (if e.tier = 0 then .dev (e.addr + va % 2 ^ 30) else .host (e.addr + va % 2 ^ 30)), w)
      else if e.tier ≠ 0 then (none, w)
      else
        let (e2, w) := w.readEntry ctx (e.addr + va / 2 ^ 21 % 512 * 8) r
        match e2 with
        | none => (none, w)
        | some f =>
          if !f.valid || f.rsvd || !f.perm write || !f.leaf || decide (f.addr % 2 ^ 21 ≠ 0) then (none, w)
          else (some (if f.tier = 0 then .dev (f.addr + va % 2 ^ 21) else .host (f.addr + va % 2 ^ 21)), w)

/-- Translate a range: its parts with their targets, all backed; or the address in the record's detail (R57). -/
def Work.translateRange (w : Work) (ctx va n : Nat) (write : Bool) (r : Reader) : Except Nat (List (Target × Nat × Nat)) × Work :=
  (splitBy (2 ^ 21) va n).foldl (fun (acc : Except Nat (List (Target × Nat × Nat)) × Work) (lo, len) =>
    match acc with
    | (.error e, w) => (.error e, w)
    | (.ok l, w) =>
      let (t, w) := w.translate ctx lo write r
      match t with
      | none => (.error lo, w)
      | some (.dev a) => if w.backed a len then (.ok (l ++ [(.dev a, lo, len)]), w) else (.error lo, w)
      | some (.host a) => (.ok (l ++ [(.host a, lo, len)]), w)) (.ok [], w)

/-- The device pieces of a translated range: one transfer, wherever its pages map (R41). -/
def devParts (ps : List (Target × Nat × Nat)) : List (Nat × Nat) :=
  ps.filterMap (fun (t, _, n) => match t with
    | .dev a => some (a, n)
    | .host _ => none)

/-- Read the parts of a translated range: the bytes, or the host address that PCI Express does not complete (R416). -/
def Work.readTargets (w : Work) (ps : List (Target × Nat × Nat)) (r : Reader) : Except Nat (List PByte) × Work :=
  ps.foldl (fun (acc : Except Nat (List PByte) × Work) (t, _, len) =>
    match acc with
    | (.error e, w) => (.error e, w)
    | (.ok l, w) =>
      match t with
      | .dev a =>
        let (x, w) := w.readPart a len r
        (.ok (l ++ x), w)
      | .host a =>
        match w.readHost a len with
        | (none, w) => (.error a, w)
        | (some x, w) => (.ok (l ++ x), w)) (.ok [], w)

/-- Read device virtual memory of a context: the bytes, or the address the ERR_XLATE record names (R57, R416). -/
def Work.readVa (w : Work) (ctx va n : Nat) (r : Reader) : Except Nat (List PByte) × Work :=
  match w.translateRange ctx va n false r with
  | (.error e, w) => (.error e, w)
  | (.ok ps, w) => (w.charge 4 (devParts ps)).readTargets ps r

/-- A later part of a transfer: the granule it shares with the part before it has been charged (R41, R259). -/
def laterPart (va n : Nat) : Nat × Nat := (roundUp va 64, n - (roundUp va 64 - va))

/-- The device parts of a later part of a transfer that are charged with it. -/
def laterTargets (va n : Nat) (ps : List (Target × Nat × Nat)) : List (Nat × Nat) :=
  let (a, len) := laterPart va n
  if len = 0 then []
  else devParts (ps.map (fun (t, lo, m) => match t with
    | .dev x => (.dev (x + (a - lo)), lo + (a - lo), m - (a - lo))
    | .host x => (.host x, lo, m)))

/-- Charge and read what a read-modify-write then writes: reached with WRITE permission (R381). -/
def Work.readToWrite (w : Work) (ctx va n : Nat) (r : Reader) : Except Nat (List PByte) × Work :=
  match w.translateRange ctx va n true r with
  | (.error e, w) => (.error e, w)
  | (.ok ps, w) => (w.charge 4 (devParts ps)).readTargets ps r

/-- Charge and read a later part of a transfer. -/
def Work.readLater (w : Work) (ctx va n : Nat) (r : Reader) : Except Nat (List PByte) × Work :=
  match w.translateRange ctx va n false r with
  | (.error e, w) => (.error e, w)
  | (.ok ps, w) => (w.chargeGranules 4 (laterTargets va n ps)).readTargets ps r

/-- Write bytes at translated parts of a range that begins at `va`. -/
def Work.writeTargets (w : Work) (ps : List (Target × Nat × Nat)) (va : Nat) (l : List PByte) : Work :=
  w.each ps (fun (t, lo, len) w =>
    let part := (l.drop (lo - va)).take len
    match t with
    | .dev a => w.writePart a part
    | .host a => w.writeHost a part)

/-- Write device virtual memory: nothing is written when some part does not translate. -/
def Work.writeVa (w : Work) (ctx va : Nat) (l : List PByte) (r : Reader) : Except Nat Unit × Work :=
  match w.translateRange ctx va l.length true r with
  | (.error e, w) => (.error e, w)
  | (.ok ps, w) =>
    (.ok (), (w.charge 5 (devParts ps)).writeTargets ps va l)

/-- Write a part of a transfer that is written piece by piece: its granules are charged as they are begun (R41). -/
def Work.writePiece (w : Work) (ctx va : Nat) (l : List PByte) (first : Bool) (r : Reader) : Except Nat Unit × Work :=
  match w.translateRange ctx va l.length true r with
  | (.error e, w) => (.error e, w)
  | (.ok ps, w) =>
    (.ok (), (w.chargeGranules 5 (if first then devParts ps else laterTargets va l.length ps)).writeTargets ps va l)

/-- The byte that an address holds now; 0 where it leads nowhere. -/
def Work.byteNow (w : Work) (ctx va : Nat) (r : Reader) : Byte :=
  match (w.translateRange ctx va 1 true r).1 with
  | .ok ((.dev a, _, _) :: _) =>
    match w.phys a with
    | .cell key _ => w.byteOf false key
    | _ => 0
  | .ok ((.host a, _, _) :: _) => w.byteOf true a
  | _ => 0

/-- Poisoned 64-byte granules of a string read or written at an address (R52). -/
def poisonGranules (va : Nat) (l : List PByte) : Nat :=
  ((splitBy 64 va l.length).filter (fun (lo, len) => ((l.drop (lo - va)).take len).any (·.2))).length

end Sys2Proof.Machine
end

