-- ==== Sys2Proof/Machine/Lookup.lean ====
section
/-! DEFINITION. Reading the structures: task descriptors (R62), pitches and the torus (R73, R75), waiter codes (R298), and
finding graphs, tasks, instances and clusters. -/

namespace Sys2Proof.Machine

/-! ### Task descriptors (R62) -/

def descField (b : List Byte) (off n : Nat) : Nat := bytesAt b off n
def Task.f (t : Task) (off n : Nat) : Nat := bytesAt t.desc off n
def Task.flag (t : Task) (k : Nat) : Bool := t.f 1 1 / 2 ^ k % 2 == 1
def Task.kind (t : Task) : Option Kind := kindOf (t.f 0 1)
def Task.timed (t : Task) : Bool := t.flag 0
def Task.noStagger (t : Task) : Bool := t.flag 1
def Task.lateFail (t : Task) : Bool := t.flag 2
def Task.waitEn (t : Task) : Bool := t.flag 3
def Task.signalEn (t : Task) : Bool := t.flag 4
def Task.pitch (t : Task) : Nat := t.f 2 1
def Task.one (t : Task) : Bool := t.f 3 1 % 2 == 1
def Task.prio (t : Task) : Nat := fieldN (t.f 3 1) 3 1
def Task.launchTime (t : Task) : Nat := roundUp (t.f 8 8) 4
def Task.waitObj (t : Task) : Nat := t.f 16 4
def Task.waitValue (t : Task) : Nat := t.f 20 4
def Task.signalObj (t : Task) : Nat := t.f 24 4
def Task.signalAdd (t : Task) : Nat := t.f 28 4
def Task.landing (t : Task) : Nat := t.f 32 2
def Task.opcache (t : Task) : Nat := t.f 34 2
def Task.timeoutUs (t : Task) : Nat := t.f 36 4
def Task.cells (t : Task) : Nat := t.f 40 6

/-- Sync cell IDs (R279). -/
def isCellId (id : Nat) : Bool := decide (0xF0000 ≤ id)
def cellSelf (id : Nat) : Bool := fieldN id 15 15 == 1
def cellX (id : Nat) : Nat := fieldN id 14 10
def cellY (id : Nat) : Nat := fieldN id 9 6
def cellNo (id : Nat) : Nat := fieldN id 5 0

/-- The task waits on, or signals, a sync object of its context. -/
def Task.waitsObject (t : Task) : Bool := t.waitEn && !isCellId t.waitObj
def Task.waitsCell (t : Task) : Bool := t.waitEn && isCellId t.waitObj
def Task.signalsObject (t : Task) : Bool := t.signalEn && !isCellId t.signalObj
def Task.signalsCell (t : Task) : Bool := t.signalEn && isCellId t.signalObj

/-- A task that runs in clusters has instances; SIGNAL and COLLECTIVE have none (R62, R68). -/
def Task.hasInstances (t : Task) : Bool := t.kind ≠ some .signal && t.kind ≠ some .collective

/-! ### Finding -/

def Graph.ctx (g : Graph) : Nat := g.queue / 32
def Dev.graph? (d : Dev) (gid : Nat) : Option Graph := d.graphs.find? (fun g => g.gid == gid)
def Dev.task? (d : Dev) (gid ti : Nat) : Option Task := (d.graph? gid).bind (fun g => g.tasks[ti]?)
/-- Graphs with those of saved contexts: a running collective and a signal on its way go on while a context is saved (R78). -/
def Dev.anyGraph? (d : Dev) (gid : Nat) : Option Graph := (d.graphs ++ d.saved).find? (fun g => g.gid == gid)
def Dev.anyTask? (d : Dev) (gid ti : Nat) : Option Task := (d.anyGraph? gid).bind (fun g => g.tasks[ti]?)
def Dev.inst? (d : Dev) (iid : Nat) : Option Inst := d.insts.find? (fun i => i.iid == iid)

/-- The instance resident in a slot of a cluster (slots 8 to 15: lanes). -/
def Dev.instIn? (d : Dev) (c s : Nat) : Option Inst := d.insts.find? (fun i => i.cluster == c && i.slot == some s)
def Dev.resident (d : Dev) (c : Nat) : List Inst := d.insts.filter (fun i => i.cluster == c && i.slot.isSome)

def Work.setGraph (w : Work) (gid : Nat) (f : Graph → Graph) : Work :=
  w.upd (fun d => { d with
    graphs := updFirst (fun g => g.gid == gid) f d.graphs, saved := updFirst (fun g => g.gid == gid) f d.saved })
def Work.setTask (w : Work) (gid ti : Nat) (f : Task → Task) : Work :=
  w.setGraph gid (fun g => { g with tasks := updAt f ti g.tasks })
def Work.setInst (w : Work) (iid : Nat) (f : Inst → Inst) : Work :=
  w.upd (fun d => { d with insts := updFirst (fun i => i.iid == iid) f d.insts })
def Work.dropInst (w : Work) (iid : Nat) : Work := w.upd (fun d => { d with insts := d.insts.filter (fun i => i.iid != iid) })

def Work.cluster (w : Work) (c : Nat) : Cluster := look .empty c w.dev.clusters
def Work.setCluster (w : Work) (c : Nat) (f : Cluster → Cluster) : Work :=
  w.upd (fun d => { d with clusters := put .empty c (f (look .empty c d.clusters)) d.clusters })

/-- Generation of a slot (R264). -/
def Work.gen (w : Work) (c s : Nat) : Word := look 0 s (w.cluster c).gens
def Work.bumpGen (w : Work) (c s : Nat) : Work :=
  w.setCluster c (fun cl => { cl with gens := put 0 s (look 0 s cl.gens + 1) cl.gens })

def Inst.task? (i : Inst) (d : Dev) : Option Task := d.task? i.gid i.ti
def Inst.isLane (i : Inst) : Bool := match i.slot with
  | some s => decide (8 ≤ s)
  | none => false

/-- Context of a graph. -/
def Dev.ctxOf (d : Dev) (gid : Nat) : Nat := ((d.anyGraph? gid).map Graph.ctx).getD 0

/-! ### Waiter codes (R298) -/

def codeTask (queue ti : Nat) : Nat := queue % 1024 * 2 ^ 20 + ti % 4096
def codeInst (slot c : Nat) : Nat := 0x40000000 + slot % 8 * 256 + c
def codeSlot (s : Nat) : Nat := 0x80000000 + s
def codeNone : Nat := 0xFFFFFFFF

def Dev.codeOf (d : Dev) (gid ti : Nat) : Nat :=
  match d.anyGraph? gid with
  | some g => codeTask g.queue ti
  | none => codeNone

/-- Reader of an instance (R345): its task, its cluster, its context. -/
def Inst.reader (i : Inst) (d : Dev) : Reader := ⟨some (d.ctxOf i.gid), d.codeOf i.gid i.ti, i.cluster⟩

/-! ### Pitches (R73) -/

/-- A valid pitch. -/
structure Pitch where
  index : Nat
  isolate : Bool
  owner : Nat
  loc : Nat
  x0 : Nat
  y0 : Nat
  wd : Nat
  ht : Nat
  deriving DecidableEq, Repr

/-- The pitch a TT_PITCH value describes. -/
def pitchOfWord (n : Nat) (v : Word) : Option Pitch :=
  if bitOf v 31 then some ⟨n, bitOf v 30, fld v 29 25, fld v 24 20, fld v 19 15, fld v 14 11, fld v 10 6, fld v 5 2⟩ else none

/-- The cluster at an offset in a pitch. -/
def Pitch.at (p : Pitch) (rx ry : Nat) : Nat := (p.y0 + ry) % 12 * 18 + (p.x0 + rx) % 18

/-- Clusters of a pitch, row-major in relative position. -/
def Pitch.clusters (p : Pitch) : List Nat :=
  (List.range p.ht).flatMap (fun ry => (List.range p.wd).map (fun rx => p.at rx ry))

def Pitch.holds (p : Pitch) (c : Nat) : Bool :=
  decide ((c % 18 + 18 - p.x0) % 18 < p.wd) && decide ((c / 18 + 12 - p.y0) % 12 < p.ht)

/-- Row-major relative position of a cluster in its pitch. -/
def Pitch.rel (p : Pitch) (c : Nat) : Nat := (c / 18 + 12 - p.y0) % 12 * p.wd + (c % 18 + 18 - p.x0) % 18

def Work.pitches (w : Work) : List Pitch := (List.range 32).filterMap (fun n => pitchOfWord n (w.reg pgTt .ttPitch n))
def Work.pitchAt (w : Work) (c : Nat) : Option Pitch := w.pitches.find? (fun p => p.holds c)
def Work.pitchFor (w : Work) (ctx loc : Nat) : Option Pitch := w.pitches.find? (fun p => p.owner == ctx && p.loc == loc)

/-- The pitch a task runs on. -/
def Work.pitchOfTask (w : Work) (gid : Nat) (t : Task) : Option Pitch := w.pitchFor (w.dev.ctxOf gid) t.pitch

/-! ### Routes (R75) -/

/-- Steps along a ring of n positions that hold `len` of them from `start`: the positions passed from a to b, both included. -/
def ringPath (n a b start len : Nat) : List Nat :=
  let fwd := (b + n - a) % n
  let bwd := (a + n - b) % n
  let pos : Bool :=
    if len = n then decide (fwd ≤ bwd)
    else decide ((a + n - start) % n ≤ (b + n - start) % n)
  if pos then (List.range (fwd + 1)).map (fun i => (a + i) % n)
  else (List.range (bwd + 1)).map (fun i => (a + n - i) % n)

/-- Positions of the X ring of a row and of the Y ring of a column: on SVX-72A the rings stop short of Q3. -/
def ringX (v : Variant) (y : Nat) : Nat := if v.dies = 3 ∧ 6 ≤ y then 9 else 18
def ringY (v : Variant) (x : Nat) : Nat := if v.dies = 3 ∧ 9 ≤ x then 6 else 12

/-- Route between two clusters of one pitch, X first and then Y: the clusters whose routers it passes. -/
def Pitch.route (v : Variant) (p : Pitch) (a b : Nat) : List Nat :=
  let xs := ringPath (ringX v (a / 18)) (a % 18) (b % 18) p.x0 p.wd
  let ys := ringPath (ringY v (b % 18)) (a / 18) (b / 18) p.y0 p.ht
  xs.map (fun x => a / 18 * 18 + x) ++ (ys.drop 1).map (fun y => y * 18 + b % 18)

/-- Hop count of the route (R296). -/
def Pitch.hops (v : Variant) (p : Pitch) (a b : Nat) : Nat := (p.route v a b).length - 1

/-- Egress of a cluster: along column x, within its die, to row 5 (Q0, Q1) or row 6 (Q2, Q3). -/
def egress (c : Nat) : List Nat :=
  let x := c % 18
  let y := c / 18
  if y < 6 then (List.range (6 - y)).map (fun i => (y + i) * 18 + x) else (List.range (y - 5)).map (fun i => (y - i) * 18 + x)

/-- Whether a cluster's context and pitch ownership lets a function write its pages. -/
def Work.ownerOf (w : Work) (c : Nat) : Option Nat := (w.pitchAt c).map (·.owner)

/-! ### Skipped beats (R469, R470) -/

/-- The launch beat of a cluster under the most recent timed launch, when it holds an instance of a launched task (R329). -/
def Work.launchBeatOf (w : Work) (c : Nat) : Option Nat :=
  let here : Bool := (w.dev.resident c).any (fun i => match i.task? w.dev with
    | some t => t.timed && t.launched
    | none => false)
  if here then
    let l := (w.reg pgCr .crLaunchLo).toNat + (w.reg pgCr .crLaunchHi).toNat * 2 ^ 32
    some (l / 4 + (c % 18 + 2 * (c / 18)) % (w.rf pgCr .crLaunchInfo 20 16 + 1))
  else none

/-- Beat b of the time base is skipped in a cluster: never its launch beat, whose skip moves to the next beat (R470). -/
def Work.skippedIn (w : Work) (c b : Nat) : Bool :=
  let k := w.skipOf (dieOfCluster c)
  match w.launchBeatOf c with
  | some l => decide (b ≠ l) && (skipped k b || (decide (b = l + 1) && skipped k l))
  | none => skipped k b

/-- A cluster engine's step waits out skipped beats: with a level of at most 56, at most 8 in a row. Log 55, DEDUCED: skipped beats (R469, R470). -/
def Work.stepBeat (w : Work) (c : Nat) : Work :=
  let b := w.dev.time / 4
  w.pass (((List.range 10).find? (fun i => !w.skippedIn c (b + i))).getD 0)

end Sys2Proof.Machine
end

