-- ==== Sys2Proof/Machine/Fabric.lean ====
section
/-! DEFINITION. Sending to other devices: routes and reachability (R373), packets (R360, R361), flits, credits and the replay
buffer (R357, R358, R362, R363), posted-write numbers (R301, R364). -/

namespace Sys2Proof.Machine

def Work.port (w : Work) (p : Nat) : Port := w.dev.ports.getD p .reset
def Work.setPort (w : Work) (p : Nat) (f : Port → Port) : Work := w.upd (fun d => { d with ports := updAt f p d.ports })

/-- A port whose links carry flits. -/
def PortState.open : PortState → Bool
  | .up | .degraded | .quarantined => true
  | _ => false

def PortState.carries : PortState → Bool
  | .up | .degraded => true
  | _ => false

/-- A port that carries all classes (R366). -/
def Work.portUp (w : Work) (p : Nat) : Bool := (w.port p).state.carries

def featTime : Nat := 0
def featMcast : Nat := 2
def featFence : Nat := 3
def featAbort : Nat := 4
def Port.has (p : Port) (feature : Nat) : Bool := p.features / 2 ^ feature % 2 == 1

/-- The partner offers time: TIME is negotiated, or its HELLO set TIME_RELAY (R323, R325). -/
def Port.keepsTime (p : Port) : Bool := p.has featTime || p.offers / 2 % 2 == 1

/-- The partner may be the upstream of a LINK device: an S96, an S40, or a switch that offers time relay (R323). -/
def Port.mayLead (p : Port) : Bool :=
  p.state.carries && (if (p.links.head?.map (·.partnerKind)) = some 3 then p.offers / 2 % 2 == 1 else p.keepsTime)

/-- The port of packets to this device itself. -/
def loopPort : Nat := 16

/-- The route of a device ID: a later range overrides an earlier one, and the device's own ID routes to itself (R373). -/
def Dev.route (d : Dev) (dst : Nat) : Option Nat :=
  if dst = d.exch.device then some loopPort
  else ((d.exch.routes.filter (fun r => decide (r.1 ≤ dst) && decide (dst ≤ r.2.1))).getLast?).map (fun r => r.2.2)

/-- Why a send is unreachable (R373): 0 port lost, 1 no route, 2 quarantined, 3 feature. -/
def Work.reach (w : Work) (dst : Nat) (feature : Option Nat) : Except Nat Nat :=
  match w.dev.route dst with
  | none => .error 1
  | some p =>
    match (w.port p).state with
    | .up | .degraded =>
      match feature with
      | some f => if (w.port p).has f then .ok p else .error 3
      | none => .ok p
    | .quarantined => .error 2
    | _ => .error 0

/-- Class of a packet type (R362). -/
def classOf (ptype : Nat) : Option Nat :=
  match ptype with
  | 1 => some 3 | 2 => some 1 | 3 => some 2 | 4 => some 4 | 5 => some 5 | 6 => some 5 | 7 => some 3 | 8 => some 5
  | 10 => some 0
  | _ => none

/-- Pad to a whole number of bytes m. -/
def padTo (m : Nat) (b : List Byte) : List Byte := b ++ List.replicate (roundUp b.length m - b.length) 0

/-- A packet: common header, bytes 8 to 15, bytes 16 to 31 where the type has them, data (R360, R361). -/
def mkPacket (ptype poisonMap ctx dst src : Nat) (b8 : List Byte) (b16 : Option (List Byte)) (data : List Byte) : List Byte :=
  let d := padTo 16 data
  leBytes 1 ptype ++ leBytes 1 poisonMap ++ leBytes 1 (d.length / 16) ++ leBytes 1 ctx ++ leBytes 2 dst ++ leBytes 2 src
    ++ (b8 ++ List.replicate (8 - b8.length) 0)
    ++ (match b16 with
      | some x => x ++ List.replicate (16 - x.length) 0
      | none => [])
    ++ d

/-- Live member links of a port. -/
def Port.live (p : Port) : List PLink := p.links.filter (fun l => l.state == .live)

/-- The state that the member links give a port: an open one narrows when one of them has failed, and one that trains is DOWN again when
none of them is live or may still become so (R366; log 118, DEDUCED). -/
def Port.settled (q : Port) : Port :=
  match q.state with
  | .up | .degraded => if q.live = [] then q else { q with state := if q.links.any (fun l => l.state == .failed) then .degraded else .up }
  | .training => if q.links.any (fun l => l.state == .live || (l.state == .down && !l.helloSeen)) then q else { q with state := .down }
  | _ => q

/-! ### Flits (R357, R358) -/

/-- CRC-64 with the ECMA-182 polynomial, most significant bit first, from 0 (log 32, PRESUMED). -/
def crcByte (c : Nat) (b : Byte) : Nat :=
  (List.range 8).foldl (fun c _ =>
    if 2 ^ 63 ≤ c then Nat.xor (c * 2 % 2 ^ 64) 0x42F0E1EBA9EA3693 else c * 2) (Nat.xor c (b.toNat * 2 ^ 56))
def crc64 (l : List Byte) : Nat := l.foldl crcByte 0

/-- A flit: FSEQ, ACK, FTYPE, credit returned, slots, CRC. -/
def mkFlit (fseq ack ftype cls credit : Nat) (slots : List Byte) : List Byte :=
  let body := leBytes 2 fseq ++ leBytes 2 ack ++ leBytes 1 ftype ++ leBytes 1 cls ++ leBytes 2 credit ++ padTo 240 slots
  body ++ leBytes 8 (crc64 body)

/-- The next class in rotation that has credit to return, and how much of it a flit can carry (R363). -/
def Port.creditNext (q : Port) : Nat × Nat :=
  match (List.range 6).find? (fun k => decide (q.owed.getD ((q.crNext + k) % 6) 0 ≠ 0)) with
  | some k => ((q.crNext + k) % 6, min 65535 (q.owed.getD ((q.crNext + k) % 6) 0))
  | none => (q.crNext % 6, 0)

/-- The ACK that a flit of this port carries: the last FSEQ that was delivered (R357). -/
def Port.ackNow (q : Port) : Nat := (q.rxNext + 65535) % 65536

/-- Send one flit on a live link, with the current ACK and the next credit. -/
def Work.sendFlit (w : Work) (p link fseq ftype : Nat) (slots : List Byte) : Work :=
  let q := w.port p
  let (cls, n) := q.creditNext
  let w := w.setPort p (fun q => { q with ackSent := q.ackNow, owed := updAt (fun c => c - n) cls q.owed, crNext := if n = 0 then q.crNext else (cls + 1) % 6 })
  w.say (.flit p link (mkFlit fseq q.ackNow ftype cls n slots))

/-- The live link whose turn it is (R365). -/
def Port.turnLink (q : Port) : Nat := ((q.live.map (·.num)).getD (q.rotate % max 1 q.live.length) 0)

/-- An IDLE flit, with the next FSEQ, on a port that has an acknowledgement or credit to return and nothing else to send. IDLE flits that
bring nothing new are not shown (R357; log 119, DESIGN CHOICE). -/
def Work.idleFlit (w : Work) (p : Nat) : Work :=
  let q := w.port p
  if q.state.open ∧ q.live ≠ [] ∧ (q.ackSent ≠ q.ackNow ∨ q.owed.any (· != 0) = true) then w.sendFlit p q.turnLink q.fseq 0 [] else w
def Work.idleFlits (w : Work) : Work := w.each (List.range 16) (fun p w => w.idleFlit p)

/-- Transmit a packet's slots in DATA flits: each takes the next FSEQ and stays in the replay buffer (R358). A packet begins a
flit of its own (log 25, DESIGN CHOICE). -/
def Work.transmit (w : Work) (p : Nat) (bytes : List Byte) : Work :=
  let cls := (classOf (byteAt bytes 0)).getD 5
  let n := bytes.length / 16
  let w := w.setPort p (fun q => { q with credits := updAt (fun c => c - n) cls q.credits })
  let w := w.each (chunksOf 240 bytes) (fun ch w =>
    let q := w.port p
    let link := q.turnLink
    let w := w.setPort p (fun q => { q with
      fseq := (q.fseq + 1) % 65536, rotate := q.rotate + 1, replay := q.replay ++ [⟨q.fseq, link, padTo 240 ch, w.dev.beat⟩] })
    (w.count ⟨.tp, p⟩ 0).sendFlit p link q.fseq 1 ch)
  w.say (.packet p bytes)

/-- Room for a packet: credit of its class, and of the 4,096 flits of the replay buffer (R358, R363). -/
def Port.room (q : Port) (bytes : List Byte) : Bool :=
  decide (bytes.length / 16 ≤ q.credits.getD ((classOf (byteAt bytes 0)).getD 5) 0)
    && decide (q.replay.length + ceilDiv bytes.length 240 ≤ 4096)

/-- Send a packet through a port: at once, or in its class's turn once there is credit and room. -/
def Work.sendPacket (w : Work) (p : Nat) (bytes : List Byte) : Work :=
  let q := w.port p
  let cls := classOf (byteAt bytes 0)
  if p = loopPort then w.say (.packet p bytes)
  else if q.queued.any (fun b => classOf (byteAt b 0) == cls) ∨ q.room bytes = false then
    w.setPort p (fun q => { q with queued := q.queued ++ [bytes] })
  else w.transmit p bytes

/-- Packets waiting in a port go out in order within their class, as credit and room allow (R363). -/
def Work.drainQueue (w : Work) (p : Nat) : Work :=
  let waiting := (w.port p).queued
  let w := w.setPort p (fun q => { q with queued := [] })
  w.each waiting (fun b w => w.sendPacket p b)

/-- The next posted-write number for a destination (R301, R364). -/
def Work.nextPw (w : Work) (p dst : Nat) : Nat × Work :=
  let n := (look 0 dst (w.port p).pwtx + 1 : Word)
  (n.toNat, w.setPort p (fun q => { q with pwtx := put 0 dst n q.pwtx }))

/-- This device's ID (R372). -/
def Work.self (w : Work) : Nat := w.dev.exch.device

/-- A SIGNAL packet (R361). A fenced one carries the number of the last posted write; one that travels unfenced carries 0. -/
def Work.sendSignal (w : Work) (p rctx dst rid op n : Nat) (fenced : Bool) (extra : List Byte) : Work :=
  let f := fenced && (w.port p).has featFence
  let fence := if f then (look 0 dst (w.port p).pwtx).toNat else 0
  w.sendPacket p (mkPacket 4 0 rctx dst w.self
    (leBytes 4 (rid % 2 ^ 20 + op * 2 ^ 24 + b2n f * 2 ^ 31) ++ leBytes 2 n) (some (leBytes 4 fence ++ extra)) [])

/-- A TIME packet (R323, R361). -/
def Work.sendTime (w : Work) (p : Nat) (reply : Bool) (echoRx echoTx : Nat) : Work :=
  let unl : Bool := w.rb pgCr .crStatus 28
  let partner := ((w.port p).links.head?.map (·.partnerDevice)).getD 0
  w.sendPacket p (mkPacket 5 0 0 partner w.self
    (leBytes 1 (b2n reply + 2 * b2n unl) ++ leBytes 5 (w.dev.time % 2 ^ 40) ++ leBytes 2 (w.rf pgEx .exFabricGen 15 0))
    (some (leBytes 5 echoRx ++ leBytes 5 echoTx)) [])

/-- An ABORT packet (R361, R382). -/
def Work.sendAbort (w : Work) (dst group gen code origin : Nat) : Work :=
  match w.reach dst (some featAbort) with
  | .ok p => (w.count pgEx 4).sendPacket p
      (mkPacket 6 0 0 dst w.self (leBytes 2 group ++ leBytes 2 gen ++ leBytes 2 code ++ leBytes 2 origin) none [])
  | .error _ => w

end Sys2Proof.Machine
end

