-- ==== Sys2Proof/Machine/Tasks.lean ====
section
/-! DEFINITION. The life of a task: release conditions (R67), ends and what follows from them (R68, R69, R287), cancellation
(R70), and the hubs of an instance that stops (R142). -/

namespace Sys2Proof.Machine

/-! ### Dependences (R61, R67) -/

/-- Hard predecessors: a repeated edge is hard if any of its entries is (R61). -/
def Graph.hard (g : Graph) (ti : Nat) : List Nat := (g.edges.filter (fun e => e.dst == ti && !e.soft)).map (·.src)
def Graph.softs (g : Graph) (ti : Nat) : List Nat :=
  ((g.edges.filter (fun e => e.dst == ti && e.soft)).map (·.src)).filter (fun s => !(g.hard ti).contains s)
def Graph.stateOf (g : Graph) (ti : Nat) : TaskState := ((g.tasks[ti]?).map (·.state)).getD .done
def Graph.softDone (g : Graph) (ti : Nat) : Bool := (g.softs ti).all (fun s => g.stateOf s == .done)

/-- R69: no task is WAITING, PRIMED, RELEASED, ACTIVE or DRAINING. -/
def Graph.ended (g : Graph) : Bool := g.tasks.all (fun t => !t.state.live)

/-- R59, ORDERED: the queue's last admitted graph has ended. -/
def Dev.graphOver (d : Dev) (gid : Nat) : Bool :=
  match (d.graphs ++ d.saved).find? (fun g => g.gid == gid) with
  | some g => g.ended
  | none => true

/-- The release conditions of R67 but for the wait on an object. -/
def Dev.edgesMet (d : Dev) (g : Graph) (ti : Nat) : Bool :=
  g.valid && (g.hard ti).all (fun s => g.stateOf s == .done)
    && (g.softs ti).all (fun s => g.stateOf s == .done || g.stateOf s == .draining)
    && (match g.afterGraph with
      | some a => d.graphOver a
      | none => true)

/-- Every condition of R67; a SIGNAL task also waits for its soft predecessors to be DONE (R62). -/
def Dev.conds (d : Dev) (g : Graph) (ti : Nat) (t : Task) : Bool :=
  d.edgesMet g ti && (!t.waitsObject || t.waitMet) && (t.kind != some .signal || g.softDone ti)

/-- Note the beat on which a task's conditions became met. -/
def Dev.recheckTask (d : Dev) (g : Graph) (ti : Nat) (t : Task) : Task :=
  let t := if t.state = .waiting ∧ t.metAt.isNone ∧ d.conds g ti t = true then { t with metAt := some d.beat } else t
  if t.state = .primed ∧ t.softAt.isNone ∧ g.softDone ti = true then { t with softAt := some d.beat } else t

def Dev.recheckAll (d : Dev) : Dev :=
  { d with graphs := d.graphs.map (fun g => { g with tasks := g.tasks.mapIdx (fun ti t => d.recheckTask g ti t) }) }

def Work.recheck (w : Work) : Work := w.upd Dev.recheckAll

/-! ### Hub tags of a stopping instance (R129, R142) -/

/-- CLOSE of a hub: to each die node of the pitch, and to the root with the total and the mask of dies (R129). -/
def Work.sendClose (w : Work) (h : Hub) (dies : List Nat) : Work :=
  match h.tag with
  | none => w
  | some tag =>
    let mask := (List.range 4).foldl (fun m q => if h.perDie.getD q 0 = 0 then m else m + 2 ^ q) 0
    w.upd (fun d => { d with tree := d.tree ++ dies.map (fun q => TreeMsg.close q tag (h.perDie.getD q 0) 0)
      ++ [TreeMsg.close 4 tag h.dealt mask] })

/-- Slabs of a tag merged so far in the slots of the tree. An entry that a die node forwards carries its slabs with it. -/
def Dev.slabsHeld (d : Dev) (tag : Nat) : Nat :=
  (d.hubSlots.filter (fun h => h.2.tag == tag)).foldl (fun s h => s + h.2.slabs) 0

/-- A CLOSE of a tag is still on its way. -/
def Dev.closing (d : Dev) (tag : Nat) : Bool := d.tree.any (fun m => match m with
  | .close _ t _ _ => t == tag
  | _ => false)

/-- An aborted tag is free once its slabs are accounted for and its CLOSE messages, which give the dealt total, have arrived
(R129, R142; log 106, DEDUCED). -/
def Work.freeDrained (w : Work) : Work :=
  w.upd (fun d => { d with abortedTags := d.abortedTags.filter (fun x => decide (x.2.1 < x.2.2.1) || d.closing x.1) })

/-- R142: abort a hub: its tag discards every entry, and is freed when its slabs are accounted for. -/
def Work.abortHub (w : Work) (h : Hub) : Work :=
  let w := w.upd (fun d => { d with hubs := d.hubs.filter (fun x => !(x.iid == h.iid && x.seg == h.seg)) })
  match h.tag with
  | none => w
  | some tag =>
    let back : Bool := w.dev.tree.any (fun m => match m with
      | .aggregate t _ _ => t == tag
      | _ => false)
    let seen := if back then h.dealt else w.dev.slabsHeld tag
    let w := w.upd (fun d => { d with
      hubSlots := d.hubSlots.filter (fun x => x.2.tag != tag)
      abortedTags := d.abortedTags ++ [(tag, seen, h.dealt, d.ctxOf h.gid)]
      tree := d.tree.filter (fun m => match m with
        | .aggregate t _ _ => t != tag
        | _ => true) })
    Work.freeDrained <| if h.closed then w else w.sendClose h ((List.range 4).filter (fun q => decide (h.perDie.getD q 0 ≠ 0)))

def Work.abortHubsOf (w : Work) (iid : Nat) : Work := w.each (w.dev.hubs.filter (fun h => h.iid == iid)) (fun h w => w.abortHub h)

/-! ### Ends (R68, R69, R287) -/

/-- R287: a task whose wait on a RING object was satisfied releases its buffers when it ends. -/
def Work.releaseRing (w : Work) (t : Task) : Work :=
  if t.waitsObject ∧ t.waitMet then
    let e := look SyEnt.zero t.waitPhys w.dev.sync.store
    if fld e.cfg 31 30 = 1 ∧ bitOf e.cfg 29 ∧ serialDiff e.aux.toNat t.waitValue < 0 then
      w.upd (fun d => { d with sync := { d.sync with
        store := put SyEnt.zero t.waitPhys { e with aux := BitVec.ofNat 32 t.waitValue } d.sync.store } })
    else w
  else w

/-- R264: stop every instance and lane of a task: one without a slot leaves, one with a slot has a stop order. -/
def Work.stopInsts (w : Work) (gid ti : Nat) : Work :=
  let mine (i : Inst) : Bool := i.gid == gid && i.ti == ti
  let ids := (w.dev.insts.filter mine).map (·.iid)
  let w := w.each ids (fun n w => w.abortHubsOf n)
  w.upd (fun d => { d with
    insts := (d.insts.filter (fun i => !(mine i && i.slot.isNone))).map (fun i => if mine i then { i with stopOrdered := true } else i)
    sync := { d.sync with cellWaits := d.sync.cellWaits.filter (fun x => !ids.contains x.iid) }
    streams := d.streams.map (fun s => if ids.contains s.iid ∧ s.ended = false then { s with stopped := true } else s)
    clusters := d.clusters.map (fun (c, cl) => (c, { cl with
      matchHolder := cl.matchHolder.filter (fun h => !ids.contains h) })) })

/-- A task enters DONE, FAILED or CANCELLED. -/
def Work.closeTask (w : Work) (gid ti : Nat) (st : TaskState) (err : Nat) : Work :=
  match w.dev.anyTask? gid ti with
  | none => w
  | some t =>
    if t.state.live = false then w
    else
      let w := w.releaseRing t
      let b := w.dev.beat
      let w := w.setTask gid ti (fun t => { t with
        state := st, err := err, doneAt := b, metAt := none, softAt := none, waitRegistered := false,
        signalDue := if st = .done ∧ t.signalsObject = true then some (b + 12) else none })
      let w := w.upd (fun d => { d with
        sync := { d.sync with waits := d.sync.waits.filter (fun x => x.who != .task gid ti) }
        exch := { d.exch with colls := d.exch.colls.filter (fun c => !(c.gid == gid && c.ti == ti)) } })
      if st = .done then w else w.stopInsts gid ti

/-- Tasks that depend on a task, directly or through others, ascending: FROM is less than TO (R61). -/
def Graph.dependants (g : Graph) (ti : Nat) : List Nat :=
  ((List.range g.tasks.length).foldl (fun (s : List Nat) j =>
    if g.edges.any (fun e => e.dst == j && s.contains e.src) then s ++ [j] else s) [ti]).filter (· != ti)

/-- R69: a failing task becomes FAILED and its dependants CANCELLED. -/
def Work.failOnly (w : Work) (gid ti err : Nat) : Work :=
  match w.dev.anyGraph? gid with
  | none => w
  | some g =>
    let w := w.closeTask gid ti .failed err
    let w := w.setGraph gid (fun g => { g with firstFail := some (g.firstFail.getD (ti, err)) })
    (w.each (g.dependants ti) (fun j w => w.closeTask gid j .cancelled 0)).recheck

/-- An error that ends a task: raised with the task as object, then R69. A task that has ended raises nothing. Log 90, DEDUCED: a PRIMED task whose prologue fails (R69, R84). -/
def Work.failTask (w : Work) (gid ti : Nat) (p : Page) (e : Err) (waiter : Nat) (detail : List Byte) (sev : Nat := 2) : Work :=
  match w.dev.anyTask? gid ti with
  | none => w
  | some t =>
    if t.state.live then
      (w.raise p e ⟨sev, some (w.dev.ctxOf gid), w.dev.codeOf gid ti, waiter, detail⟩).failOnly gid ti e.code
    else w

/-- An instance's error, with its cluster as requester. -/
def Work.failInst (w : Work) (i : Inst) (p : Page) (e : Err) (detail : List Byte) : Work :=
  w.failTask i.gid i.ti p e i.cluster detail

/-- A task is DONE (R68); its object signal is on its way (R290). -/
def Work.doneTask (w : Work) (gid ti : Nat) : Work := (w.closeTask gid ti .done 0).recheck

/-- Saturating counts of R66. -/
def satAdd (a b : Nat) : Nat := min (a + b) (2 ^ 32 - 1)
def Work.poisonRead (w : Work) (gid n : Nat) : Work := w.setGraph gid (fun g => { g with poisonRead := satAdd g.poisonRead n })
def Work.poisonWrote (w : Work) (gid n : Nat) : Work := w.setGraph gid (fun g => { g with poisonWritten := satAdd g.poisonWritten n })

/-! ### Release (R67) and completion of tasks without instances -/

def Graph.task? (g : Graph) (ti : Nat) : Option Task := g.tasks[ti]?

/-- A SIGNAL task completes on the beat on which its conditions hold, or on its launch beat if that is later (R62). Log 26, DEDUCED: a SIGNAL task (R62, R290). -/
def signalTaskCompleteWork (r : TaskRef) (w : Work) : Work :=
  match w.dev.task? r.gid r.task with
  | some t =>
    match t.metAt with
    | some b =>
      if t.kind = some .signal ∧ t.state = .waiting then
        let w := w.passTo b
        let w := if t.timed then w.passToTime t.launchTime else w
        w.doneTask r.gid r.task
      else w
    | none => w
  | none => w

/-- SIGNAL_TASK_COMPLETE (R62). -/
def execSignalTaskComplete (t : TaskRef) (s : State) : Host.Outcome State Fault Refusal := s.run (signalTaskCompleteWork t)

/-! ### Timeouts -/

/-- Who an ERR_TASK_TIMEOUT names (R68). -/
def Dev.timeoutWaiter (d : Dev) (gid ti : Nat) : Nat :=
  let mine := d.insts.filter (fun i => i.gid == gid && i.ti == ti && !i.isLane)
  let held := mine.filter (fun i => i.slot.isSome)
  let best (f : Inst → Inst → Bool) (l : List Inst) : Option Inst := l.foldl (fun b i => match b with
    | none => some i
    | some j => if f i j then some i else some j) none
  match best (fun i j => decide (i.tookAt < j.tookAt) || (i.tookAt == j.tookAt && decide (i.rel < j.rel))) held with
  | some i => codeInst (i.slot.getD 0) i.cluster
  | none =>
    match best (fun i j => decide (i.rel < j.rel)) mine with
    | some i => codeInst 0 i.cluster
    | none => codeNone

/-- TIMEOUT_US elapses after release. -/
def taskTimeoutWork (r : TaskRef) (w : Work) : Work :=
  match w.dev.task? r.gid r.task with
  | some t =>
    if t.state.live ∧ t.state ≠ .waiting ∧ t.timeoutUs ≠ 0 then
      let w := w.passTo (t.releasedAt + t.timeoutUs * 250)
      w.failTask r.gid r.task pgTt .taskTimeout (w.dev.timeoutWaiter r.gid r.task) []
    else w
  | none => w

/-- TASK_TIMEOUT (R68, R69). -/
def execTaskTimeout (t : TaskRef) (s : State) : Host.Outcome State Fault Refusal := s.run (taskTimeoutWork t)

/-! ### Cancellation (R70) -/

/-- Cancel every admitted graph that meets `p` and has not ended. -/
def Work.cancelGraphs (w : Work) (p : Graph → Bool) (silent : Bool) : Work :=
  let gs := w.dev.graphs.filter (fun g => p g && g.valid && !g.ended)
  let w := w.each gs (fun g w =>
    let w := w.setGraph g.gid (fun g => { g with ttCancelled := true, silent := g.silent || silent })
    w.each (List.range g.tasks.length) (fun ti w => w.closeTask g.gid ti .cancelled 0))
  w.recheck

/-- Whether a writer may name a queue in TT_CANCEL (R70). The control cores are not PCIe functions; they name none. -/
def mayCancel (who : Agent) (queue : Nat) : Bool :=
  match who with
  | .fn n => n == 0 || queue / 32 == n
  | .core _ _ => false

/-! ### Completion record (R66) -/

/-- Bytes of a completion record. -/
def recordBytes (tag outcome code task off pr pw time : Nat) : List PByte :=
  (leBytes 4 tag ++ leBytes 1 outcome ++ leBytes 1 0 ++ leBytes 2 code ++ leBytes 4 task ++ leBytes 4 off ++ leBytes 4 pr
    ++ leBytes 4 pw ++ leBytes 8 time).map (·, false)

/-- Write a record and signal its vector; when its address no longer translates, raise ERR_XLATE in the TT page instead of
writing, and signal all the same. -/
def Work.writeRecord (w : Work) (queue addr msix tag : Nat) (rec : List PByte) : Work :=
  let ctx := queue / 32
  let w := match w.writeVa ctx addr rec ⟨some ctx, tag, codeTask queue 0xFFF⟩ with
    | (.ok _, w) => w.say (.record queue)
    | (.error e, w) => w.raise pgTt .xlate ⟨1, some ctx, tag, codeTask queue 0xFFF, leBytes 8 e⟩
  if msix = 0xFFFF then w else w.message ctx msix

/-- OUTCOME, CODE and FAULT_TASK of an ended graph (R66, R69). -/
def Graph.outcome (g : Graph) : Nat × Nat × Nat :=
  match g.firstFail with
  | some (ti, e) => (2, e, ti)
  | none => if g.ttCancelled then (3, 0, 0xFFFFFFFF) else (0, 0, 0xFFFFFFFF)

/-- Tiles of a graph that wait in some cluster's compressor (R206, R237). -/
def Dev.tilesOf (d : Dev) (gid : Nat) : List TileOut := d.clusters.flatMap (fun (_, cl) => cl.tiles.filter (fun t => t.gid == gid))

/-- The record of an ended graph, once its instances have stopped, its finished tiles are written and its signals have left; or of a refusal. The graph's
entries are freed (R69). Log 67, DEDUCED: when the completion record is due (R66). -/
def completionRecordWork (gid : Nat) (w : Work) : Work :=
  match w.dev.refusals.find? (fun r => r.gid == gid) with
  | some r =>
    let w := w.upd (fun d => { d with refusals := d.refusals.filter (fun x => x.gid != gid) })
    w.writeRecord r.queue r.addr r.msix r.tag (recordBytes r.tag 1 r.code r.task r.offset 0 0 w.dev.time)
  | none =>
    match w.dev.graph? gid with
    | some g =>
      if g.valid ∧ g.ended ∧ w.dev.insts.any (fun i => i.gid == gid) = false
          ∧ g.tasks.any (fun t => t.signalDue.isSome) = false ∧ w.dev.tilesOf gid = [] then
        let (o, code, ft) := g.outcome
        let w := if g.silent then w else
          w.writeRecord g.queue g.complAddr g.msix g.tag (recordBytes g.tag o code ft 0 g.poisonRead g.poisonWritten w.dev.time)
        (w.upd (fun d => { d with graphs := d.graphs.filter (fun x => x.gid != gid) })).recheck
      else w
    | none => w

/-- COMPLETION_RECORD (R66, R69). -/
def execCompletionRecord (gid : Nat) (s : State) : Host.Outcome State Fault Refusal := s.run (completionRecordWork gid)

end Sys2Proof.Machine
end

