-- ==== Sys2Proof/Machine/Bodies.lean ====
section
/-! DEFINITION. Reading task bodies and the format descriptors they name (R23, R38, R89, R91, R92, R145, R157, R160, R190, R199,
R212, R214, R247, R271, R375), and the share of a task that each instance takes (R94, R192, R213). -/

namespace Sys2Proof.Machine

/-! ### Descriptors captured at admission -/

def fmtFrontier : Nat := 0
def fmtList : Nat := 1
def fmtTopo : Nat := 2
def fmtTable : Nat := 3
def fmtDir : Nat := 4
def fmtPred : Nat := 5
def fmtProg : Nat := 6
def fmtStream : Nat := 7

def Task.fmt (t : Task) (k : Nat) : List Byte := look [] k t.fmts

/-! ### Tables (R38, R39, R102) -/

structure Table where
  base : Nat
  rows : Nat
  n : Nat
  fmt : Fmt
  stride : Nat
  deriving DecidableEq, Repr

def tableOf (b : List Byte) : Table :=
  ⟨bytesAt b 0 8, bytesAt b 8 4, bytesAt b 12 2, (fmtOf (byteAt b 14)).getD .fp32, bytesAt b 16 4⟩

def Table.rowBytes (t : Table) : Nat := t.fmt.rowBytes t.n

/-- Slot size of a row (R102). -/
def slotSize (rowBytes stride : Nat) : Nat :=
  if stride % 64 = 0 then 64 * ceilDiv rowBytes 64 else 64 * ceilDiv (rowBytes + 63) 64
def Table.slot (t : Table) : Nat := slotSize t.rowBytes t.stride
def Table.rowVa (t : Table) (k : Nat) : Nat := t.base + k * t.stride

/-! ### Index lists (R92) -/

structure IdList where
  ids : Nat
  weights : Nat
  segs : Nat
  count : Nat
  segCount : Nat
  idw : Bool
  wfmt : Nat
  deriving DecidableEq, Repr

def listOf (b : List Byte) : IdList :=
  let f := bytesAt b 28 4
  let segs := bytesAt b 16 8
  let c := bytesAt b 24 4
  let n := fieldN f 23 0
  ⟨bytesAt b 0 8, bytesAt b 8 8, segs, c, if segs = 0 then c else if n = 0 then 16777216 else n, fieldN f 24 24 == 1, fieldN f 26 25⟩

def IdList.idBytes (l : IdList) : Nat := if l.idw then 8 else 4

/-- Weight element formats (R23, R92). -/
def wfmtOf : Nat → Option Fmt
  | 1 => some .fp32 | 2 => some .bf16 | 3 => some .fp16
  | _ => none
def wfmtBytes (k : Nat) : Nat := ((wfmtOf k).map (fun f => f.bits / 8)).getD 0

/-! ### Topology (R23) -/

structure Topo where
  offs : Nat
  neigh : Nat
  weights : Nat
  hubdir : Nat
  vertices : Nat
  hubs : Nat
  idw : Bool
  wfmt : Nat
  sorted : Bool
  floorLog2 : Nat
  edges : Nat
  deriving DecidableEq, Repr

def topoOf (b : List Byte) : Topo :=
  let f := byteAt b 40
  ⟨bytesAt b 0 8, bytesAt b 8 8, bytesAt b 16 8, bytesAt b 24 8, bytesAt b 32 4, bytesAt b 36 4, fieldN f 0 0 == 1, fieldN f 2 1,
   fieldN f 3 3 == 1, byteAt b 41, bytesAt b 48 8⟩

def Topo.idBytes (t : Topo) : Nat := if t.idw then 8 else 4

/-! ### GATHER and EMBED_BAG as the Gather Unit runs them (R89, R91, R97, R115, R160, R164) -/

/-- What the Gather Unit needs of a task, whichever of its two kinds it is. -/
structure GatherBody where
  embed : Bool
  scatter : Option Scatter
  reduce : Reduce
  out : Nat
  outStride : Nat
  outFmt : Fmt
  noCoalesce : Bool
  noPromote : Bool
  missingNull : Bool
  u32 : Bool
  promote : Nat
  remoteTable : Nat       -- 0xFFFF: none
  expand : Nat
  fanout : Nat
  edgeWeights : Bool
  self : Bool
  seed : Nat
  emit : Nat
  wsT : Nat
  deriving DecidableEq, Repr

def Task.isGatherLike (t : Task) : Bool := t.kind = some .gather || t.kind = some .embedBag

def Task.gather (t : Task) : GatherBody :=
  if t.kind = some .embedBag then
    let fl := t.f 69 1
    { embed := true, scatter := if t.f 66 1 = 1 then some .add else none, reduce := (reduceOf (t.f 67 1)).getD .none,
      out := t.f 80 8, outStride := t.f 88 4, outFmt := (fmtOf (t.f 68 1)).getD .fp32, noCoalesce := fieldN fl 0 0 == 1,
      noPromote := fieldN fl 1 1 == 1, missingNull := false, u32 := false, promote := t.f 70 2, remoteTable := 0xFFFF,
      expand := 0, fanout := 0, edgeWeights := false, self := false, seed := 0, emit := 0, wsT := 4096 }
  else
    let fl := t.f 95 1
    let fr := t.fmt fmtFrontier
    let ff := byteAt fr 4
    let ws := t.f 96 1
    { embed := false,
      scatter := (match t.f 92 1 with
        | 1 => some .add
        | 2 => some .min
        | 3 => some .max
        | _ => none),
      reduce := (reduceOf (t.f 93 1)).getD .none, out := t.f 80 8, outStride := t.f 88 4,
      outFmt := (fmtOf (t.f 94 1)).getD .fp32, noCoalesce := fieldN fl 0 0 == 1, noPromote := fieldN fl 1 1 == 1,
      missingNull := fieldN fl 2 2 == 1, u32 := fieldN fl 3 3 == 1 && decide (2 ≤ t.f 92 1), promote := t.f 98 2, remoteTable := t.f 108 2,
      expand := byteAt fr 1, fanout := bytesAt fr 2 2, edgeWeights := fieldN ff 0 0 == 1, self := fieldN ff 1 1 == 1,
      seed := bytesAt fr 24 8, emit := bytesAt fr 32 8, wsT := if ws = 0 then 4096 else 2 ^ ws }

def Task.list (t : Task) : IdList := listOf (t.fmt fmtList)
def Task.topo (t : Task) : Topo := topoOf (t.fmt fmtTopo)

/-- The table an instance reads: the task's TABLE, or the embedding descriptor the instance read at its start (R158). -/
def Inst.table (i : Inst) (t : Task) : Table := tableOf (if t.kind = some .embedBag then i.tbl else t.fmt fmtTable)

/-- Directory address: SHELF_DIR of the task or of the embedding descriptor; 0 for none (R89, R157). -/
def Inst.shelfDir (i : Inst) (t : Task) : Nat := if t.kind = some .embedBag then bytesAt i.tbl 48 8 else t.f 100 8
def Inst.dirHeader (i : Inst) (t : Task) : List Byte := if t.kind = some .embedBag then i.dirHdr else t.fmt fmtDir

/-- Entry size of the combining queue (R116). -/
def combSize (t : Table) (m : Scatter) : Nat := 64 * ceilDiv (if m = .add then t.n * 4 else t.rowBytes) 64

/-! ### TRANSFORM (R190, R193) -/

structure XBody where
  x : Nat
  w : Nat
  y : Nat
  b : Nat
  m : Nat
  k : Nat
  n : Nat
  xf : Fmt
  wf : Fmt
  yf : Fmt
  act : Nat
  predict : Nat
  xt : Bool
  yt : Bool
  cap : Nat
  xs : Nat
  ys : Nat
  deriving DecidableEq, Repr

def Task.xform (t : Task) : XBody :=
  let fl := t.f 117 1
  ⟨t.f 64 8, t.f 72 8, t.f 80 8, t.f 88 8, t.f 104 4, t.f 108 2, t.f 110 2, (fmtOf (t.f 112 1)).getD .bf16,
   (fmtOf (t.f 113 1)).getD .bf16, (fmtOf (t.f 114 1)).getD .bf16, t.f 115 1, t.f 116 1, fieldN fl 0 0 == 1, fieldN fl 1 1 == 1,
   t.f 118 2, t.f 120 4, t.f 124 4⟩

def XBody.kp (x : XBody) : Nat := ceilDiv x.k 256
def XBody.np (x : XBody) : Nat := ceilDiv x.n 256

/-- The fold f: rows that share a row step where K is small (R196). -/
def fold (k : Nat) : Nat := if k = 32 then 8 else if k = 64 then 4 else if k = 96 ∨ k = 128 then 2 else 1

/-- Panel bytes P of R193. -/
def panelBytes (f : Fmt) : Nat := 256 * (256 * f.bits / 8) + (if f.isMx then 256 * 8 else 0)

/-- S_X of R194 and R239. -/
def XBody.sx (x : XBody) : Nat :=
  if x.xt then 64 * ceilDiv (x.xf.rowBytes x.k + 63) 64 else slotSize (x.xf.rowBytes x.k) x.xs

def up64 (n : Nat) : Nat := roundUp n 64

/-- Operand-cache bytes of R194, with the weights region given. -/
def XBody.opcBytes (x : XBody) (predict : Nat) (weights : Nat) (resident : Bool) (rb : Nat) : Nat :=
  up64 weights
    + (if predict = 1 then up64 (if resident then x.kp * x.np * 34816 else 2 * 34816) else 0)
    + (if predict = 0 then 0 else up64 (17 * (x.k + x.n)))
    + (if x.b = 0 then 0 else up64 (4 * x.n)) + rb * 1024

/-- Weights region: resident, streamed, or N-panel streamed under gather-merge (R194, R243). -/
def XBody.weightBytes (x : XBody) (merge resident : Bool) : Nat :=
  if resident then x.kp * x.np * panelBytes x.wf
  else if merge then 2 * x.kp * panelBytes x.wf else 2 * panelBytes x.wf

def XBody.fits (x : XBody) (t : Task) (predict : Nat) (merge resident : Bool) (rb : Nat) : Bool :=
  decide (x.opcBytes predict (x.weightBytes merge resident) resident rb ≤ t.opcache * 1024)
    && decide (2 * rb * x.sx ≤ t.landing * 1024)

/-- R195: layout for a mode: resident or not, and RB; none where neither fits with RB = 64. -/
def XBody.layout (x : XBody) (t : Task) (predict : Nat) (merge : Bool) (cap : Nat) : Option (Bool × Nat) :=
  let pick (res : Bool) : Option (Bool × Nat) :=
    ((([512, 256, 128, 64].filter (fun rb => decide (rb ≤ cap))).find? (fun rb => x.fits t predict merge res rb))).map (fun rb => (res, rb))
  if x.fits t predict merge true 64 then pick true else pick false

/-! ### VECTOR (R212, R214) -/

def Task.ops (t : Task) : Nat := t.f 72 2
def Task.splitTotal (t : Task) : Nat := t.f 76 4
def Task.vop (t : Task) (k : Nat) : List Byte := ((t.fmt fmtProg).drop (128 * k)).take 128

/-- Signed 32-bit field. -/
def s32 (n : Nat) : Int := if n < 2 ^ 31 then (n : Int) else (n : Int) - 2 ^ 32

/-! ### Shares of a task (R94, R192, R213) -/

/-- What is dealt: segments, rows, iterations, descriptors or entries. -/
def Task.units (t : Task) : Nat :=
  match t.kind with
  | some .gather | some .embedBag => t.list.segCount
  | some .transform => t.f 104 4
  | some .vector => t.splitTotal
  | some .matchT => if t.f 96 1 = 0 then t.list.count / 2 else t.list.count
  | some .copy => if t.f 72 1 = 1 then 1 else t.f 76 4
  | _ => 0

/-- The contiguous range of the instance at a relative position among n. A VECTOR task without SPLIT iterations runs whole in
every instance. -/
def Task.share (t : Task) (n rel : Nat) : Nat × Nat :=
  let u := t.units
  if t.kind = some .vector ∧ u = 0 then (0, 1)
  else
    let s := if t.kind = some .transform then 64 * ceilDiv u (64 * n) else ceilDiv u n
    (min u (rel * s), min u (rel * s + s))

/-- A fresh instance of a task, without a slot. -/
def freshInst (iid gid ti rel cluster lo hi : Nat) : Inst :=
  { iid := iid, gid := gid, ti := ti, rel := rel, cluster := cluster, slot := none, tookAt := 0, started := false,
    startEpoch := 0, stopPolicy := false, stopOrdered := false, bumped := false, late := false, startDue := none, lo := lo, hi := hi,
    issued := 0, idxTaken := 0, parts := [], landed := [], pos := 0, sub := 0, ended := false, idxPos := 0, win := 0, winOpen := false, winCount := 0, winAt := 0, winSize := 0, winIdle := 0,
    winPromote := 0, nextRef := 0, rows := [], occs := [], hots := [], comb := [], combCfg := 0, hseed := 0, outTiles := [], hkCfg := 0, agg := none, aggCount := 0,
    hubDone := [], tbl := [], dirHdr := [], tblSlot := 0, resident := false, rb := 64, merge := false, predict := 0, audit := 0,
    nanFault := false, opc := [], packW := 0, packN := 0, keys := [], chunk := 0, probe := 0, bpart := none, part := none, prev := none, hits := 0, common := [],
    desc := [], row := 0, off := 0, owner := 0, tag := 0, slab := 0, voided := false, waitHub := none }

end Sys2Proof.Machine
end

