-- ==== Sys2Proof/Machine/Flags.lean ====
section
/-! DEFINITION. The common status of a page (R403, R404), and the conditions on a whole cluster or the whole device. -/

namespace Sys2Proof.Machine

/-- Kinds of the instances resident in a cluster; a lane counts as a GATHER's. -/
def Dev.residentKinds (d : Dev) (c : Nat) : List Kind :=
  (d.resident c).filterMap (fun i => (i.task? d).bind Task.kind)

/-- IDLE: the block holds no work: no resident instance, fetch, slab, entry or operation (R404). -/
def Work.pageIdle (w : Work) (p : Page) : Bool :=
  let d := w.dev
  let c := p.num
  let none_ (ks : List Kind) : Bool := !(d.residentKinds c).any (fun k => ks.contains k)
  match p.block with
  | .gu => none_ [.gather, .embedBag] && !d.fetches.any (fun f => f.unit == 1 && f.cluster == c)
      && !d.bumps.any (fun b => b.cluster == c)
  | .wh => !(d.resident c).any Inst.isLane && !d.streams.any (fun s => s.cluster == c)
      && !d.hubs.any (fun h => match d.inst? h.iid with
        | some i => i.cluster == c
        | none => false)
  | .ta => none_ [.transform]
  | .ve => none_ [.vector]
  | .sp => none_ [.matchT] && (w.cluster c).tiles.isEmpty
  | .hk => (d.resident c).isEmpty && !d.fetches.any (fun f => f.unit == 0 && f.cluster == c)
  | .pt => none_ [.copy]
  | .sh => !d.migs.any (fun m => m.cluster == c)
  | .sy => !d.sync.cellWaits.any (fun x => x.at_ == c) && !d.sync.adds.any (fun a => a.cluster == c)
  | .tt => d.graphs.isEmpty && d.admissions.isEmpty && d.refusals.isEmpty && d.save.isNone
  | .dl => d.deals.all (fun s => s.state == .idle) && d.due.isEmpty
  | .chNode => !d.tree.any (fun m => match m with
        | .entry n _ => n == c
        | .close n _ _ _ => n == c
        | .aggregate _ _ _ => false) && !d.hubSlots.any (fun h => h.1 == c) && !d.scat.any (fun e => e.node == c)
  | .chRoot => !d.tree.any (fun m => match m with
        | .entry n _ => n == 4
        | .close n _ _ _ => n == 4
        | .aggregate _ _ _ => true) && !d.hubSlots.any (fun h => h.1 == 4)
  | .syHub => d.sync.waits.isEmpty && d.sync.parked.isEmpty && d.sync.slots.all (fun s => !s.busy)
  | .ex => d.exch.colls.isEmpty
  | .tp => let q := d.ports.getD c .reset
           q.replay.isEmpty && q.packets.isEmpty && q.queued.isEmpty
  | .bt => d.boot.running.isEmpty && d.boot.updTarget.isNone
  | .sk => d.stock.queue.isEmpty && d.stock.pending.isEmpty
  | .cc => (w.core c).running.isNone
  | .px => d.flrBusy.isEmpty
  | .cr => !d.graphs.any (fun g => g.tasks.any (fun t => t.launchTaken && !t.launched))
  | .hub | .eb | .hm | .dd | .cf | .pm => true

/-- PAGE_STAT but for REJ, which depends on the reader (R404). -/
def Work.pageStat (w : Work) (p : Page) : Word :=
  let idle := w.pageIdle p
  let q : Bool := p.block.hasPageCtl && w.rb p .pageCtl 1
  let err : Bool := (w.reg p .errStat &&& ~~~ w.reg p .errMask) != 0
  atBit (b2n idle) 31 ||| atBit (b2n (q && idle)) 30 ||| atBit (b2n err) 29

/-- The pages of a cluster that implement PAGE_CTL (R402). -/
def ctlBlocks : List Block := [.gu, .wh, .ta, .ve, .sp, .hk, .pt, .sh]

/-- QUIESCE clear and ENABLE set on every PAGE_CTL page of the cluster (R403). -/
def Work.clusterOpen (w : Work) (c : Nat) : Bool := ctlBlocks.all (fun b => w.reg ⟨b, c⟩ .pageCtl == 1)

/-- ENABLE of a page (R402); pages without PAGE_CTL are always enabled. -/
def Work.pageOn (w : Work) (p : Page) : Bool := !p.block.hasPageCtl || w.rb p .pageCtl 0

/-- ATTEST has passed: doorbells are accepted and graphs admitted (R439). -/
def Work.inService (w : Work) : Bool := w.dev.boot.mode == .service

/-- Out of service: tripped, or a stack or channel has failed. Every admission is refused (R349, R466). -/
def Work.outOfService (w : Work) : Bool :=
  w.dev.power.state != .full || (List.range w.variant.stacks).any (fun i => w.memFailed ⟨.hm, i⟩)
    || (List.range w.variant.channels).any (fun i => w.memFailed ⟨.dd, i⟩)

/-- A page that is off-line: in recovery, all but hub, PX and BT (R443); after a trip, all off the hub die (R466). Log 79, DEDUCED: register pages while BOOTING (R403, R439). -/
def Work.pageOffline (w : Work) (p : Option Page) : Bool :=
  if w.dev.boot.mode = .recovery then
    !(match p with
      | some q => q.block == .hub || q.block == .px || q.block == .bt
      | none => false)
  else if w.dev.boot.mode = .service ∧ w.dev.power.state ≠ .full then
    (match p with
      | some q => q.die.isSome
      | none => false)
  else false

end Sys2Proof.Machine
end

