-- ==== Sys2Proof/Machine/Place.lean ====
section
/-! DEFINITION. Instances: release of a task (R67), slots and reservations (R71, R227, R228, R403), cell waits at a slot's taking
(R293, R297, R298), the start of execution (R68, R158, R195, R238, R269), completion, generations and stops (R264, R266). -/

namespace Sys2Proof.Machine

/-! ### Reservations (R71, R130, R227) -/

/-- Lanes are slots 8 to 15; a slab that an owner serves itself has a slot from 16 up and takes no space of its own (R128). -/
def Dev.lanes (d : Dev) (c : Nat) : List Inst :=
  (d.resident c).filter (fun i => decide (8 ≤ i.slot.getD 0) && decide (i.slot.getD 0 < 16))
def Dev.slotted (d : Dev) (c : Nat) : List Inst := (d.resident c).filter (fun i => !i.isLane)

/-- WH_CFG in effect: it changes when the unit next holds no slab (R151). -/
def Work.whCfg (w : Work) (c : Nat) : Word := if w.dev.lanes c = [] then w.reg ⟨.wh, c⟩ .whCfg else (w.cluster c).whEff
def laneKib (cfg : Word) : Nat := fld cfg 10 0 / max 1 (fld cfg 19 16)

/-- Unreserved landing buffer of a cluster, KiB, of 2,048 (R62, R130). -/
def Work.landingFree (w : Work) (c : Nat) : Nat :=
  2048 - ((w.dev.slotted c).foldl (fun s i => s + ((i.task? w.dev).map Task.landing).getD 0) 0
    + (w.dev.lanes c).length * laneKib (w.whCfg c))

def opcPages (kib : Nat) : Nat := ceilDiv kib 16

/-- Unreserved zeroed pages of the operand cache (R227, R228). -/
def Work.opcFree (w : Work) (c : Nat) : Nat :=
  128 - ((w.dev.slotted c).foldl (fun s i => s + opcPages (((i.task? w.dev).map Task.opcache).getD 0)) 0 + (w.cluster c).zeroing)

def Work.freeSlot (w : Work) (c : Nat) : Option Nat := (List.range 8).find? (fun s => (w.dev.instIn? c s).isNone)

/-- Pages an instance leaves are zeroed before they are given out again (R228). -/
def Work.freePages (w : Work) (i : Inst) : Work :=
  let n := opcPages (((i.task? w.dev).map Task.opcache).getD 0)
  if i.isLane then w else w.setCluster i.cluster (fun cl => { cl with zeroing := cl.zeroing + n })

/-- Freed pages finish zeroing. -/
def pageZeroedWork (c pages : Nat) (w : Work) : Work := w.setCluster c (fun cl => { cl with zeroing := cl.zeroing - pages })

/-- PAGE_ZEROED (R228). -/
def execPageZeroed (cluster pages : Nat) (s : State) : Host.Outcome State Fault Refusal := s.run (pageZeroedWork cluster pages)

/-! ### Sync cells (R279, R293, R296 to R298) -/

/-- The cluster of the cell that an ID names for an instance. -/
def Work.cellCluster (w : Work) (i : Inst) (t : Task) (id : Nat) : Option Nat :=
  if cellSelf id then some i.cluster
  else (w.pitchOfTask i.gid t).map (fun p => p.at (cellX id) (cellY id))

/-- The ID with SELF resolved to offsets (R298). -/
def Work.cellIdOf (w : Work) (i : Inst) (t : Task) (id : Nat) : Nat :=
  if cellSelf id then
    match w.pitchOfTask i.gid t with
    | some p => 0xF0000 + (i.cluster % 18 + 18 - p.x0) % 18 * 1024 + (i.cluster / 18 + 12 - p.y0) % 12 * 64 + cellNo id
    | none => id
  else id

/-- Wait-state byte of a cell (R295). -/
def Work.cellWs (w : Work) (c k : Nat) : Nat := fieldN (w.reg ⟨.sy, c⟩ .syCellWs (k / 4)).toNat (k % 4 * 8 + 7) (k % 4 * 8)
def Work.cellVal (w : Work) (c k : Nat) : Nat := (w.reg ⟨.sy, c⟩ .syCell k).toNat

/-- An instance registers its wait on a cell as it takes its slot (R286, R293, R297, R298). Log 50, DEDUCED: an instance that waits on a cell (R293, R297). -/
def Work.registerCellWait (w : Work) (iid : Nat) : Work :=
  match w.dev.inst? iid with
  | none => w
  | some i =>
    match i.task? w.dev with
    | none => w
    | some t =>
      if t.waitsCell = false then w
      else
        match w.cellCluster i t t.waitObj with
        | none => w
        | some c =>
          let k := cellNo t.waitObj
          let v := w.cellVal c k
          let never := decide (65535 < serialDiff t.waitValue v)
          let met := decide (0 ≤ serialDiff v t.waitValue)
          let id := w.cellIdOf i t t.waitObj
          let x : CellWait := {
            iid := iid, at_ := i.cluster, cluster := c, cell := k, id := id,
            target := BitVec.ofNat 32 t.waitValue, since := w.dev.time, never := never,
            wakeAt := if met then some w.dev.beat else none, reported := false, marked := false }
          let w := w.upd (fun d => { d with sync := { d.sync with cellWaits := d.sync.cellWaits ++ [x] } })
          if met then w.count ⟨.sy, i.cluster⟩ 1
          else if never then
            w.raise ⟨.sy, i.cluster⟩ .tallyRange
              ⟨1, some (w.dev.ctxOf i.gid), id, codeInst (i.slot.getD 0) i.cluster, leBytes 2 c⟩
          else w

/-- The instance still waits on a cell. -/
def Dev.cellWaiting (d : Dev) (iid : Nat) : Bool := d.sync.cellWaits.any (fun x => x.iid == iid && x.wakeAt.isNone)

/-- The instance's signal on a cell, issued when it completes (R293, R296). -/
def Work.cellSignal (w : Work) (i : Inst) (t : Task) : Work :=
  if t.signalsCell = false then w
  else
    match w.pitchOfTask i.gid t, w.cellCluster i t t.signalObj with
    | some p, some c =>
      let lag := if c = i.cluster then 1 else 2 + ceilDiv (p.hops w.variant i.cluster c) 2
      w.upd (fun d => { d with sync := { d.sync with
        adds := d.sync.adds ++ [⟨d.beat + lag, c, cellNo t.signalObj, t.signalAdd⟩] } })
    | _, _ => w

/-! ### Embedding tables at an instance's start (R155 to R158, R167) -/

/-- Reserved bytes of R38's descriptor. -/
def tableReserved (b : List Byte) : Bool := !(zeroBytes b 15 1 && zeroBytes b 20 12)

/-- R38's ranges but for BASE's alignment; `feature`: the format must be allowed for feature rows. -/
def tableRange (b : List Byte) (feature : Bool) : Bool :=
  match fmtOf (byteAt b 14) with
  | none => true
  | some f =>
    let n := bytesAt b 12 2
    let st := bytesAt b 16 4
    decide (bytesAt b 8 4 = 0) || decide (n = 0) || decide (4096 < n) || !f.countOk n || (feature && f.isCode)
      || decide (st % 4 ≠ 0) || decide (st < f.rowBytes n) || decide (65536 < st)

/-- R167's header rules: its version, then the rest. -/
def dirVersionBad (h : List Byte) : Bool := decide (byteAt h 0 ≠ 1)
def dirRangeBad (h : List Byte) : Bool := decide (byteAt h 1 < 4) || decide (15 < byteAt h 1)
def dirReserved (h : List Byte) : Bool := decide (1 < byteAt h 2) || !zeroBytes h 3 61

/-- Whether a range leads to on-die SRAM for one access (R82, R167). -/
def Work.inSram (w : Work) (ctx va n : Nat) (write : Bool) (r : Reader) : Bool × Work :=
  match w.translateRange ctx va n write r with
  | (.error _, w) => (false, w)
  | (.ok l, w) => (l.all (fun (t, _, len) => match t with
      | .dev a => decide (0xC000000000 ≤ a) && decide (a + len ≤ 0x10000000000)
      | .host _ => false), w)

/-- The whole directory lies in SRAM with READ and WRITE (R167). -/
def Work.dirOk (w : Work) (ctx dir log2 : Nat) (r : Reader) : Bool × Work :=
  let n := 64 + 64 * 2 ^ log2
  let (a, w) := w.inSram ctx dir n false r
  let (b, w) := w.inSram ctx dir n true r
  (a && b, w)

/-- Read bytes that must be clean: none when they do not translate or are poisoned. -/
def Work.readClean (w : Work) (ctx va n : Nat) (r : Reader) : Option (List Byte) × Work :=
  match w.readVa ctx va n r with
  | (.error _, w) => (none, w)
  | (.ok l, w) => (if l.any (·.2) then none else some (l.map (·.1)), w)

/-- Why a table cannot be used: R158's conditions, or a head or descriptor that does not translate, at an address (R57, R185). -/
inductive TblErr where
  | invalid
  | xlate (va : Nat)
  deriving DecidableEq, Repr

/-- Address of a table's head: entry of the context's registry (R156). -/
def Work.headVa (w : Work) (ctx local_ : Nat) : Nat :=
  (w.reg pgEb .ebRegLo ctx).toNat + w.rf pgEb .ebRegHi 11 0 ctx * 2 ^ 32 + 16 * local_

/-- ACTIVE of a head: the descriptor's address; none where R158 fails, or the head is poisoned. -/
def activeOf (head : List PByte) : Option Nat :=
  let a := pbNat head 0 8
  if head.any (·.2) ∨ a = 0 ∨ a % 64 ≠ 0 then none else some a

/-- A table descriptor that keeps R38, R157 and R9, of a format that the mode allows (R158). -/
def tableDescOk (l : List PByte) (update : Bool) : Bool :=
  let b := l.map (·.1)
  !(l.any (·.2) || tableReserved b || tableRange b false || decide (bytesAt b 0 8 % 64 ≠ 0) || decide (bytesAt b 32 8 % 64 ≠ 0)
    || decide (2 < byteAt b 40) || !zeroBytes b 41 7 || decide (bytesAt b 48 8 % 64 ≠ 0) || !zeroBytes b 56 8
    || (update && ((fmtOf (byteAt b 14)).map Fmt.isCode).getD false))

/-- The header of a table's directory: empty where it has none, none where the directory breaks R167. -/
def Work.readDir (w : Work) (ctx : Nat) (b : List Byte) (r : Reader) : Option (List Byte) × Work :=
  let dir := bytesAt b 48 8
  if dir = 0 then (some [], w)
  else
    match w.readClean ctx dir 64 r with
    | (none, w) => (none, w)
    | (some h, w) =>
      if dirVersionBad h || dirRangeBad h || dirReserved h then (none, w)
      else
        let (ok, w) := w.dirOk ctx dir (byteAt h 1) r
        (if ok then some h else none, w)

/-- A table's descriptor and directory header, from the descriptor's bytes. -/
def Work.useTable (w : Work) (ctx : Nat) (l : List PByte) (update : Bool) (r : Reader) : Except TblErr (List Byte × List Byte) × Work :=
  if tableDescOk l update = false then (.error .invalid, w)
  else
    match w.readDir ctx (l.map (·.1)) r with
    | (none, w) => (.error .invalid, w)
    | (some h, w) => (.ok (l.map (·.1), h), w)

/-- A table as its head and descriptor give it now: descriptor and directory header. -/
def Work.readTable (w : Work) (ctx local_ : Nat) (update : Bool) (r : Reader) : Except TblErr (List Byte × List Byte) × Work :=
  match w.readVa ctx (w.headVa ctx local_) 16 r with
  | (.error va, w) => (.error (.xlate va), w)
  | (.ok head, w) =>
    match activeOf head with
    | none => (.error .invalid, w)
    | some active =>
      match w.readVa ctx active 64 r with
      | (.error va, w) => (.error (.xlate va), w)
      | (.ok l, w) => w.useTable ctx l update r

/-- Table slot of a context's local table (R155). -/
def Work.tableSlot (w : Work) (ctx local_ : Nat) : Nat := w.rf pgEb .ebTables 13 0 ctx + local_

/-- The Hawker's stream of a table's head (item 0) and descriptor (item 1). -/
def sTbl : Nat := 21

/-- Bytes of a landed unit. -/
def Inst.got (i : Inst) (s item : Nat) : Option (List PByte) :=
  (i.landed.find? (fun x => x.stream == s && x.item == item)).map (·.data)

/-- ERR_TABLE_INVALID of an instance (R158). -/
def Work.tableFault (w : Work) (i : Inst) (slot : Nat) : Work :=
  (w.raise pgEb .tableInvalid ⟨2, some (w.dev.ctxOf i.gid), slot, i.cluster, []⟩).failOnly i.gid i.ti Err.tableInvalid.code

/-- An EMBED_BAG instance that has started takes its table, once, from the head and descriptor that the Hawker has read for it
(R158, R255, R262; log 105, DEDUCED). -/
def Work.startTable (w : Work) (i : Inst) (t : Task) : Work :=
  let ctx := w.dev.ctxOf i.gid
  let slot := w.tableSlot ctx (t.f 64 2)
  let w := w.setInst i.iid (fun i => { i with tblSlot := slot })
  match i.got sTbl 0 with
  | none => w
  | some head =>
    match activeOf head, i.got sTbl 1 with
    | none, _ => w.tableFault i slot
    | some _, none => w
    | some _, some l =>
      match w.useTable ctx l (t.f 66 1 == 1) (i.reader w.dev) with
      | (.ok (b, h), w) => w.setInst i.iid (fun i => { i with tbl := b, dirHdr := h })
      | (.error _, w) => w.tableFault i slot

/-! ### Starting (R68) -/

/-- Staggered start of a cluster: beats after the launch beat (R329). -/
def staggerOf (c span : Nat) : Nat := (c % 18 + 2 * (c / 18)) % (span + 1)

/-- The beat on which an instance of a launched task may start: its staggered beat, or, if later, that on which the order
reaches its cluster (R328, R329). -/
def Task.startBeat (t : Task) (c : Nat) : Nat := max (t.launchBeat + staggerOf c t.span) t.orderAt

/-- R195, R203, R238: the layout of a TRANSFORM instance as it starts; its prologue goes by the layout it would have. -/
def Work.chooseLayout (w : Work) (i : Inst) (t : Task) (starts : Bool) : Work :=
  if t.kind ≠ some .transform then w
  else
    let x := t.xform
    let c := i.cluster
    let pr := if w.rb ⟨.ta, c⟩ .taCfg 31 then x.predict else 0
    let cap := 512 / 2 ^ w.rf ⟨.ta, c⟩ .taCfg 1 0
    let may := x.xt && w.variant.hasSparse && w.rb ⟨.sp, c⟩ .spCfg 31 && decide (pr = 0)
    let m := if may then x.layout t pr true cap else none
    let l := m.getD ((x.layout t pr false cap).getD (false, 64))
    let w := w.whenB (may && m.isNone && starts) (fun w => w.count ⟨.sp, c⟩ 10)
    let code := if l.2 = 512 then 0 else if l.2 = 256 then 1 else if l.2 = 128 then 2 else 3
    let w := w.whenB starts (fun w => w.setCluster c (fun cl => { cl with taLast := 4 * b2n l.1 + code }))
    w.setInst i.iid (fun i => { i with
      resident := l.1, rb := l.2, merge := m.isSome, predict := pr, audit := w.rf ⟨.ta, c⟩ .taCfg 11 8 })

/-- A slotted instance whose task may execute, and whose cell wait is satisfied, starts; late, when it was not armed at its
task's launch (R328). -/
def Work.startInst (w : Work) (iid : Nat) : Work :=
  match w.dev.inst? iid with
  | none => w
  | some i =>
    match i.task? w.dev with
    | none => w
    | some t =>
      if i.started ∨ i.slot.isNone ∨ i.stopOrdered ∨ i.isLane ∨ (t.state ≠ .released ∧ t.state ≠ .active)
          ∨ (t.timed ∧ !t.launched) ∨ w.dev.cellWaiting iid then w
      else if t.timed ∧ w.dev.beat < t.startBeat i.cluster then
        w.setInst iid (fun i => { i with startDue := some (t.startBeat i.cluster) })
      else
        let ctx := w.dev.ctxOf i.gid
        let w := w.setInst iid (fun i => { i with
          started := true, startDue := none, startEpoch := (w.reg pgCr .crEpochNum).toNat, stopPolicy := w.rf pgTt .ttCtxCfg 29 28 ctx == 1,
          nanFault := w.rb ⟨.ve, i.cluster⟩ .veCfg 0, combCfg := w.reg ⟨.gu, i.cluster⟩ .guCombine,
          hkCfg := w.reg ⟨.hk, i.cluster⟩ .hkCfg })
        let w := w.setTask i.gid i.ti (fun t => { t with state := if t.state = .released then .active else t.state })
        let w := w.whenB i.late (fun w => w.count pgCr 1)
        let w := w.chooseLayout i t true
        if t.kind = some .embedBag then
          match w.dev.inst? iid with
          | some i => w.startTable i t
          | none => w
        else w

/-- Every slotted instance of a task that may start does so. -/
def Work.startTask (w : Work) (gid ti : Nat) : Work :=
  w.each ((w.dev.insts.filter (fun i => i.gid == gid && i.ti == ti)).map (·.iid)) (fun n w => w.startInst n)

/-- A cluster's instances whose launch has come start, each on its beat (R328, R329). -/
def Work.startDue (w : Work) (c : Nat) : Work :=
  w.each ((w.dev.insts.filter (fun i => i.cluster == c)).filterMap (fun i => i.startDue.map (fun b => (b, i.iid)))) (fun (b, n) w =>
    (w.passTo b).startInst n)

/-! ### Taking a slot (R71) -/

/-- Order of waiting instances (R71): PRIORITY, release, admission order, task index. -/
def Dev.before (d : Dev) (i j : Inst) : Bool :=
  let pos (g : Nat) : Nat := (d.graphs.map (·.gid)).idxOf g
  let pr (x : Inst) : Nat := ((x.task? d).map Task.prio).getD 0
  let rl (x : Inst) : Nat := ((x.task? d).map (·.releasedAt)).getD 0
  decide (pr j < pr i) || (pr i == pr j && (decide (rl i < rl j) || (rl i == rl j &&
    (decide (pos i.gid < pos j.gid) || (pos i.gid == pos j.gid && decide (i.ti < j.ti))))))

/-- Sort by `before`, keeping the order of equals. -/
def Dev.orderWaiting (d : Dev) (l : List Inst) : List Inst :=
  l.foldl (fun acc i => (acc.takeWhile (fun j => !d.before i j)) ++ [i] ++ (acc.dropWhile (fun j => !d.before i j))) []

/-- A further condition holds the instance back: its table is paused (R179), or its context is saved or being saved (R78). -/
def Work.heldBack (w : Work) (i : Inst) (t : Task) : Bool :=
  let ctx := w.dev.ctxOf i.gid
  (t.kind == some .embedBag && bitOf (look 0 (w.tableSlot ctx (t.f 64 2)) w.dev.tblCtl) 31)
    || w.rb pgTt .ttCtxCfg 30 ctx
    || (match w.dev.save with
      | some (c, _) => c == ctx
      | none => false)

/-- A resident instance of another task holds one of its cells (R71). -/
def Dev.cellConflict (d : Dev) (i : Inst) (t : Task) : Bool :=
  (d.slotted i.cluster).any (fun r => !(r.gid == i.gid && r.ti == i.ti) && match r.task? d with
    | some u => (u.cells &&& t.cells) != 0
    | none => false)

/-- The first instance of the order that can be placed, by R71's rules. -/
def Work.placeable (w : Work) (c : Nat) : List Inst → Option Inst
  | [] => none
  | i :: rest =>
    match i.task? w.dev with
    | none => w.placeable c rest
    | some t =>
      if (w.freeSlot c).isNone ∨ w.landingFree c < t.landing ∨ w.opcFree c < opcPages t.opcache then none
      else if w.heldBack i t ∨ w.dev.cellConflict i t then w.placeable c rest
      else some i

def Dev.waitingAt (d : Dev) (c : Nat) : List Inst :=
  d.orderWaiting (d.insts.filter (fun i => i.cluster == c && i.slot.isNone && decide (i.lo < i.hi)))

/-- Log 51, DEDUCED: taking a slot (R71). -/
def slotTakeWork (c : Nat) (w : Work) : Work :=
  if w.clusterOpen c = false then w
  else
    match w.placeable c (w.dev.waitingAt c), w.freeSlot c with
    | some i, some sl =>
      let w := w.setInst i.iid (fun i => { i with
        slot := some sl, tookAt := w.dev.beat })
      let w := w.setTask i.gid i.ti (fun t => { t with gen := w.gen c sl })
      let w := match i.task? w.dev with
        | some t => w.chooseLayout i t false
        | none => w
      (w.registerCellWait i.iid).startInst i.iid
    | _, _ => w

/-- SLOT_TAKE (R71). -/
def execSlotTake (cluster : Nat) (s : State) : Host.Outcome State Fault Refusal := s.run (slotTakeWork cluster)

/-! ### Release (R67) -/

/-- Instances of a released task: one in every cluster of the pitch, or one (R62 PLACE). -/
def Work.deal (w : Work) (gid ti : Nat) (t : Task) : Work :=
  match w.pitchOfTask gid t with
  | none => w
  | some p =>
    let cs := if t.one then [p.at (t.f 4 1) (t.f 5 1)] else p.clusters
    let id := w.dev.nextId
    let new := cs.mapIdx (fun k c => let (lo, hi) := t.share cs.length k; freshInst (id + k) gid ti k c lo hi)
    w.upd (fun d => { d with insts := d.insts ++ new, nextId := id + cs.length })

/-- An instance that receives no share completes at once (R94): it signals its cell and leaves. -/
def Work.completeEmpty (w : Work) (gid ti : Nat) (t : Task) : Work :=
  let es := w.dev.insts.filter (fun i => i.gid == gid && i.ti == ti && !decide (i.lo < i.hi))
  w.each es (fun i w => (w.cellSignal i t).dropInst i.iid)

/-- R67: release two beats after the last condition is met; PRIMED while a soft predecessor is not DONE. -/
def taskReleaseWork (r : TaskRef) (w : Work) : Work :=
  match w.dev.graph? r.gid with
  | none => w
  | some g =>
    match g.task? r.task with
    | none => w
    | some t =>
      match t.metAt with
      | none => w
      | some b =>
        if t.state ≠ .waiting ∨ t.kind = some .signal then w
        else
          let w := w.passTo (b + 2)
          let primed := !g.softDone r.task
          let w := w.setTask r.gid r.task (fun t => { t with
            state := if primed then .primed else .released, releasedAt := w.dev.beat, metAt := none, dealt := t.hasInstances })
          let w := if t.hasInstances then w.deal r.gid r.task t else w
          let w := if primed then w else w.completeEmpty r.gid r.task t
          w.recheck

/-- TASK_RELEASE (R67). -/
def execTaskRelease (t : TaskRef) (s : State) : Host.Outcome State Fault Refusal := s.run (taskReleaseWork t)

/-- A PRIMED task becomes RELEASED two beats after its last soft predecessor is DONE (R67). -/
def primedReleaseWork (r : TaskRef) (w : Work) : Work :=
  match w.dev.task? r.gid r.task with
  | none => w
  | some t =>
    match t.softAt with
    | none => w
    | some b =>
      if t.state ≠ .primed then w
      else
        let w := w.passTo (b + 2)
        let w := w.setTask r.gid r.task (fun t => { t with state := .released, softAt := none })
        (w.completeEmpty r.gid r.task t).startTask r.gid r.task

/-- PRIMED_RELEASE (R67). -/
def execPrimedRelease (t : TaskRef) (s : State) : Host.Outcome State Fault Refusal := s.run (primedReleaseWork t)

/-! ### Ends of instances (R68, R264, R266) -/

/-- A task whose every instance has issued its last step is DRAINING (R68). -/
def Work.checkDrain (w : Work) (gid ti : Nat) : Work :=
  match w.dev.task? gid ti with
  | none => w
  | some t =>
    if t.state = .active ∧ w.dev.insts.all (fun i => !(i.gid == gid && i.ti == ti) || i.isLane || i.ended) then
      (w.setTask gid ti (fun t => { t with state := .draining })).recheck
    else w

/-- The instance has issued its last execute step. -/
def Work.endInst (w : Work) (iid : Nat) : Work :=
  match w.dev.inst? iid with
  | none => w
  | some i => (w.setInst iid (fun i => { i with ended := true })).checkDrain i.gid i.ti

/-- The instance's writes have committed: its hubs, tiles, stream and scatter entries are done. -/
def Work.committed (w : Work) (i : Inst) : Bool :=
  i.ended && i.comb.isEmpty && i.outTiles.isEmpty && !w.dev.hubs.any (fun h => h.iid == i.iid) && !(w.cluster i.cluster).tiles.any (fun t => t.iid == i.iid)
    && !w.dev.streams.any (fun s => s.iid == i.iid)
    && !w.dev.scat.any (fun e => e.parts.any (fun p => p.1 == i.gid && p.2.1 == i.ti && p.2.2.1 == i.cluster))

/-- Free an instance's slot, pages, waits and matcher. -/
def Work.leave (w : Work) (i : Inst) : Work :=
  let w := w.freePages i
  let w := w.setCluster i.cluster (fun cl => { cl with matchHolder := cl.matchHolder.filter (· != i.iid) })
  let w := w.upd (fun d => { d with sync := { d.sync with cellWaits := d.sync.cellWaits.filter (fun x => x.iid != i.iid) } })
  w.dropInst i.iid

/-- The instance completes: its slot's generation rises, it leaves and signals its cell; the task is DONE with its last one. -/
def instanceCompleteWork (c sl : Nat) (w : Work) : Work :=
  match w.dev.instIn? c sl with
  | none => w
  | some i =>
    match i.task? w.dev with
    | none => w
    | some t =>
      if w.committed i = false ∨ i.stopOrdered ∨ i.isLane then w
      else
        let w := (w.bumpGen c sl).cellSignal i t
        let w := w.leave i
        if w.dev.insts.any (fun j => j.gid == i.gid && j.ti == i.ti && !j.isLane) then w else w.doneTask i.gid i.ti

/-- INSTANCE_COMPLETE (R68, R264, R293). -/
def execInstanceComplete (cluster slot : Nat) (s : State) : Host.Outcome State Fault Refusal :=
  s.run (instanceCompleteWork cluster slot)

/-- After a stop order, the slot's generation rises before the instance stops (R264). -/
def generationBumpWork (c sl : Nat) (w : Work) : Work :=
  match w.dev.instIn? c sl with
  | some i => if i.stopOrdered ∧ i.bumped = false then (w.bumpGen c sl).setInst i.iid (fun i => { i with bumped := true }) else w
  | none => w

/-- GENERATION_BUMP (R264). -/
def execGenerationBump (cluster slot : Nat) (s : State) : Host.Outcome State Fault Refusal := s.run (generationBumpWork cluster slot)

/-- The stopped instance reaches its tile boundary and frees what it holds (R118, R206, R231, R251, R266, R273): a finished
N-panel's tiles have left the epilogue first. -/
def instanceStopWork (c sl : Nat) (w : Work) : Work :=
  match w.dev.instIn? c sl with
  | some i => if i.stopOrdered ∧ i.bumped ∧ i.outTiles = [] then w.leave i else w
  | none => w

/-- INSTANCE_STOP (R266). -/
def execInstanceStop (cluster slot : Nat) (s : State) : Host.Outcome State Fault Refusal := s.run (instanceStopWork cluster slot)

end Sys2Proof.Machine
end

