-- ==== Sys2Proof/Machine/Admission.lean ====
section
/-! DEFINITION. Admission (R63 to R65): reading a submission and everything it names, and the checks of R64 with those of every
task kind (R29, R90, R144, R145, R161, R167, R191, R199, R218 to R223, R248, R271, R292, R376). -/

namespace Sys2Proof.Machine

/-! ### Collecting failures -/

/-- A failed check: its row in the table of R64, its code, the task and the byte offset it names (R66). -/
structure Fail where
  row : Nat
  code : Rej
  task : Nat
  off : Nat
  deriving DecidableEq, Repr

/-- An admission while it reads. Failures are in the order of reading (log 28, DEDUCED). -/
structure Adm where
  w : Work
  ctx : Nat
  fails : List Fail
  deriving Repr

def noTask : Nat := 0xFFFFFFFF

def Adm.fail (a : Adm) (row : Nat) (c : Rej) (task off : Nat) (bad : Bool) : Adm :=
  if bad then { a with fails := a.fails ++ [⟨row, c, task, off⟩] } else a

/-- A check of a task kind's own chapter (the "named format descriptor" row). Its alignment and version checks have rows of
their own (log 28, DEDUCED). -/
def Adm.own (a : Adm) (task off : Nat) (bad : Bool) : Adm := a.fail 7 .range task off bad
def Adm.ownAlign (a : Adm) (task off : Nat) (bad : Bool) : Adm := a.fail 5 .align task off bad

/-- Whether a range translates, faults, or leads into the range of an absent unit (R64). -/
inductive Reach where
  | ok | absent | fault
  deriving DecidableEq, Repr

def Work.reachRange (w : Work) (ctx va n : Nat) (write : Bool) (r : Reader) : Reach × Work :=
  (splitBy 4096 va n).foldl (fun (acc : Reach × Work) (lo, _) =>
    match acc.1 with
    | .fault => acc
    | q =>
      match acc.2.translate ctx lo write r with
      | (none, w) => (.fault, w)
      | (some (.host _), w) => (q, w)
      | (some (.dev a), w) =>
        match w.phys a with
        | .cell _ _ => (q, w)
        | .absent => (.absent, w)
        | .unbacked => (.fault, w)) (.ok, w)

/-- Translate a descriptor address: rows 2 and 9 of R64. -/
def Adm.reach (a : Adm) (va n : Nat) (write : Bool) (task off : Nat) : Bool × Adm :=
  let (q, w) := a.w.reachRange a.ctx va n write ⟨some a.ctx, 0xFFFFFFFF, 0xFFFFFFFF⟩
  let a := { a with w := w }
  match q with
  | .ok => (true, a)
  | .absent => (false, a.fail 9 .absent task off true)
  | .fault => (false, a.fail 2 .context task off true)

/-- Read n bytes that a descriptor is made of; `off` is the field that names the address. A poisoned byte fails row 6. -/
def Adm.read (a : Adm) (va n task off : Nat) : Option (List PByte) × Adm :=
  match a.reach va n false task off with
  | (false, a) => (none, a)
  | (true, a) =>
    match a.w.readVa a.ctx va n ⟨some a.ctx, 0xFFFFFFFF, 0xFFFFFFFF⟩ with
    | (.error _, w) => (none, ({ a with w := w }).fail 2 .context task off true)
    | (.ok l, w) =>
      let a := { a with w := w }
      match (List.range n).find? (fun i => (pbAt l i).2) with
      | some i => (some l, a.fail 6 .range task i true)
      | none => (some l, a)

/-- Reserved bytes, and reserved bits of a byte: the first that is set and not poisoned (R9). -/
def Adm.rsv (a : Adm) (b : List PByte) (task : Nat) (ranges masks : List (Nat × Nat)) : Adm :=
  let bad (i m : Nat) : Bool := let x := pbAt b i
    !x.2 && decide (x.1.toNat &&& m ≠ 0)
  let bytes := (ranges.flatMap (fun (o, n) => (List.range n).map (fun k => (o + k, 255)))) ++ masks
  match bytes.find? (fun (o, m) => bad o m) with
  | some (o, _) => a.fail 4 .reserved task o true
  | none => a

/-- Alignment of an address field of n bytes at `off`, on a row of R64. -/
def Adm.al (a : Adm) (row : Nat) (b : List PByte) (task off n m : Nat) : Adm :=
  a.fail row .align task off (decide (pbNat b off n % m ≠ 0) && !pbPoison b off n)

/-! ### Format descriptors -/

/-- R38: reserved bytes, BASE, and the ranges; `feature` for feature rows (R33). The bytes, when they could be read. -/
def Adm.tableDesc (a : Adm) (va task off : Nat) (feature : Bool) : Option (List Byte) × Adm :=
  match a.read va 32 task off with
  | (none, a) => (none, a)
  | (some b, a) =>
    let a := a.rsv b task [(15, 1), (20, 12)] []
    let a := a.al 5 b task 0 8 64
    let l := b.map (·.1)
    let f := fmtOf (pbNat b 14 1)
    let n := pbNat b 12 2
    let st := pbNat b 16 4
    let a := a.own task 8 (decide (pbNat b 8 4 = 0))
    let a := a.own task 14 (f.isNone || (feature && (f.map Fmt.isCode).getD false))
    let a := a.own task 12 (decide (n = 0) || decide (4096 < n) || !((f.map (fun f => f.countOk n)).getD true))
    let a := a.own task 16 (decide (st % 4 ≠ 0) || decide (65536 < st) || (f.map (fun f => decide (st < f.rowBytes n))).getD false)
    (some l, a)

/-- R92. `expand`: EXPAND is not NONE. -/
def Adm.listDesc (a : Adm) (va task off : Nat) (expand : Bool) : Option (List Byte) × Adm :=
  match a.read va 32 task off with
  | (none, a) => (none, a)
  | (some b, a) =>
    let a := a.rsv b task [] [(31, 0xF8)]
    let a := ((a.al 5 b task 0 8 8).al 5 b task 8 8 4).al 5 b task 16 8 4
    let l := b.map (·.1)
    let w := pbNat b 8 8
    let sg := pbNat b 16 8
    let c := pbNat b 24 4
    let f := pbNat b 28 4
    let sc := fieldN f 23 0
    let a := a.own task 24 (decide (c = 0) || decide (16777216 < c))
    let a := a.own task 8 (expand && decide (w ≠ 0))
    let a := a.own task 16 (expand && decide (sg ≠ 0))
    let a := a.own task 28 (if sg = 0 then decide (sc ≠ 0)
      else !(decide (1 ≤ sc) && decide (sc ≤ c)) && !(decide (sc = 0) && decide (c = 16777216)))
    let a := a.own task 28 (decide (fieldN f 26 25 = 0) != decide (w = 0))
    (some l, a)

/-- R23. -/
def Adm.topoDesc (a : Adm) (va task off : Nat) : Option (List Byte) × Adm :=
  match a.read va 64 task off with
  | (none, a) => (none, a)
  | (some b, a) =>
    let a := a.rsv b task [(42, 2), (46, 2), (56, 8)] [(40, 0xF0), (45, 0xF0)]
    let a := (((a.al 5 b task 0 8 256).al 5 b task 8 8 256).al 5 b task 16 8 256).al 5 b task 24 8 256
    let l := b.map (·.1)
    let v := pbNat b 32 4
    let a := a.own task 16 (decide (fieldN (pbNat b 40 1) 2 1 = 0) != decide (pbNat b 16 8 = 0))
    let a := a.own task 32 (decide (v = 0))
    let a := a.own task 36 (decide (v < pbNat b 36 4))
    let a := a.own task 41 (decide (pbNat b 41 1 < 8) || decide (20 < pbNat b 41 1))
    let a := a.own task 48 (decide (2 ^ 48 ≤ pbNat b 48 8))
    (some l, a)

/-- A Shelf directory named by a task: its header, and that all of it lies in SRAM with READ and WRITE (R167). -/
def Adm.dirDesc (a : Adm) (va task off : Nat) : Option (List Byte) × Adm :=
  let (q, w) := a.w.reachRange a.ctx va 64 false ⟨some a.ctx, 0xFFFFFFFF, 0xFFFFFFFF⟩
  let a := { a with w := w }
  match if q = .ok then a.read va 64 task off else (none, a.own task off true) with
  | (none, a) => (none, a)
  | (some b, a) =>
    let l := b.map (·.1)
    if b.any (·.2) then (none, a)
    else if dirVersionBad l then (none, a.fail 3 .version task 0 true)
    else
      let a := a.rsv b task [(3, 61)] [(2, 0xFE)]
      let a := a.own task 1 (dirRangeBad l)
      if dirRangeBad l then (some l, a)
      else
        let (ok, w) := a.w.dirOk a.ctx va (byteAt l 1) ⟨some a.ctx, 0xFFFFFFFF, 0xFFFFFFFF⟩
        (some l, ({ a with w := w }).own task off (!ok))

/-- R91. -/
def Adm.frontierDesc (a : Adm) (va task off : Nat) : Option (List Byte) × Adm :=
  match a.read va 64 task off with
  | (none, a) => (none, a)
  | (some b, a) =>
    let l := b.map (·.1)
    if b.any (·.2) then (none, a)
    else if pbNat b 0 1 ≠ 1 then (none, a.fail 3 .version task 0 true)
    else
      let a := a.rsv b task [(5, 3), (40, 24)] [(4, 0xFC)]
      let a := (a.al 5 b task 8 8 32).al 5 b task 32 8 64
      let e := pbNat b 1 1
      let fo := pbNat b 2 2
      let a := a.own task 1 (decide (2 < e))
      let a := a.own task 2 (if e = 2 then decide (fo = 0) || decide (1024 < fo) else decide (fo ≠ 0))
      let a := a.own task 16 (decide (e = 0) != decide (pbNat b 16 8 = 0))
      let a := a.own task 32 (decide (e ≠ 2) && decide (pbNat b 32 8 ≠ 0))
      (some l, a)

/-! ### Task bodies -/

/-- What a task's checks know: its index, its descriptor's bytes, its pitch. -/
structure TaskIn where
  ti : Nat
  b : List PByte
  pitch : Option Pitch
  deriving Repr

def TaskIn.f (t : TaskIn) (off n : Nat) : Nat := pbNat t.b off n
def TaskIn.one (t : TaskIn) : Bool := t.f 3 1 % 2 == 1
def TaskIn.landingBytes (t : TaskIn) : Nat := t.f 32 2 * 1024

/-- A descriptor's bytes, empty where it could not be read. -/
def orEmpty (o : Option (List Byte)) : List Byte := o.getD []

/-- OUT_STRIDE and OUT_FORMAT of R89 and R160, with the table's ELEMENTS where they are known. -/
def Adm.outRows (a : Adm) (t : TaskIn) (fmtOff strideOff : Nat) (n : Option Nat) : Adm :=
  let f := fmtOf (t.f fmtOff 1)
  let st := t.f strideOff 4
  let a := a.own t.ti fmtOff (f.isNone || (f.map Fmt.isCode).getD false || (match f, n with
    | some f, some n => !f.countOk n
    | _, _ => false))
  a.own t.ti strideOff (decide (st % 4 ≠ 0) || decide (65536 < st) || (match f, n with
    | some f, some n => decide (st < f.rowBytes n)
    | _, _ => false))

/-- GATHER (R29, R89 to R92, R167). -/
def Adm.gatherTask (a : Adm) (t : TaskIn) : List (Nat × List Byte) × Adm :=
  let ti := t.ti
  let a := a.rsv t.b ti [(97, 1), (110, 18)] [(95, 0xF0)]
  let a := ((a.al 7 t.b ti 64 8 64).al 7 t.b ti 72 8 32).al 7 t.b ti 80 8 64
  let a := a.al 7 t.b ti 100 8 64
  let mode := t.f 92 1
  let red := t.f 93 1
  let ws := t.f 96 1
  let pr := t.f 98 2
  let rt := t.f 108 2
  let u32 : Bool := fieldN (t.f 95 1) 3 3 == 1
  let a := a.own ti 92 (decide (3 < mode))
  let a := a.own ti 93 (decide (4 < red))
  let a := a.own ti 96 (decide (ws ≠ 0) && (decide (ws < 8) || decide (20 < ws)))
  let a := a.own ti 98 (decide (pr ≠ 0) && (decide (pr < 8) || decide (4096 < pr)))
  let a := a.own ti 108 (decide (4096 ≤ rt) && decide (rt ≠ 0xFFFF))
  let (tb, a) := a.tableDesc (t.f 72 8) ti 72 true
  let (fr, a) := a.frontierDesc (t.f 64 8) ti 64
  let fb := orEmpty fr
  let ex := byteAt fb 1
  let ew : Bool := fieldN (byteAt fb 4) 0 0 == 1
  let (ls, a) := if fr.isSome then a.listDesc (bytesAt fb 8 8) ti 8 (decide (ex ≠ 0)) else (none, a)
  let (tp, a) := if fr.isSome && decide (bytesAt fb 16 8 ≠ 0) then a.topoDesc (bytesAt fb 16 8) ti 16 else (none, a)
  let lw : Bool := decide (bytesAt (orEmpty ls) 8 8 ≠ 0)
  let gidw : Bool := fieldN (bytesAt (orEmpty ls) 28 4) 24 24 == 1
  let a := a.own ti 4 (ew && (decide (ex = 0) || (tp.map (fun b => decide (fieldN (byteAt b 40) 2 1 = 0))).getD false))
  let a := a.own ti 96 ((tp.map (fun b => decide ((if ws = 0 then 12 else ws) < byteAt b 41))).getD false)
  let tf := tb.bind (fun b => fmtOf (byteAt b 14))
  let of := fmtOf (t.f 94 1)
  let scat : Bool := decide (mode ≠ 0)
  let a := a.own ti 93 (!scat && ((decide (red = 0) && decide (ex ≠ 0)) || (decide (red = 4) && !lw && !ew && ls.isSome)
    || ((lw || ew) && decide (red ≠ 4))))
  let a := a.own ti 4 (scat && ew)
  let a := a.own ti 93 (scat && decide (red ≠ 0))
  let a := a.own ti 1 (scat && decide (ex ≠ 0))
  let a := a.own ti 28 (scat && gidw)
  let a := a.own ti 100 (scat && decide (t.f 100 8 ≠ 0))
  let a := a.own ti 108 (scat && decide (rt ≠ 0xFFFF))
  let a := a.own ti 92 (decide (mode = 1) && tb.isSome && !(tf = some .fp32 || tf = some .bf16 || tf = some .fp16))
  let a := a.own ti 92 (decide (2 ≤ mode) && (lw || (tb.isSome && decide (tf ≠ of))))
  let a := a.own ti 95 (u32 && (!scat || decide (tf ≠ some .fp32) || decide (of ≠ some .fp32)))
  let a := a.outRows t 94 88 (tb.map (fun b => bytesAt b 12 2))
  let a := match tb, tf with
    | some b, some _ =>
      let T := tableOf b
      let need := if scat then max (2 * T.slot) (2 * combSize T (if mode = 1 then .add else .min)) else 2 * T.slot
      a.own ti 32 (decide (t.landingBytes < need))
    | _, _ => a
  let (sd, a) := if t.f 100 8 = 0 then (none, a) else a.dirDesc (t.f 100 8) ti 100
  ([(fmtFrontier, fb), (fmtList, orEmpty ls), (fmtTopo, orEmpty tp), (fmtTable, orEmpty tb), (fmtDir, orEmpty sd)], a)

/-- ELEMENTS and ROW_STRIDE of an embedding table as it stands now, where its head and descriptor can be read (log 29, DEDUCED). -/
def Adm.embedElements (a : Adm) (local_ : Nat) : Option (Nat × Nat) × Adm :=
  let (r, w) := a.w.readTable a.ctx local_ false ⟨some a.ctx, 0xFFFFFFFF, 0xFFFFFFFF⟩
  ((r.toOption).map (fun p => (bytesAt p.1 12 2, bytesAt p.1 16 4)), { a with w := w })

/-- EMBED_BAG (R160, R161). -/
def Adm.embedTask (a : Adm) (t : TaskIn) : List (Nat × List Byte) × Adm :=
  let ti := t.ti
  let a := a.rsv t.b ti [(92, 36)] [(69, 0xFC)]
  let a := (a.al 7 t.b ti 72 8 32).al 7 t.b ti 80 8 64
  let bm := t.f 66 1
  let pool := t.f 67 1
  let pr := t.f 70 2
  let cnt := a.w.rf pgEb .ebTables 30 16 a.ctx
  let a := a.own ti 64 (decide (cnt ≤ t.f 64 2))
  let a := a.own ti 66 (decide (1 < bm))
  let a := a.own ti 67 (decide (4 < pool))
  let a := a.own ti 70 (decide (pr ≠ 0) && (decide (pr < 8) || decide (4096 < pr)))
  let (ls, a) := a.listDesc (t.f 72 8) ti 72 false
  let lw : Bool := decide (bytesAt (orEmpty ls) 8 8 ≠ 0)
  let a := a.own ti 28 (fieldN (bytesAt (orEmpty ls) 28 4) 24 24 == 1)
  let a := a.own ti 67 (decide (bm = 0) && ls.isSome && ((decide (pool = 4) && !lw) || (decide (pool ≠ 4) && lw)))
  let of := fmtOf (t.f 68 1)
  let a := a.own ti 67 (decide (bm = 1) && decide (pool ≠ 0))
  let a := a.own ti 68 (decide (bm = 1) && !(of = some .fp32 || of = some .bf16 || of = some .fp16))
  let (n, a) := if t.f 64 2 < cnt then a.embedElements (t.f 64 2) else (none, a)
  let a := a.outRows t 68 88 (n.map (·.1))
  let a := match of, n with
    | some f, some (n, stride) =>
      let need := 2 * slotSize (f.rowBytes n) stride
      let c := 64 * ceilDiv (n * 4) 64
      a.own ti 32 (decide (t.landingBytes < if bm = 1 then max need (2 * c) else need))
    | _, _ => a
  ([(fmtList, orEmpty ls)], a)

/-- Finite FP32 bits. -/
def finite32 (x : Nat) : Bool := decide (fieldN x 30 23 ≠ 255)

/-- R199. -/
def Adm.predDesc (a : Adm) (va ti off predict : Nat) : Option (List Byte) × Adm :=
  match a.read va 64 ti off with
  | (none, a) => (none, a)
  | (some b, a) =>
    if b.any (·.2) then (none, a)
    else if pbNat b 0 1 ≠ 1 then (none, a.fail 3 .version ti 0 true)
    else
      let a := a.rsv b ti [(1, 3), (12, 4), (40, 24)] []
      let a := ((a.al 5 b ti 16 8 64).al 5 b ti 24 8 64).al 5 b ti 32 8 64
      let mg := pbNat b 8 4
      let a := a.own ti 4 (!finite32 (pbNat b 4 4))
      let a := a.own ti 8 (if predict = 2 then decide (mg ≠ 0) else !finite32 mg || (decide (2 ^ 31 < mg)))
      let a := a.own ti 32 (decide (predict = 2) && decide (pbNat b 32 8 ≠ 0))
      (some (b.map (·.1)), a)

/-- TRANSFORM (R190, R191, R199). -/
def Adm.transformTask (a : Adm) (t : TaskIn) : List (Nat × List Byte) × Adm :=
  let ti := t.ti
  let a := a.rsv t.b ti [] [(117, 0xFC)]
  let a := ((a.al 7 t.b ti 64 8 64).al 7 t.b ti 72 8 64).al 7 t.b ti 80 8 64
  let a := (a.al 7 t.b ti 88 8 64).al 7 t.b ti 96 8 64
  let m := t.f 104 4
  let k := t.f 108 2
  let n := t.f 110 2
  let dim (x : Nat) : Bool := decide (x % 32 ≠ 0) || decide (x < 32) || decide (4096 < x)
  let op (o : Nat) : Bool := !((fmtOf (t.f o 1)).map Fmt.arrayOperand).getD false
  let pd := t.f 116 1
  let act := t.f 115 1
  let cap := t.f 118 2
  let a := a.own ti 104 (decide (m = 0) || decide (16777216 < m))
  let a := a.own ti 108 (dim k)
  let a := a.own ti 110 (dim n)
  let a := a.own ti 112 (op 112)
  let a := a.own ti 113 (op 113)
  let a := a.own ti 114 (!((fmtOf (t.f 114 1)).map Fmt.featureRow).getD false)
  let a := a.own ti 115 (decide (2 < act))
  let a := a.own ti 116 (decide (2 < pd))
  let a := a.own ti 118 (if act = 2 then decide (cap = 0) || decide (2 ^ 15 ≤ cap) || decide (fieldN cap 14 10 = 31) else decide (cap ≠ 0))
  let xt : Bool := fieldN (t.f 117 1) 0 0 == 1
  let yt : Bool := fieldN (t.f 117 1) 1 1 == 1
  let stride (o : Nat) (tiled : Bool) (f : Option Fmt) (e : Nat) : Bool :=
    let s := t.f o 4
    if tiled then decide (s ≠ 0)
    else decide (s % 4 ≠ 0) || decide (65536 < s) || (f.map (fun f => decide (s < f.rowBytes e))).getD false
  let a := a.own ti 120 (stride 120 xt (fmtOf (t.f 112 1)) k)
  let a := a.own ti 124 (stride 124 yt (fmtOf (t.f 114 1)) n)
  let a := a.own ti 116 (decide (pd ≠ 0) && decide (act = 0))
  let a := a.own ti 116 (decide (pd = 2) && !yt)
  let a := a.own ti 96 (decide (pd = 0) != decide (t.f 96 8 = 0))
  let (p, a) := if pd ≠ 0 ∧ t.f 96 8 ≠ 0 then a.predDesc (t.f 96 8) ti 96 pd else (none, a)
  let x : Task := { desc := t.b.map (·.1), fmts := [], state := .waiting, metAt := none, softAt := none, releasedAt := 0,
                    waitRegistered := false, waitMet := false, waitPhys := 0, dealt := false, launchTaken := false, launched := false,
                    orderAt := 0, launchBeat := 0, span := 0, gen := 0, signalDue := none, err := 0, doneAt := 0 }
  let a := a.own ti 32 (!dim k && !dim n && !op 112 && !op 113 && !x.xform.fits x pd false false 64)
  let a := a.fail 9 .absent ti 116 (decide (pd ≠ 0) && !a.w.variant.hasSparse)
  ([(fmtPred, orEmpty p)], a)

/-! ### VECTOR (R214 to R223) -/

/-- Compute types that an operation allows: FP32, BF16, U32. -/
def opCtypes (op : Nat) : List Nat :=
  if op ∈ [0x01, 0x02, 0x03, 0x06, 0x07, 0x21, 0x32] then [0, 1, 2]
  else if op ∈ [0x04, 0x05, 0x09, 0x0A, 0x20, 0x22, 0x30, 0x34] then [0, 1]
  else if op ∈ [0x0B, 0x0C, 0x0D, 0x0E, 0x31, 0x35] then [0]
  else if op ∈ [0x0F, 0x10, 0x33, 0x36, 0x40, 0x41] then [0, 2]
  else []

def opSegmented (op : Nat) : Bool := decide (0x30 ≤ op) && decide (op ≤ 0x36)
def opElementwise (op : Nat) : Bool := decide (1 ≤ op) && decide (op ≤ 0x10)
def opReduction (op : Nat) : Bool := decide (0x20 ≤ op) && decide (op ≤ 0x22)
def opAccum (op : Nat) : Bool := op ∈ [0x20, 0x21, 0x22, 0x30, 0x32, 0x33, 0x34]
def opDyn0 (op : Nat) : Bool := opElementwise op || opReduction op

/-- An operand of an operation: its space, format, base, strides. -/
structure OpdIn where
  space : Nat
  fmt : Nat
  base : Nat
  strides : List Nat
  deriving DecidableEq, Repr

def opdAt (b : List Byte) (k : Nat) : OpdIn :=
  ⟨fieldN (byteAt b 6) (2 * k + 1) (2 * k), byteAt b (3 + k), bytesAt b (40 + 24 * k) 8,
   (List.range 4).map (fun i => bytesAt b (48 + 24 * k + 4 * i) 4)⟩

/-- GROUP of an operation (0 reads as 1). -/
def opGroup (b : List Byte) : Nat := if bytesAt b 32 2 = 0 then 1 else bytesAt b 32 2
def opCount (b : List Byte) (k : Nat) : Nat := bytesAt b (8 + 4 * k) 4

/-- Elements of a run of operand k (0 A, 1 B, 2 D) when the run is n long (R216). -/
def runLen (b : List Byte) (k n : Nat) : Nat :=
  let op := byteAt b 0
  if k = 0 then n
  else if k = 1 then (if opReduction op then n else ceilDiv n (opGroup b))
  else if opReduction op then ceilDiv n (opGroup b) else n

/-- Rows of operand k along dimension 1 (R221). -/
def opRows (b : List Byte) (k : Nat) : Nat :=
  let op := byteAt b 0
  if opSegmented op then
    let imm := bytesAt b 28 4
    if op = 0x36 then (if k = 0 then imm else opCount b 1)
    else if op = 0x35 then opCount b 1
    else if k = 2 then imm else opCount b 1
  else opCount b 1

/-- Starts of the runs of an operand in the operand cache; a stride of 0 repeats a start. -/
def runStarts (b : List Byte) (k count4 : Nat) : List Int :=
  let o := opdAt b k
  let dims := (opRows b k :: [opCount b 2, opCount b 3, count4]).zip o.strides
  dims.foldl (fun acc (c, s) => if s = 0 then acc else acc.flatMap (fun x => (List.range c).map (fun (i : Nat) => x + s32 s * (i : Int)))) [(o.base : Int)]

/-- Lowest start and highest end of an operand's runs. -/
def runSpan (b : List Byte) (k count4 : Nat) : Int × Int :=
  let o := opdAt b k
  let len := (((fmtOf o.fmt).getD .fp32).rowBytes (runLen b k (opCount b 0)) : Int)
  let dims := (opRows b k :: [opCount b 2, opCount b 3, count4]).zip o.strides
  let lo := dims.foldl (fun a (c, s) => a + min 0 (s32 s * ((c : Int) - 1))) (o.base : Int)
  let hi := dims.foldl (fun a (c, s) => a + max 0 (s32 s * ((c : Int) - 1))) (o.base : Int)
  (lo, hi + len)

/-- D overlaps another operand in the operand cache. -/
def overlaps (b : List Byte) (k count4 : Nat) : Bool :=
  let len (j : Nat) : Int := (((fmtOf (opdAt b j).fmt).getD .fp32).rowBytes (runLen b j (opCount b 0)) : Int)
  (runStarts b k count4).any (fun x => (runStarts b 2 count4).any (fun y => decide (x < y + len 2) && decide (y < x + len k)))

/-- The ALIGN failure of one operand (R218). -/
def opdMisaligned (o : OpdIn) : Bool :=
  if o.space = 1 then decide (o.base % 4 ≠ 0)
  else if o.space = 2 then
    let m := if o.fmt = 2 then 2 else 4
    decide (o.base % m ≠ 0) || o.strides.any (fun s => decide (s % m ≠ 0))
  else false

/-- The rules of R33 and R215 on an operand's format. -/
def opdFormatBad (b : List Byte) (k : Nat) : Bool :=
  let o := opdAt b k
  match fmtOf o.fmt with
  | none => true
  | some f =>
    (f.isCode && !(k == 0 && o.space == 1)) || (o.space == 2 && !(f == .fp32 || f == .bf16))
      || (byteAt b 2 == 2 && f != .fp32) || (o.space != 3 && !f.countOk (runLen b k (opCount b 0)))

/-- One operation. `share`: the largest share of dimension 4 under R213. -/
def Adm.vectorOp (a : Adm) (t : TaskIn) (p : List PByte) (share : Nat) : Adm :=
  let ti := t.ti
  let b := p.map (·.1)
  let a := a.rsv p ti [(34, 2), (120, 8)] [(1, 0xF8), (7, 0xF0)]
  let op := byteAt b 0
  let fl := byteAt b 1
  let split : Bool := fieldN fl 0 0 == 1
  let accum : Bool := fieldN fl 1 1 == 1
  let dyn : Bool := fieldN fl 2 2 == 1
  let usesB := opReadsB op
  let A := opdAt b 0
  let B := opdAt b 1
  let D := opdAt b 2
  let aux := fieldN (byteAt b 6) 7 6
  let seg := opSegmented op
  let known (o n : Nat) : Bool := !pbPoison p 0 8 && !pbPoison p o n
  let a := a.ownAlign ti 40 (known 40 24 && opdMisaligned A)
  let a := a.ownAlign ti 64 (known 64 24 && usesB && opdMisaligned B)
  let a := a.ownAlign ti 88 (known 88 24 && opdMisaligned D)
  let a := a.ownAlign ti 112 (known 112 8 && seg && aux == 1 && decide (bytesAt b 112 8 % 4 ≠ 0))
  let ct := opCtypes op
  let a := a.own ti 0 (ct == [])
  let a := a.own ti 2 (!ct.contains (byteAt b 2))
  let a := a.own ti 8 (decide (opCount b 0 = 0) || decide (65536 < opCount b 0))
  let a := (List.range 4).foldl (fun a k =>
    a.own ti (12 + 4 * k) (decide (opCount b (k + 1) = 0) || decide (16777216 < opCount b (k + 1)))) a
  let a := a.own ti 32 (decide (4096 < bytesAt b 32 2) || decide (opCount b 0 % opGroup b ≠ 0))
  let a := a.own ti 6 (A.space == 0 || (usesB != (B.space != 0)) || !(D.space == 1 || D.space == 2)
    || (if seg then !(aux == 1 || aux == 2) else aux != 0))
  let a := a.own ti 3 (opdFormatBad b 0)
  let a := a.own ti 4 (usesB && opdFormatBad b 1)
  let a := a.own ti 5 (opdFormatBad b 2)
  let a := a.own ti 1 (split && (decide (t.f 76 4 = 0) || decide (opCount b 4 ≠ t.f 76 4)))
  let a := a.own ti 1 (accum && !(opAccum op && D.space == 2 && D.fmt == 1))
  let a := a.own ti 1 (dyn && !opDyn0 op)
  let imm := bytesAt b 28 4
  let a := a.own ti 28 (seg && (decide (imm = 0) || decide (16777216 < imm)))
  let a := a.own ti 1 (seg && split)
  let a := a.own ti 16 (seg && !(opCount b 2 == 1 && opCount b 3 == 1 && opCount b 4 == 1))
  let c4 := if split then share else opCount b 4
  let lim : Int := (ceilDiv (t.f 34 2) 16 * 16384 : Nat)
  let out (k : Nat) : Bool := let s := runSpan b k c4
    decide (s.1 < 0) || decide (lim < s.2)
  let a := a.own ti 40 (A.space == 2 && out 0)
  let a := a.own ti 64 (usesB && B.space == 2 && out 1)
  let a := a.own ti 88 (D.space == 2 && out 2)
  let a := a.own ti 112 (seg && aux == 2 && decide (lim < bytesAt b 112 8 + 4 * (imm + 1)))
  let runs := opCount b 1 * opCount b 2 * opCount b 3 * c4
  let a := a.own ti 36 ((op == 0x40 || dyn) && decide (lim < bytesAt b 36 4 + 4 * runs))
  let same (o : OpdIn) : Bool := (opElementwise op || op == 0x35) && o.base == D.base && o.strides == D.strides && o.fmt == D.fmt
  let clash (k : Nat) (o : OpdIn) : Bool := D.space == 2 && o.space == 2 && !same o && !out k && !out 2 && overlaps b k c4
  a.own ti 88 (clash 0 A || (usesB && clash 1 B))

/-- VECTOR (R212, R218). -/
def Adm.vectorTask (a : Adm) (t : TaskIn) : List (Nat × List Byte) × Adm :=
  let ti := t.ti
  let a := a.rsv t.b ti [(74, 2), (88, 40)] []
  let a := (a.al 7 t.b ti 64 8 128).al 7 t.b ti 80 8 64
  let ops := t.f 72 2
  let st := t.f 76 4
  let a := a.own ti 72 (decide (ops = 0) || decide (256 < ops))
  let a := a.own ti 76 (decide (16777216 < st))
  if ops = 0 ∨ 256 < ops then ([], a)
  else
    match a.read (t.f 64 8) (128 * ops) ti 64 with
    | (none, a) => ([], a)
    | (some l, a) =>
      let p := if t.one then 1 else (t.pitch.map (fun q => q.wd * q.ht)).getD 1
      let share := min st (ceilDiv st p)
      let a := (List.range ops).foldl (fun a k => a.vectorOp t ((l.drop (128 * k)).take 128) share) a
      ([(fmtProg, l.map (·.1))], a)

/-! ### MATCH, COPY, COLLECTIVE -/

/-- MATCH (R247, R248). -/
def Adm.matchTask (a : Adm) (t : TaskIn) : List (Nat × List Byte) × Adm :=
  let ti := t.ti
  let a := a.rsv t.b ti [(97, 1), (100, 28)] []
  let a := ((a.al 7 t.b ti 72 8 32).al 7 t.b ti 80 8 64).al 7 t.b ti 88 8 64
  let mm := t.f 96 1
  let em := t.f 98 2
  let emit := t.f 88 8
  let a := a.own ti 96 (decide (1 < mm))
  let a := a.own ti 98 (decide (4096 < em) || (decide (em = 0) != decide (emit = 0)))
  let a := a.own ti 88 (decide (mm = 1) && decide (emit ≠ 0))
  let (tp, a) := a.topoDesc (t.f 64 8) ti 64
  let a := a.own ti 40 ((tp.map (fun b => decide (fieldN (byteAt b 40) 3 3 = 0) || decide (fieldN (byteAt b 40) 0 0 = 1))).getD false)
  let (ls, a) := a.listDesc (t.f 72 8) ti 72 false
  let a := match ls with
    | none => a
    | some b =>
      let a := a.own ti 28 (fieldN (bytesAt b 28 4) 24 24 == 1)
      let a := a.own ti 8 (decide (bytesAt b 8 8 ≠ 0))
      let a := a.own ti 16 (decide (bytesAt b 16 8 ≠ 0))
      a.own ti 24 (decide (mm = 0) && decide (bytesAt b 24 4 % 2 = 1))
  let a := a.own ti 32 (decide (t.f 32 2 < 128))
  let a := a.fail 9 .absent ti 0 (!a.w.variant.hasSparse)
  ([(fmtTopo, orEmpty tp), (fmtList, orEmpty ls)], a)

/-- A stream descriptor (R144, R145). -/
def Adm.streamDesc (a : Adm) (va ti off : Nat) : List (Nat × List Byte) × Adm :=
  match a.read va 64 ti off with
  | (none, a) => ([], a)
  | (some b, a) =>
    if b.any (·.2) then ([], a)
    else if pbNat b 0 1 ≠ 1 then ([], a.fail 3 .version ti 0 true)
    else
      let a := a.rsv b ti [(31, 1), (36, 28)] [(30, 0xFE)]
      let a := ((a.al 5 b ti 8 8 32).al 5 b ti 16 8 4).al 5 b ti 24 4 64
      let a := a.own ti 1 (decide (1 < pbNat b 1 1))
      let rows := pbNat b 4 4
      let a := a.own ti 4 (decide (rows = 0) || decide (49152 < rows))
      let a := a.own ti 28 (decide (pbNat b 28 2 = 0) || decide (256 < pbNat b 28 2))
      let remote : Bool := fieldN (pbNat b 30 1) 0 0 == 1
      let a := a.own ti 32 (if remote then decide (256 ≤ pbNat b 32 2) else decide (pbNat b 32 2 ≠ 0))
      let a := a.own ti 34 (decide (pbNat b 34 2 = 0))
      let (tb, a) := a.tableDesc (pbNat b 8 8) ti 8 true
      let a := match tb with
        | some x => a.own ti 24 (decide (3145728 < pbNat b 24 4 + rows * (tableOf x).slot))
        | none => a
      ([(fmtStream, b.map (·.1)), (fmtTable, orEmpty tb)], a)

/-- COPY (R271). -/
def Adm.copyTask (a : Adm) (t : TaskIn) : List (Nat × List Byte) × Adm :=
  let ti := t.ti
  let a := a.rsv t.b ti [(73, 3), (80, 48)] []
  let cm := t.f 72 1
  let n := t.f 76 4
  let a := a.al 7 t.b ti 64 8 (if cm = 1 then 64 else 32)
  let a := a.own ti 72 (decide (1 < cm))
  let a := a.own ti 76 (if cm = 1 then decide (n ≠ 0) else decide (n = 0) || decide (1048576 < n))
  let a := a.own ti 3 (decide (cm = 1) && !t.one)
  let a := a.own ti 32 (decide (t.f 32 2 < 64))
  if cm = 1 then a.streamDesc (t.f 64 8) ti 64 else ([], a)

/-- Register k of an Exchange group (R388): 0 CFG, 1 ID, 2 SIZE, 3 MEM_LO, 4 MEM_HI. -/
def Work.grp (w : Work) (g k : Nat) : Word := look 0 (g * 8 + k) w.dev.exch.groupRegs
def Work.grpValid (w : Work) (g : Nat) : Bool := bitOf (w.grp g 0) 31
def Work.grpOwner (w : Work) (g : Nat) : Nat := fld (w.grp g 0) 28 24
def Work.grpGen (w : Work) (g : Nat) : Nat := fld (w.grp g 0) 15 0
def Work.grpId (w : Work) (g : Nat) : Nat := fld (w.grp g 1) 15 0
def Work.grpSize (w : Work) (g : Nat) : Nat := fld (w.grp g 2) 28 16
def Work.grpRank (w : Work) (g : Nat) : Nat := fld (w.grp g 2) 11 0

/-- COLLECTIVE (R375, R376). -/
def Adm.collTask (a : Adm) (t : TaskIn) : List (Nat × List Byte) × Adm :=
  let ti := t.ti
  let a := a.rsv t.b ti [(69, 1), (106, 22)] [(68, 0xFE)]
  let cop := t.f 65 1
  let rop := t.f 66 1
  let f := t.f 67 1
  let u32 : Bool := fieldN (t.f 68 1) 0 0 == 1
  let a := ((a.al 7 t.b ti 72 8 64).al 7 t.b ti 80 8 64).al 7 t.b ti 92 8 32
  let halo := decide (cop = 5)
  let els := t.f 88 4
  let a := a.own ti 65 (decide (cop = 0) || decide (5 < cop))
  let a := a.own ti 66 (decide (3 < rop) || ((cop == 1 || cop == 2) && rop == 0) || ((cop == 3 || cop == 4) && rop != 0))
  let a := a.own ti 67 (decide (f ≠ 1 ∧ f ≠ 2))
  let a := a.own ti 68 (u32 && (f == 2 || rop == 1))
  let root := t.f 70 2
  let a := a.own ti 70 (if cop = 4 then decide (a.w.grpSize (t.f 64 1) ≤ root) else decide (root ≠ 0))
  let a := a.own ti 88 (if halo then decide (els ≠ 0) else decide (els < 32) || decide (268435456 < els) || decide (els % 32 ≠ 0))
  let a := a.own ti 92 (!halo && decide (t.f 92 8 ≠ 0))
  let a := a.own ti 100 (if halo then decide (t.f 100 4 = 0) || decide (65536 < t.f 100 4) else decide (t.f 100 4 ≠ 0))
  let a := a.own ti 104 (if halo then decide (4095 < t.f 104 2) else decide (t.f 104 2 ≠ 0))
  let a := a.own ti 3 (!t.one)
  let a := a.own ti 4 (decide (t.f 4 2 ≠ 0))
  let a := a.own ti 32 (decide (t.f 32 4 ≠ 0))
  let a := a.own ti 40 (decide (t.f 40 6 ≠ 0))
  let bytes := els * (if f = 2 then 2 else 4)
  let g := t.f 64 1
  let srcBytes := if cop = 2 then bytes * a.w.grpSize g else bytes
  let a := a.own ti 80 ((cop == 1 || cop == 2) && decide (t.f 72 8 < t.f 80 8 + bytes) && decide (t.f 80 8 < t.f 72 8 + srcBytes))
  ([], a.fail 7 .context ti 64 (!(a.w.grpValid g && a.w.grpOwner g == a.ctx)))

/-! ### Task headers -/

/-- The translation entry of an object ID of a context (R281 to R283): none when the ID is unmapped. -/
def Work.objEntry (w : Work) (ctx id : Nat) : Option Nat × Work :=
  let hi := w.reg pgSy .syXlateHi ctx
  let lo := w.reg pgSy .syXlateLo ctx
  if fld hi 31 12 ≤ id ∨ bitOf lo 0 = false then (none, w)
  else
    let base := fld lo 31 3 * 8 + fld hi 11 0 * 2 ^ 32
    let va := base + 8 * id
    let held := look [] (ctx * 2 ^ 48 + va) w.dev.sync.held
    let ((v, isNew), w) := w.cachedEntry held (fun w =>
      match w.readVa ctx va 8 ⟨some ctx, 0xFFFFFFFF, 0xFFFFFFFF⟩ with
      | (.error _, w) => (none, w)
      | (.ok l, w) => (if l.any (·.2) then none else some (pbNat l 0 8), w))
    (v, w.whenB isNew (fun w => w.upd (fun d => { d with
      sync := { d.sync with held := put [] (ctx * 2 ^ 48 + va) (holdEntry v held) d.sync.held } })))

/-- Where an object ID leads (R283): a local entry, a remote object, or nowhere. -/
inductive Obj where
  | bad
  | here (phys : Nat) (imported : Bool)
  | remote (device rctx rid : Nat)
  deriving DecidableEq, Repr

def Work.object (w : Work) (ctx id : Nat) : Obj × Work :=
  match w.objEntry ctx id with
  | (none, w) => (.bad, w)
  | (some e, w) =>
    if fieldN e 63 63 = 0 then (.bad, w)
    else if fieldN e 62 62 = 1 then (.remote (fieldN e 51 40) (fieldN e 56 52) (fieldN e 39 20), w)
    else
      let p := fieldN e 19 0
      let first := w.rf pgSy .syCtxFirst 19 0 ctx
      let cnt := w.rf pgSy .syCtxCount 20 0 ctx
      if first ≤ p ∧ p < first + cnt then (.here p (fieldN e 61 61 == 1), w) else (.bad, w)

/-- R283, R292: WAIT_OBJ or SIGNAL_OBJ. -/
def Adm.syncField (a : Adm) (t : TaskIn) (off : Nat) (wait : Bool) : Adm :=
  let id := t.f off 4
  if 2 ^ 20 ≤ id then a
  else if isCellId id then
    let k := cellNo id
    let outside := match t.pitch with
      | some p => !cellSelf id && (decide (p.wd ≤ cellX id) || decide (p.ht ≤ cellY id))
      | none => false
    a.fail 6 .range t.ti off (decide (47 < k) || outside || (cellSelf id && decide (fieldN id 14 6 ≠ 0))
      || decide (t.f 40 6 / 2 ^ k % 2 = 0))
  else
    let (o, w) := a.w.object a.ctx id
    let bad := match o with
      | .bad => true
      | .here _ _ => false
      | .remote _ _ _ => wait
    ({ a with w := w }).fail 8 .context t.ti off bad

/-- R62 and the rows of R64 on a task's header, then its body where it has a value. The descriptors read are the task's. -/
def Adm.task (a : Adm) (ti : Nat) (b : List PByte) : List (Nat × List Byte) × Adm :=
  let p := if pbNat b 2 1 < 32 then a.w.pitchFor a.ctx (pbNat b 2 1) else none
  let t : TaskIn := ⟨ti, b, p⟩
  let a := a.rsv b ti [(6, 2), (46, 18)] [(1, 0xE0), (3, 0xF0), (18, 0xF0), (19, 0xFF), (26, 0xF0), (27, 0xFF)]
  let kind := kindOf (t.f 0 1)
  let fl := t.f 1 1
  let a := a.fail 6 .range ti 0 kind.isNone
  let a := a.fail 6 .range ti 2 (decide (31 < t.f 2 1))
  let a := a.fail 8 .context ti 2 p.isNone
  let a := match p with
    | some p =>
      (a.fail 6 .range ti 4 (t.one && decide (p.wd ≤ t.f 4 1))).fail 6 .range ti 5 (t.one && decide (p.ht ≤ t.f 5 1))
    | none => a
  let a := if fieldN fl 3 3 = 1 then a.syncField t 16 true else a
  let a := if fieldN fl 4 4 = 1 then
      (a.syncField t 24 false).fail 6 .range ti 28 (decide (t.f 28 4 = 0) || decide (65535 < t.f 28 4))
    else a
  let a := a.fail 6 .range ti 32 (decide (2048 < t.f 32 2))
  let a := a.fail 6 .range ti 34 (decide (2048 < t.f 34 2))
  match if pbPoison b 64 64 then none else kind with
  | none => ([], a)
  | some .gather => a.gatherTask t
  | some .embedBag => a.embedTask t
  | some .transform => a.transformTask t
  | some .vector => a.vectorTask t
  | some .matchT => a.matchTask t
  | some .copy => a.copyTask t
  | some .collective => a.collTask t
  | some .signal => ([], a.rsv b ti [(64, 64)] [])

/-! ### The graph -/

/-- A task as admission enters it. -/
def freshTask (desc : List Byte) (fmts : List (Nat × List Byte)) : Task :=
  { desc := desc, fmts := fmts.foldl (fun m (k, b) => put [] k b m) [], state := .waiting, metAt := none, softAt := none,
    releasedAt := 0, waitRegistered := false, waitMet := false, waitPhys := 0, dealt := false, launchTaken := false,
    launched := false, orderAt := 0, launchBeat := 0, span := 0, gen := 0, signalDue := none, err := 0, doneAt := 0 }

/-- R61: the edges, with their failures. -/
def Adm.edges (a : Adm) (b : List PByte) (n count : Nat) : List Edge × Adm :=
  (List.range n).foldl (fun (acc : List Edge × Adm) k =>
    let x := pbNat b (4 * k) 4
    let a := acc.2.fail 4 .reserved noTask (4 * k) (decide (fieldN x 30 24 ≠ 0) && !pbPoison b (4 * k) 4)
    let s := fieldN x 23 12
    let d := fieldN x 11 0
    (acc.1 ++ [⟨s, d, fieldN x 31 31 == 1⟩], a.fail 6 .range noTask (4 * k) (decide (d ≤ s) || decide (count ≤ d)))) ([], a)

/-- Task entries a context holds, and free entries of the device (R54, R63). An admission in progress holds its own. Log 6, DESIGN CHOICE: values the spec leaves open. -/
def Dev.held (d : Dev) (ctx : Nat) : Nat :=
  (d.graphs.filter (fun g => g.ctx == ctx)).foldl (fun s g => s + g.tasks.length) 0
    + (d.admissions.filter (fun a => a.graph.ctx == ctx)).foldl (fun s a => s + a.graph.tasks.length) 0
def Dev.freeEntries (d : Dev) : Nat :=
  131072 - (d.graphs.foldl (fun s g => s + g.tasks.length) 0 + d.admissions.foldl (fun s a => s + a.graph.tasks.length) 0)

/-- Address of the entry at HEAD (R409). -/
def Work.entryVa (w : Work) (q : Nat) : Nat :=
  fld (w.qreg q .qBaseLo) 31 12 * 4096 + fld (w.qreg q .qBaseHi) 11 0 * 2 ^ 32
    + (w.qreg q .qHead).toNat % 2 ^ fld (w.qreg q .qCfg) 4 0 * 64

/-- What reading an entry gives: the entry, its tasks and edges, and how many tasks were read. -/
structure AdmRead where
  sub : Option (List Byte)
  tasks : List Task
  edges : List Edge
  count : Nat
  deriving DecidableEq, Repr

/-- R59: checks of the submission entry. -/
def Adm.entry (a : Adm) (b : List PByte) : Adm :=
  let a := a.rsv b noTask [(15, 1), (32, 32)] [(14, 0xFE)]
  let a := ((a.al 5 b noTask 0 8 64).al 5 b noTask 16 8 32).al 5 b noTask 24 8 64
  let v := pbNat b 12 2
  let a := a.fail 6 .range noTask 12 (decide (v ≠ 0xFFFF) && decide (vectorsOf a.ctx ≤ v))
  (a.reach (pbNat b 16 8) 32 true noTask 16).2

/-- R60 to R62: the graph that an entry names. -/
def Adm.graph (a : Adm) (b : List PByte) : (List Task × List Edge × Nat) × Adm :=
  if pbNat b 0 1 ≠ 1 ∧ pbPoison b 0 1 = false then (([], [], 0), a.fail 3 .version noTask 0 true)
  else
    let a := a.rsv b noTask [(1, 1), (24, 40)] []
    let a := (a.al 5 b noTask 8 8 128).al 5 b noTask 16 8 4
    let n := pbNat b 2 2
    let e := pbNat b 4 4
    let quota := a.w.rf pgTt .ttCtxCfg 17 0 a.ctx
    let okN := decide (1 ≤ n) && decide (n ≤ 4096)
    let a := a.fail 6 .range noTask 2 (!okN || decide (quota < n))
    let a := a.fail 6 .range noTask 4 (decide (65536 < e))
    let a := a.fail 6 .range noTask 16 (decide (e = 0) != decide (pbNat b 16 8 = 0))
    let clean := !pbPoison b 0 64
    let (es, a) := if clean ∧ e ≠ 0 ∧ e ≤ 65536 then
        match a.read (pbNat b 16 8) (4 * e) noTask 16 with
        | (some l, a) => a.edges l e (if okN then n else 0)
        | (none, a) => ([], a)
      else ([], a)
    if clean && okN then
      let r := (List.range n).foldl (fun (acc : List Task × Adm) ti =>
        match acc.2.read (pbNat b 8 8 + 128 * ti) 128 ti 8 with
        | (none, a) => (acc.1, a)
        | (some d, a) =>
          let (fs, a) := if pbPoison d 0 64 then ([], a) else a.task ti d
          (acc.1 ++ [freshTask (d.map (·.1)) fs], a)) ([], a)
      ((r.1, es, n), r.2)
    else (([], es, 0), a)

/-- Read everything the entry at HEAD names, with every check of R64 in the order of reading. Log 28, DEDUCED: which failure a refused submission reports (R64). -/
def Work.readGraph (w : Work) (q : Nat) : AdmRead × Adm :=
  let ctx := q / 32
  let a : Adm := ⟨w, ctx, []⟩
  let off := !w.rb pgTt .ttCtxCfg 31 ctx || w.outOfService
  let a := a.fail 1 .state noTask 0 off
  match a.read (w.entryVa q) 64 noTask 0 with
  | (none, a) => (⟨none, [], [], 0⟩, a)
  | (some b, a) =>
    if pbPoison b 0 64 then (⟨none, [], [], 0⟩, a)
    else
      let a := a.entry b
      match a.read (pbNat b 0 8) 64 noTask 0 with
      | (none, a) => (⟨some (b.map (·.1)), [], [], 0⟩, a)
      | (some g, a) =>
        let ((ts, es, n), a) := a.graph g
        (⟨some (b.map (·.1)), ts, es, n⟩, a)

/-- The failing check that decides: the first row of R64, in the order of reading within it. -/
def firstFail (l : List Fail) : Option Fail :=
  (List.range 10).findSome? (fun r => l.find? (fun f => f.row == r))

/-- R78: a context that is saved, or being saved, admits nothing; its entries wait. Log 53, DEDUCED: a saved context's submissions (R78). -/
def Work.admissionHeld (w : Work) (ctx : Nat) : Bool :=
  w.rb pgTt .ttCtxCfg 30 ctx || (match w.dev.save with
    | some (c, _) => c == ctx
    | none => false)

/-- The entry at HEAD leaves the ring (R410). -/
def Work.advanceHead (w : Work) (q : Nat) : Work := w.setQreg q .qHead (w.qreg q .qHead + 1)

/-- A Deal becomes due. -/
def Work.dealDue (w : Work) (beat : Nat) (k : DealKind) (words : List DirWord) : Work :=
  let (n, w) := w.fresh
  w.upd (fun d => { d with due := d.due ++ [⟨beat, n, k, words⟩] })

/-- The refusal of R64 at the end of the checks: no task is entered, HEAD advances, the record is due. An entry that cannot be read has
no record (log 97, DESIGN CHOICE), and a vector that the function does not have sends no message (log 98, DESIGN CHOICE). -/
def Work.refuse (w : Work) (q : Nat) (sub : Option (List Byte)) (f : Fail) : Work :=
  let w := w.advanceHead q
  match sub with
  | none => w
  | some b =>
    let (n, w) := w.fresh
    let v := bytesAt b 12 2
    let r : RefusalDue := { gid := n, queue := q, addr := bytesAt b 16 8, addrOk := true,
                            msix := if vectorsOf (q / 32) ≤ v then 0xFFFF else v, tag := bytesAt b 8 4, code := f.code.code,
                            task := f.task, offset := f.off }
    w.upd (fun d => { d with refusals := d.refusals ++ [r] })

/-- R63 to R65: what an admission of a queue does; none where the queue cannot run one, or its graph has to wait for room. -/
def Work.admissionStep (w : Work) (q : Nat) : Option Work :=
  let ctx := q / 32
  let d := w.dev
  if w.inService = false ∨ bitOf (w.qreg q .qCfg) 31 = false ∨ w.qreg q .qHead = w.qreg q .qTail ∨ w.admissionHeld ctx
      ∨ 4 ≤ d.admissions.length ∨ d.admissions.any (fun a => a.queue == q) ∨ d.flrBusy.contains ctx then none
  else
    let (r, a) := w.readGraph q
    let n := r.count
    let fit := d.held ctx + n ≤ w.rf pgTt .ttCtxCfg 17 0 ctx ∧ n ≤ d.freeEntries
    let waits := w.rb pgTt .ttCtxCfg 31 ctx ∧ w.outOfService = false ∧ n ≤ w.rf pgTt .ttCtxCfg 17 0 ctx ∧ ¬ fit
    if waits then none
    else some (match firstFail a.fails with
    | some f => (a.w.passTo (d.beat + 12 + ceilDiv n 32)).refuse q r.sub f
    | none =>
        let b := r.sub.getD []
        let due := d.beat + 12 + ceilDiv n 32 + 1
        let (gid, w) := a.w.fresh
        let ordered := byteAt b 14 % 2 == 1
        let g : Graph := {
          gid := gid, queue := q, tag := bytesAt b 8 4, msix := bytesAt b 12 2, ordered := ordered,
          afterGraph := if ordered then look none q d.lastGraph else none, complAddr := bytesAt b 16 8, paramAddr := bytesAt b 24 8,
          tasks := r.tasks, edges := r.edges, valid := false, ttCancelled := false, silent := false, firstFail := none,
          poisonRead := 0, poisonWritten := 0 }
        let w := w.upd (fun d => { d with admissions := d.admissions ++ [⟨q, due, g⟩] })
        w.dealDue due (.admission q) [])

/-- Queues in the order in which the Task Tracker comes to them: contexts in turn, and of each its queues in turn (R63; log 52, DEDUCED,
DEDUCED). -/
def Dev.turns (d : Dev) : List Nat :=
  (List.range 32).flatMap (fun i =>
    let c := (d.turnCtx + 1 + i) % 32
    (List.range 32).map (fun k => c * 32 + (look 31 c d.turnQueue + 1 + k) % 32))

/-- The admission of a queue begins when it is the first, in turn, that can run one. -/
def admissionWork (q : Nat) (w : Work) : Work :=
  if w.dev.turns.find? (fun k => k == q || (w.admissionStep k).isSome) = some q then
    match w.admissionStep q with
    | some w => w.upd (fun d => { d with turnCtx := q / 32, turnQueue := put 31 (q / 32) (q % 32) d.turnQueue })
    | none => w
  else w

/-- ADMISSION (R63, R64). -/
def execAdmission (queue : Nat) (s : State) : Host.Outcome State Fault Refusal := s.run (admissionWork queue)

end Sys2Proof.Machine
end

