-- ==== Sys2Proof/Machine/Shelf.lean ====
section
/-! DEFINITION. The Shelf directory (R168 to R170) and the Shelf units' migration lists (R172 to R177, R187). The commit of a
migration Deal is R87's, in Deals. -/

namespace Sys2Proof.Machine

/-! ### Errors met by a transfer in the cells (R345, R347) -/

/-- The 64-byte granules of a transfer, in order: address, length, place in the bytes. -/
def granulesOf (pieces : List (Nat × Nat)) : List (Nat × Nat × Nat) :=
  (pieces.foldl (fun (acc : List (Nat × Nat × Nat) × Nat) (va, n) =>
    let gs := splitBy 64 va n
    (acc.1 ++ gs.map (fun (lo, len) => (lo, len, acc.2 + (lo - va))), acc.2 + n)) ([], 0)).1

/-- Poison `n` bytes of a string from `off`. -/
def poisonBytes (l : List PByte) (off n : Nat) : List PByte :=
  l.mapIdx (fun i x => if off ≤ i ∧ i < off + n then (x.1, true) else x)

/-- Errors that a transfer meets: a corrected one is counted; an uncorrectable one is raised and poisons its granule; so does a
completion from host memory that is marked poisoned (R50). -/
def Work.cellErrors (w : Work) (ctx : Nat) (phys : Bool) (pieces : List (Nat × Nat)) (data : List PByte) (es : List CellError)
    (r : Reader) : List PByte × Work :=
  let gs := granulesOf pieces
  es.foldl (fun (acc : List PByte × Work) e =>
    let k := match e with
      | .corrected g => g
      | .uncorrectable g => g
      | .completionPoisoned g => g
    match gs[k]? with
    | none => acc
    | some (lo, len, off) =>
      match (if phys then (some (.dev lo), acc.2) else acc.2.translate ctx lo false r) with
      | (some (.dev a), w) =>
        match w.phys a with
        | .cell key ctl =>
          match e with
          | .corrected _ => (acc.1, w.correctedError ctl)
          | .uncorrectable _ =>
            let w := w.emit [.dead (key / 64) true]
            let (_, w) := w.readCells ctl key len r
            (poisonBytes acc.1 off len, w)
          | .completionPoisoned _ => (acc.1, w)
        | _ => (acc.1, w)
      | (some (.host _), w) => match e with
        | .completionPoisoned _ => (poisonBytes acc.1 off len, w.count pgPx 6)
        | _ => (acc.1, w)
      | (_, w) => (acc.1, w)) (data, w)

/-- A granule of a transfer under way as it stands now; none where its address leads to no cells that read at present. -/
def Work.granuleNow (w : Work) (ctx : Nat) (phys : Bool) (lo len : Nat) (r : Reader) : Option (List PByte) :=
  match (if phys then some (.dev lo) else (w.translate ctx lo false r).1) with
  | some (.dev a) =>
    match w.phys a with
    | .cell key ctl =>
      if w.memFailed ctl || w.deadAt (key / 64) then none
      else some (w.cellBytes false key len (w.poisonAt false (key / 64)))
    | _ => none
  | some (.host a) => if w.linkUp then some (w.cellBytes true a len (w.poisonAt true (a / 64))) else none
  | none => none

/-- R27, R111: what is written while it is fetched arrives granule by granule, each as it stood at issue or as it stands now; which,
where the two differ, is a free choice (log 19, DEDUCED). -/
def Work.torn (w : Work) (ctx : Nat) (phys : Bool) (pieces : List (Nat × Nat)) (data : List PByte) (r : Reader) : List PByte × Work :=
  (granulesOf pieces).foldl (fun (acc : List PByte × Work) (lo, len, off) =>
    let old := (data.drop off).take len
    match acc.2.granuleNow ctx phys lo len r with
    | none => (acc.1 ++ old, acc.2)
    | some now =>
      if now = old then (acc.1 ++ old, acc.2)
      else
        let (x, w) := acc.2.draw
        (acc.1 ++ (if x % 2 = 0 then old else now), w)) ([], w)

/-- What a transfer brings: the granules as R27 and R111 let them arrive, and the errors it met in the cells. -/
def Work.arrived (w : Work) (ctx : Nat) (phys : Bool) (pieces : List (Nat × Nat)) (data : List PByte) (es : List CellError)
    (r : Reader) : List PByte × Work :=
  let (l, w) := w.torn ctx phys pieces data r
  w.cellErrors ctx phys pieces l es r

/-! ### The directory (R168, R169) -/

def dirBuckets (header : List Byte) : Nat := byteAt header 1
def dirStrict (header : List Byte) : Bool := byteAt header 2 % 2 == 1
def bucketOf (log2 row : Nat) : Nat := row * 0x9E3779B1 % 2 ^ 32 / 2 ^ (32 - log2)
def bucketVa (dir log2 row : Nat) : Nat := dir + 64 + 64 * bucketOf log2 row

/-- Word B of an entry. -/
def wbState (b : Nat) : Nat := fieldN b 63 62
def wbRepl (b : Nat) : Bool := fieldN b 61 61 == 1
def wbCluster (b : Nat) : Nat := fieldN b 59 52
def wbSlot (b : Nat) : Nat := fieldN b 51 36
def wbTag (b : Nat) : Nat := fieldN b 31 0
def wbPending (c : Nat) : Nat := 1 * 2 ^ 62 + c * 2 ^ 52
def wbValid (c slot version : Nat) : Nat := 2 * 2 ^ 62 + c * 2 ^ 52 + slot * 2 ^ 36 + version
def wbBarred (untilEpoch : Nat) : Nat := 3 * 2 ^ 62 + untilEpoch

/-- The four entries of a bucket: words A and B. -/
def bucketEntries (b : List Byte) : List (Nat × Nat) :=
  (List.range 4).map (fun k => (bytesAt b (16 * k) 8, bytesAt b (16 * k + 8) 8))

/-- The lowest-numbered entry that matches a row: its number and words (R168). -/
def matchEntry (b : List Byte) (row : Nat) : Option (Nat × Nat × Nat) :=
  ((List.range 4).find? (fun k => match (bucketEntries b)[k]? with
    | some (x, y) => wbState y != 0 && x / 2 ^ 32 == row
    | none => false)).bind (fun k => ((bucketEntries b)[k]?).map (fun (x, y) => (k, x, y)))

/-- What a bucket read gives: a translation fault, a poisoned bucket, or the bytes. -/
inductive BucketRead where
  | fault (va : Nat)
  | poisoned
  | ok (b : List Byte)
  deriving DecidableEq, Repr

def Work.readBucket (w : Work) (ctx va : Nat) (r : Reader) : BucketRead × Work :=
  match w.readVa ctx va 64 r with
  | (.error e, w) => (.fault e, w)
  | (.ok l, w) => (if l.any (·.2) then .poisoned else .ok (l.map (·.1)), w)

/-- The Shelf slice of a cluster (R337): device physical address of an offset. -/
def slicePhys (c off : Nat) : Nat := 0xC000000000 + c * 0x400000 + off

/-- Where a lookup of a row finds it: slice and SLOT, or none for its home; with the counters of R170. The outer none: the
bucket does not translate. -/
def Work.shelfLookup (w : Work) (i : Inst) (dir : Nat) (header : List Byte) (row : Nat) : Option (Option (Nat × Nat)) × Work :=
  let pg : Page := ⟨.sh, i.cluster⟩
  match w.readBucket (w.dev.ctxOf i.gid) (bucketVa dir (dirBuckets header) row) (i.reader w.dev) with
  | (.fault _, w) => (none, w)
  | (.poisoned, w) => (some none, (w.count pg 0).poisonRead i.gid 1)
  | (.ok b, w) =>
    let w := w.count pg 0
    match matchEntry b row with
    | some (_, x, y) =>
      if wbState y ≠ 2 then (some none, w)
      else if dirStrict header && decide (x % 2 ^ 32 ≠ wbTag y) then (some none, w.count pg 2)
      else (some (some (if wbRepl y then i.cluster else wbCluster y, wbSlot y)), w.count pg 1)
    | none => (some none, w)

/-! ### Migration lists -/

def Dev.mig? (d : Dev) (c : Nat) : Option Migration := d.migs.find? (fun m => m.cluster == c)
def Work.setMig (w : Work) (c : Nat) (f : Migration → Migration) : Work :=
  w.upd (fun d => { d with migs := updFirst (fun m => m.cluster == c) f d.migs })

def Migration.reader (m : Migration) (w : Work) : Reader := ⟨some m.ctx, w.tableSlot m.ctx m.table, m.cluster⟩
def Migration.T (m : Migration) : Table := tableOf m.tbl
def Migration.dir (m : Migration) : Nat := bytesAt m.tbl 48 8

/-- The list ends (R187). -/
def Work.endList (w : Work) (c : Nat) : Work :=
  let w := w.upd (fun d => { d with migs := d.migs.filter (fun m => m.cluster != c) })
  let w := w.setRf ⟨.sh, c⟩ .shMigStat 31 31 0
  w.setReg ⟨.sh, c⟩ .shMigEpoch (w.reg pgCr .crEpochNum)

/-- A failure of the list as a whole (R177, R188). -/
def Work.failList (w : Work) (m : Migration) (e : Err) (detail : List Byte) : Work :=
  (w.raise ⟨.sh, m.cluster⟩ e ⟨1, some m.ctx, w.tableSlot m.ctx m.table, m.cluster, detail⟩).endList m.cluster

/-- Record an entry's OUTCOME; the list ends with its last entry. -/
def Work.finishEntry (w : Work) (m : Migration) (outcome : Nat) : Work :=
  match w.writeVa m.ctx (m.listVa + 8 * m.done + 7) [(BitVec.ofNat 8 outcome, false)] (m.reader w) with
  | (.error e, w) => w.failList m .xlate (leBytes 8 e)
  | (.ok _, w) =>
    let n := m.done + 1
    let w := w.setRf ⟨.sh, m.cluster⟩ .shMigStat 15 0 n
    let w := w.setMig m.cluster (fun m => { m with done := n, entryVa := none, attempt := 0, copying := false, copy := [], outcome := 0 })
    if n = m.count then w.endList m.cluster else w

/-- GO (R158, R172, R187): the list starts; its table is read once. -/
def Work.startList (w : Work) (c ctx table : Nat) : Work :=
  let r : Reader := ⟨some ctx, w.tableSlot ctx table, c⟩
  let lv := (w.reg ⟨.sh, c⟩ .shMigListLo).toNat + (w.reg ⟨.sh, c⟩ .shMigListHi).toNat * 2 ^ 32
  let m : Migration := {
    cluster := c, ctx := ctx, table := table, count := w.rf ⟨.sh, c⟩ .shMigCount 15 0, listVa := lv, tbl := [], dirHdr := [],
    done := 0, row := 0, slot := 0, entryVa := none, prior := 0, attempt := 0, version := 0, readAt := 0, copy := [],
    copying := false, outcome := 0, stop := false }
  let w := w.setReg ⟨.sh, c⟩ .shMigStat (atBit 1 31)
  let (t, w) := w.readTable ctx table false r
  match t with
  | .ok (b, h) =>
    if bytesAt b 48 8 = 0 then w.failList m .tableInvalid []
    else w.upd (fun d => { d with migs := d.migs ++ [{ m with tbl := b, dirHdr := h }] })
  | .error .invalid => w.failList m .tableInvalid []
  | .error (.xlate va) => w.failList m .xlate (leBytes 8 va)

/-- A migration Deal is issued; it commits on the beat after its validation (R85, R176). -/
def Work.migDeal (w : Work) (c kind : Nat) (words : List DirWord) : Work :=
  w.dealDue (w.dev.beat + 4 + ceilDiv words.length 8 + 1) (.migration c kind) words

def dword (x : Nat) : DWord := BitVec.ofNat 64 x

/-- Restore word B of a claimed entry by a Deal, and record an outcome, or stop the list, when it commits (R177). -/
def Work.restoreEntry (w : Work) (m : Migration) (outcome : Nat) (stop : Bool) : Work :=
  match m.entryVa with
  | none => w
  | some e =>
    let w := w.setMig m.cluster (fun m => { m with outcome := outcome, stop := stop, copying := false })
    w.migDeal m.cluster 3 [⟨e + 8, dword (wbPending m.cluster), dword m.prior, true, false, true⟩]

/-- Step 2 of R173: read VERSION and the home row. -/
def Work.attemptMig (w : Work) (c : Nat) : Work :=
  match w.dev.mig? c with
  | none => w
  | some m =>
    match m.entryVa with
    | none => w
    | some e =>
      match w.readVa m.ctx e 8 (m.reader w) with
      | (.error x, w) => w.failList m .xlate (leBytes 8 x)
      | (.ok a, w) =>
        let v := pbNat a 0 4
        match w.readVa m.ctx (m.T.rowVa m.row) m.T.rowBytes (m.reader w) with
        | (.error x, w) =>
          (w.raise ⟨.sh, c⟩ .xlate ⟨1, some m.ctx, w.tableSlot m.ctx m.table, c, leBytes 8 x⟩).restoreEntry m 0 true
        | (.ok l, w) =>
          w.setMig c (fun m => { m with attempt := m.attempt + 1, version := v, readAt := w.dev.beat, copy := l, copying := true })

/-- A list entry is out of range (R172). -/
def entryBad (m : Migration) (e : Nat) : Bool :=
  let op := fieldN e 51 48
  decide (fieldN e 55 52 ≠ 0) || decide (op = 0) || decide (2 < op) || decide (m.T.rows ≤ fieldN e 31 0)
    || (op == 1 && decide (3145728 < fieldN e 47 32 * 64 + m.T.rowBytes))

/-- The entry the list is at: none when the list has an entry in progress or cannot be read, which ends it. -/
def Work.listEntry (w : Work) (c : Nat) : Option (Migration × Nat) × Work :=
  match w.dev.mig? c with
  | none => (none, w)
  | some m =>
    if m.entryVa.isSome ∨ w.pageOn ⟨.sh, c⟩ = false then (none, w)
    else
      match w.readVa m.ctx (m.listVa + 8 * m.done) 8 (m.reader w) with
      | (.error x, w) => (none, w.failList m .xlate (leBytes 8 x))
      | (.ok l, w) => (some (m, if l.any (·.2) then 0 else pbNat l 0 8), w)

/-- Step 1 of R173 and the first attempt. -/
def migrateWork (c : Nat) (w : Work) : Work :=
  match w.listEntry c with
  | (none, w) => w
  | (some (m, e), w) =>
    if fieldN e 51 48 = 2 ∧ entryBad m e = false then w
    else if entryBad m e then w.finishEntry m 7
    else
      let row := fieldN e 31 0
      let bv := bucketVa m.dir (dirBuckets m.dirHdr) row
      match w.readBucket m.ctx bv (m.reader w) with
      | (.fault x, w) => w.failList m .xlate (leBytes 8 x)
      | (.poisoned, w) => w.finishEntry m 5
      | (.ok b, w) =>
        let claim (k prior : Nat) (words : List PByte) (off : Nat) (w : Work) : Work :=
          match w.writeVa m.ctx (bv + 16 * k + off) words (m.reader w) with
          | (.error x, w) => w.failList m .xlate (leBytes 8 x)
          | (.ok _, w) => (w.setMig c (fun m => { m with
              row := row, slot := fieldN e 47 32, entryVa := some (bv + 16 * k), prior := prior, attempt := 0 })).attemptMig c
        let pend : List PByte := (leBytes 8 (wbPending c)).map (·, false)
        match matchEntry b row with
        | some (k, _, y) =>
          if wbState y = 1 then w.finishEntry m 6
          else if wbState y = 3 ∧ serialDiff (w.reg pgCr .crEpochNum).toNat (wbTag y) < 0 then w.finishEntry m 3
          else claim k y pend 8 w
        | none =>
          match (List.range 4).find? (fun k => match (bucketEntries b)[k]? with
              | some (_, y) => wbState y == 0
              | none => false) with
          | some k => claim k 0 ((leBytes 8 (row * 2 ^ 32)).map (·, false) ++ pend) 0 w
          | none => w.finishEntry m 5

/-- MIGRATE (R173). -/
def execMigrate (cluster : Nat) (s : State) : Host.Outcome State Fault Refusal := s.run (migrateWork cluster)

/-- A failed attempt: another, or the bar of R174. Log 68, DEDUCED: counts of directory Deals that mismatch (R175, R188). -/
def Work.mismatch (w : Work) (c : Nat) : Work :=
  match w.dev.mig? c with
  | none => w
  | some m =>
    let w := w.count ⟨.sh, c⟩ 4
    if m.attempt < 4 then w.attemptMig c
    else
      match m.entryVa with
      | none => w
      | some e =>
        let w := w.setMig c (fun m => { m with copying := false })
        let until_ := ((w.reg pgCr .crEpochNum).toNat + 1024) % 2 ^ 32
        w.migDeal c 1 [⟨e + 8, dword (wbPending c), dword (wbBarred until_), true, false, true⟩]

/-- The row has landed: written to its slot, and the migration Deal issued; a poisoned row is given up (R177). -/
def migrateRowLandedWork (c : Nat) (es : List CellError) (w : Work) : Work :=
  match w.dev.mig? c with
  | none => w
  | some m =>
    match m.entryVa with
    | none => w
    | some e =>
      if m.copying = false then w
      else if m.readAt + 65536 < w.dev.beat then (w.setMig c (fun m => { m with copying := false })).mismatch c
      else
        let (l, w) := w.arrived m.ctx false [(m.T.rowVa m.row, m.T.rowBytes)] m.copy es (m.reader w)
        if l.any (·.2) then w.restoreEntry m 9 false
        else
          let w := w.writePhys (slicePhys c (m.slot * 64)) l
          let w := w.count ⟨.sh, c⟩ 6 l.length
          let w := w.setMig c (fun m => { m with copying := false, copy := [] })
          w.migDeal c 0 [⟨e, dword (m.row * 2 ^ 32 + m.version), 0, true, false, false⟩,
            ⟨e + 8, dword (wbPending c), dword (wbValid c m.slot m.version), true, false, true⟩]

/-- MIGRATE_ROW_LANDED (R173, R177). -/
def execMigrateRowLanded (cluster : Nat) (errors : List CellError) (s : State) : Host.Outcome State Fault Refusal :=
  s.run (migrateRowLandedWork cluster errors)

/-- An attempt whose slot write has not completed within 65,536 beats counts as a mismatch. -/
def migrateAttemptTimeoutWork (c : Nat) (w : Work) : Work :=
  match w.dev.mig? c with
  | some m => if m.copying then ((w.passTo (m.readAt + 65536)).setMig c (fun m => { m with copying := false })).mismatch c else w
  | none => w

/-- MIGRATE_ATTEMPT_TIMEOUT (R174). -/
def execMigrateAttemptTimeout (cluster : Nat) (s : State) : Host.Outcome State Fault Refusal :=
  s.run (migrateAttemptTimeoutWork cluster)

/-- Read the entry again and issue the eviction's Deal (R175). -/
def Work.evictTry (w : Work) (m : Migration) (row : Nat) : Work :=
  let c := m.cluster
  let bv := bucketVa m.dir (dirBuckets m.dirHdr) row
  match w.readBucket m.ctx bv (m.reader w) with
  | (.fault x, w) => w.failList m .xlate (leBytes 8 x)
  | (.poisoned, w) => w.finishEntry m 8
  | (.ok b, w) =>
    match matchEntry b row with
    | some (k, _, y) =>
      if wbState y ≠ 2 then w.finishEntry m 8
      else
        let e := bv + 16 * k
        let w := w.setMig c (fun m => { m with row := row, entryVa := some e, prior := y, attempt := m.attempt + 1 })
        w.migDeal c 2 [⟨e, 0, 0, false, false, true⟩, ⟨e + 8, dword y, 0, true, false, true⟩]
    | none => w.finishEntry m 8

def evictWork (c : Nat) (w : Work) : Work :=
  match w.listEntry c with
  | (none, w) => w
  | (some (m, e), w) =>
    if fieldN e 51 48 ≠ 2 then w
    else if entryBad m e then w.finishEntry m 7
    else w.evictTry m (fieldN e 31 0)

/-- EVICT (R175). -/
def execEvict (cluster : Nat) (s : State) : Host.Outcome State Fault Refusal := s.run (evictWork cluster)

/-- How a migration Deal ended on a beat. -/
inductive MigEnd where
  | committed | mismatch | fault (va : Nat)
  deriving DecidableEq, Repr

/-- What follows the end of a migration Deal (R173 to R177). -/
def Work.migEnded (w : Work) (c kind : Nat) (r : MigEnd) : Work :=
  match w.dev.mig? c with
  | none => w
  | some m =>
    match r with
    | .fault va => w.failList m .xlate (leBytes 8 va)
    | .committed =>
      if kind = 0 then (w.count ⟨.sh, c⟩ 3).finishEntry m 1
      else if kind = 1 then (w.count ⟨.sh, c⟩ 5).finishEntry m 4
      else if kind = 2 then w.finishEntry m 2
      else if m.stop then w.endList c
      else w.finishEntry m m.outcome
    | .mismatch =>
      if kind = 0 then w.mismatch c
      else if kind = 1 then w.finishEntry m 4
      else if kind = 2 then
        let w := w.count ⟨.sh, c⟩ 4
        if m.attempt < 4 then w.evictTry m m.row else w.finishEntry m 6
      else if m.stop then w.endList c
      else w.finishEntry m m.outcome

end Sys2Proof.Machine
end

