-- ==== Sys2Proof/Machine/Deals.lean ====
section
/-! DEFINITION. The Deal engine (R74, R81 to R87): what a slot's operations do, the checks of a commit, and the commit beat that
slotted, admission and migration Deals share. -/

namespace Sys2Proof.Machine

/-- The Deal slot, and operation slot, of a writer (R81, R308). -/
def Agent.slot : Agent → Nat
  | .fn n => n
  | .core n _ => 32 + n

/-- The thread slot of a control core's writer (R433). -/
def Agent.thread : Agent → Nat
  | .fn _ => 0
  | .core _ t => t

/-- The context of a slot's directory words: a core's slot has no context of its own and uses C0's (log 31, DEDUCED). -/
def slotCtx (s : Nat) : Nat := if s < 32 then s else 0

def Work.deal_ (w : Work) (s : Nat) : DealSlot := w.dev.deals.getD s .idle
def Work.setDeal (w : Work) (s : Nat) (f : DealSlot → DealSlot) : Work := w.upd (fun d => { d with deals := updAt f s d.deals })

/-- A Deal closes, with its OUTCOME, CODE and INDEX (R84). -/
def Work.closeDeal (w : Work) (s outcome code index : Nat) : Work :=
  let t := w.dev.time
  let w := w.setDeal s (fun x => { x with
    state := .idle, outcome := outcome, code := code, index := index, staged := [], words := [], at_ := none, doneTime := t })
  w.upd (fun d => { d with due := d.due.filter (fun x => x.kind != .slotted s) })

/-- An OPEN Deal is abandoned (R84, R87, R417, R433). -/
def Work.abandonDeal (w : Work) (s : Nat) : Work := if (w.deal_ s).state = .opened then w.closeDeal s 5 0 0 else w

/-- OPEN, COMMIT and ABANDON (R84, R85). -/
def Work.dealOp (w : Work) (s op thread : Nat) (atTime lateFail : Bool) : Except Rej Work :=
  let x := w.deal_ s
  if op = 0 ∨ 3 < op then .error .range
  else if op = 1 then
    if x.state ≠ .idle then .error .state
    else .ok (w.setDeal s (fun x => { x with
      state := .opened, outcome := 0, code := 0, index := 0, staged := [], words := [], late := false, thread := thread }))
  else if x.state ≠ .opened then .error .state
  else if op = 3 then .ok (w.closeDeal s 5 0 0)
  else
    let n := x.staged.length + x.words.length
    let ends := w.dev.beat + 4 + ceilDiv n 8
    let t := (w.reg pgDl .dlAtLo s).toNat + (w.reg pgDl .dlAtHi s).toNat * 2 ^ 32
    let b := if w.dev.counting then w.dev.beat + w.beatsTo (roundUp t 4) else w.dev.beat
    let late := atTime && (decide (b ≤ ends) || decide (roundUp t 4 < w.dev.time))
    let due := if atTime && !late then b else ends + 1
    let w := w.setDeal s (fun x => { x with
      state := .committing, due := due, at_ := if atTime then some b else none, lateFail := lateFail, late := late })
    .ok (w.dealDue due (.slotted s) [])

/-- Staging a register write, once its own checks have passed (R83). -/
def Work.stage (w : Work) (s off : Nat) (v : Word) : Except Rej Work :=
  let x := w.deal_ s
  if x.state = .committing then .error .state
  else if x.state = .idle then .error .deal
  else if (w.dev.deals.mapIdx (fun i y => decide (i ≠ s) && decide (y.state ≠ .idle) && y.staged.any (fun e => e.1 == off))).any id
  then .error .deal
  else if x.staged.any (fun e => e.1 == off) then
    .ok (w.setDeal s (fun x => { x with staged := x.staged.map (fun e => if e.1 = off then (off, v) else e) }))
  else if 64 ≤ x.staged.length then .error .deal
  else .ok (w.setDeal s (fun x => { x with staged := x.staged ++ [(off, v)] }))

/-- The register pair of a slot as one number. -/
def Work.slotPair (w : Work) (lo hi : RegId) (s : Nat) : Nat := (w.reg pgDl lo s).toNat + (w.reg pgDl hi s).toNat * 2 ^ 32

/-- Where an 8-byte directory word of a context leads (R82). -/
inductive WordAt where
  | fault | outside | sram
  deriving DecidableEq, Repr

/-- The reader of a Deal's words. -/
def wordReader (ctx : Nat) : Reader := ⟨some ctx, 0xFFFFFFFF, 0xFFFFFFFF⟩

/-- An address that translates and leads to no byte of on-die SRAM leads outside it, backed or not (R84, R338). -/
def Work.wordAt (w : Work) (ctx va : Nat) : WordAt × Work :=
  match w.translate ctx va true (wordReader ctx) with
  | (none, w) => (.fault, w)
  | (some (.host _), w) => (.outside, w)
  | (some (.dev a), w) => (match w.phys a with
      | .cell _ ctl => if ctl.block = .cf then .sram else .outside
      | _ => .outside, w)

/-- PUSH (R84). -/
def Work.dirPush (w : Work) (s : Nat) (compare low32 write : Bool) : Except Rej Work :=
  let x := w.deal_ s
  let va := w.slotPair .dlDirAddrLo .dlDirAddrHi s
  if x.state = .idle then .error .deal
  else if x.state = .committing then .error .state
  else if va % 8 ≠ 0 then .error .align
  else if !compare && !write then .error .range
  else
    match w.wordAt (slotCtx s) va with
    | (.fault, _) => .error .context
    | (.outside, _) => .error .range
    | (.sram, w) =>
      let e : DirWord := { va := va, expect := dword (w.slotPair .dlDirExpectLo .dlDirExpectHi s),
                           data := dword (w.slotPair .dlDirDataLo .dlDirDataHi s), compare := compare, low32 := low32, write := write }
      if x.words.any (fun y => y.va == va) then
        .ok (w.setDeal s (fun x => { x with words := x.words.map (fun y => if y.va = va then e else y) }))
      else if 32 ≤ x.words.length then .error .range
      else .ok (w.setDeal s (fun x => { x with words := x.words ++ [e] }))

/-! ### The checks of a commit (R74, R85) -/

def pitchOff (n : Nat) : Nat := regOff pgTt .ttPitch n

/-- The pitch a staged list gives number n, or the committed one. -/
def Work.pitchAfter (w : Work) (staged : List (Nat × Word)) (n : Nat) : Option Pitch :=
  pitchOfWord n (((staged.find? (fun e => e.1 == pitchOff n)).map (·.2)).getD (w.reg pgTt .ttPitch n))

/-- Two pitches of one set break the first row of R74. -/
def pitchClash (p q : Pitch) : Bool :=
  p.clusters.any (fun c => q.holds c) || (p.owner == q.owner && p.loc == q.loc)

/-- A context has an incomplete task that names a local pitch, and is not saved. -/
def Work.pitchNamed (w : Work) (p : Pitch) : Bool :=
  !w.rb pgTt .ttCtxCfg 30 p.owner
    && (w.dev.graphs ++ w.dev.admissions.map (·.graph)).any (fun g => g.ctx == p.owner
      && g.tasks.any (fun t => t.state.live && t.pitch == p.loc))

/-- A pitch that changes has residents or is named (third row of R74). Log 30, DEDUCED: R74, an incomplete task naming a pitch. -/
def Work.pitchBusy (w : Work) (old new : Option Pitch) : Bool :=
  let one (o : Option Pitch) : Bool := match o with
    | some p => p.clusters.any (fun c => decide (w.dev.resident c ≠ [])) || w.pitchNamed p
    | none => false
  decide (old ≠ new) && (one old || one new)

/-- Egress routes of a pitch pass a router of another pitch that is isolated (fourth row). -/
def routeClash (p q : Pitch) : Bool := q.isolate && p.clusters.any (fun c => (egress c).any (fun x => q.holds x))

/-- R74: the code of the first row broken, and the pitches involved in that row's failures. -/
def Work.pitchFault (w : Work) (staged : List (Nat × Word)) : Option (Rej × List Nat) :=
  let ps := (List.range 32).filterMap (w.pitchAfter staged)
  let pairs := ps.flatMap (fun p => (ps.filter (fun q => q.index != p.index)).map (fun q => (p, q)))
  let r1 := (pairs.filter (fun (p, q) => pitchClash p q)).flatMap (fun (p, q) => [p.index, q.index])
  let r2 := (ps.filter (fun p => p.clusters.any (fun c => !w.variant.hasCluster c))).map (·.index)
  let r3 := (List.range 32).filter (fun n => w.pitchBusy (pitchOfWord n (w.reg pgTt .ttPitch n)) (w.pitchAfter staged n))
  let r4 := (pairs.filter (fun (p, q) => routeClash p q)).flatMap (fun (p, q) => [p.index, q.index])
  if r1 ≠ [] then some (.range, r1)
  else if r2 ≠ [] then some (.absent, r2)
  else if r3 ≠ [] then some (.state, r3)
  else if r4 ≠ [] then some (.route, r4)
  else none

/-- The abort of a slotted Deal's checks: OUTCOME, CODE, INDEX. -/
structure Abort where
  outcome : Nat
  code : Nat
  index : Nat
  deriving DecidableEq, Repr

/-- The value of a directory word on this beat; none where it is poisoned. The word is reached with WRITE permission (R82). -/
def Work.wordVal (w : Work) (ctx va : Nat) : Option Nat × Work :=
  match w.translate ctx va true (wordReader ctx) with
  | (some (.dev a), w) =>
    let (l, w) := w.readPhys a 8 (wordReader ctx)
    (if l.any (·.2) then none else some (pbNat l 0 8), w)
  | (_, w) => (none, w)

/-- A comparison holds (R84, R85). -/
def DirWord.holds (e : DirWord) (v : Option Nat) : Bool :=
  !e.compare || (match v with
    | none => false
    | some x => if e.low32 then x % 2 ^ 32 == e.expect.toNat % 2 ^ 32 else x == e.expect.toNat)

/-- The checks of directory words, in push order: translation first, then comparisons. -/
def Work.wordsFault (w : Work) (ctx : Nat) (words : List DirWord) : Option Abort × Work :=
  let (bad, w) := (words.zipIdx).foldl (fun (acc : Option Abort × Work) (e, k) =>
    match acc.1 with
    | some _ => acc
    | none =>
      match acc.2.wordAt ctx e.va with
      | (.fault, w) => (some ⟨2, Rej.context.code, 64 + k⟩, w)
      | (.outside, w) => (some ⟨2, Rej.range.code, 64 + k⟩, w)
      | (.sram, w) => (none, w)) (none, w)
  match bad with
  | some a => (some a, w)
  | none =>
    (words.zipIdx).foldl (fun (acc : Option Abort × Work) (e, k) =>
      match acc.1 with
      | some _ => acc
      | none =>
        let (v, w) := acc.2.wordVal ctx e.va
        (if e.holds v then none else some ⟨3, 0, 64 + k⟩, w)) (none, w)

/-- Everything R85 checks of a slotted Deal on its commit beat. -/
def Work.dealFault (w : Work) (s : Nat) : Option Abort × Work :=
  let x := w.deal_ s
  if x.late && x.lateFail then (some ⟨4, 0, 0⟩, w)
  else
    match (if x.staged.any (fun e => (List.range 32).any (fun n => e.1 == pitchOff n)) then w.pitchFault x.staged else none) with
    | some (c, ps) =>
      let k := ((List.range x.staged.length).find? (fun k => match x.staged[k]? with
        | some e => ps.any (fun n => e.1 == pitchOff n)
        | none => false)).getD 0
      (some ⟨2, c.code, k⟩, w)
    | none => w.wordsFault (slotCtx s) x.words

/-- The words of a Deal are written, in push order. -/
def Work.writeWords (w : Work) (ctx : Nat) (words : List DirWord) : Work :=
  w.each (words.filter (·.write)) (fun e w =>
    (w.writeVa ctx e.va ((leBytes 8 e.data.toNat).map (·, false)) ⟨some ctx, 0xFFFFFFFF, 0xFFFFFFFF⟩).2)

/-- R291: the cells of a cluster that now lies in no pitch, or in another, are set to 0, and adds on their way are dropped. -/
def Work.clearCells (w : Work) (before : List Pitch) : Work :=
  let tag (l : List Pitch) (c : Nat) : Option (Nat × Nat × Nat) := (l.find? (fun p => p.holds c)).map (fun p => (p.index, p.owner, p.loc))
  let after_ := w.pitches
  let cs := (List.range 216).filter (fun c => tag after_ c == none || tag after_ c != tag before c)
  let w := w.each cs (fun c w =>
    let w := w.each (List.range 48) (fun k w => w.setReg ⟨.sy, c⟩ .syCell 0 k)
    w.each (List.range 12) (fun k w => w.setReg ⟨.sy, c⟩ .syCellWs 0 k))
  w.upd (fun d => { d with sync := { d.sync with adds := d.sync.adds.filter (fun a => !cs.contains a.cluster) } })

/-- Every staged write and directory write takes effect (R85). -/
def Work.dealTakes (w : Work) (s : Nat) : Work :=
  let x := w.deal_ s
  let before := w.pitches
  let w := w.upd (fun d => { d with regs := x.staged.foldl (fun m e => put 0 e.1 e.2 m) d.regs })
  let w := w.writeWords (slotCtx s) x.words
  let w := if x.staged.any (fun e => (List.range 32).any (fun n => e.1 == pitchOff n)) then w.clearCells before else w
  w.closeDeal s (if x.late then 4 else 1) 0 0

/-! ### The commit beat (R65, R87) -/

/-- The refusal of an admission whose context began to be saved before its commit (R64). -/
def Work.refuseGraph (w : Work) (a : Admission) : Work :=
  let w := w.advanceHead a.queue
  let (n, w) := w.fresh
  let r : RefusalDue := { gid := n, queue := a.queue, addr := a.graph.complAddr, addrOk := true, msix := a.graph.msix,
                          tag := a.graph.tag, code := Rej.state.code, task := noTask, offset := 0 }
  w.upd (fun d => { d with refusals := d.refusals ++ [r] })

/-- An admission Deal commits: every entry of the graph is valid (R65). The flag: it took the beat. -/
def Work.admissionTakes (w : Work) (q : Nat) : Bool × Work :=
  match w.dev.admissions.find? (fun a => a.queue == q) with
  | none => (false, w)
  | some a =>
    let w := w.upd (fun d => { d with admissions := d.admissions.filter (fun x => x.queue != q) })
    if w.admissionHeld (q / 32) then (false, w.refuseGraph a)
    else
      let w := w.advanceHead q
      let g := { a.graph with valid := true }
      (true, (w.upd (fun d => { d with graphs := d.graphs ++ [g], lastGraph := put none q (some g.gid) d.lastGraph })).recheck)

/-- R87: place of a due Deal: the beat it was first due, its class, and its place in its class. -/
def DealDue.rank (x : DealDue) : Nat × Nat × Nat :=
  match x.kind with
  | .slotted s => (x.firstDue, 0, s)
  | .admission _ => (x.firstDue, 1, x.seq)
  | .migration _ _ => (x.firstDue, 2, x.seq)

def DealDue.before (x y : DealDue) : Bool :=
  let (a, b, c) := x.rank
  let (d, e, f) := y.rank
  decide (a < d) || (a == d && (decide (b < e) || (b == e && decide (c < f))))

/-- Due Deals in the order in which they take a beat. -/
def dealOrder (l : List DealDue) : List DealDue :=
  l.foldl (fun acc x => acc.takeWhile (fun y => !x.before y) ++ [x] ++ acc.dropWhile (fun y => !x.before y)) []

/-- Try one due Deal: it commits, or aborts. The flag: it committed. -/
def Work.tryDeal (w : Work) (x : DealDue) : Bool × Work :=
  let w := w.upd (fun d => { d with due := d.due.filter (fun y => y.seq != x.seq) })
  match x.kind with
  | .slotted s =>
    if (w.deal_ s).state ≠ .committing then (false, w)
    else
      match w.dealFault s with
      | (some a, w) => (false, w.closeDeal s a.outcome a.code a.index)
      | (none, w) => (true, w.dealTakes s)
  | .admission q => w.admissionTakes q
  | .migration c k =>
    match w.dev.mig? c with
    | none => (false, w)
    | some m =>
      match w.wordsFault m.ctx x.words with
      | (some a, w) => (false, w.migEnded c k (if a.outcome = 3 then .mismatch else .fault (((x.words[a.index - 64]?).map (·.va)).getD 0)))
      | (none, w) => (true, (w.writeWords m.ctx x.words).migEnded c k .committed)

/-- Deals that the beat's committer leaves waiting: a slotted one moved from its AT beat is late (R87). -/
def Work.moveOn (w : Work) : Work :=
  let b := w.dev.beat
  w.each (w.dev.due.filter (fun x => decide (x.firstDue ≤ b))) (fun x w =>
    match x.kind with
    | .slotted s => w.setDeal s (fun y => if y.at_.isSome then { y with late := true } else y)
    | _ => w)

/-- One commit beat: the due Deals in order, until one commits. -/
def Work.takeBeat (w : Work) : List DealDue → Work
  | [] => w
  | x :: rest =>
    match w.tryDeal x with
    | (true, w) => (w.upd (fun d => { d with lastCommit := some d.beat })).moveOn
    | (false, w) => w.takeBeat rest

/-- The first beat, from now on, on which some due Deal meeting `p` can commit: no beat takes two (R87). -/
def Dev.nextCommit (d : Dev) (p : DealDue → Bool) : Option Nat :=
  match (d.due.filter p).foldl (fun (m : Option Nat) x => some (min (m.getD x.firstDue) x.firstDue)) none with
  | none => none
  | some b => some (max (max b d.beat) (match d.lastCommit with
      | some l => l + 1
      | none => 0))

/-- Time passes to that beat, and the Deals due on it are taken. -/
def Work.commitBeat (w : Work) (p : DealDue → Bool) : Work :=
  match w.dev.nextCommit p with
  | none => w
  | some b =>
    let w := w.passTo b
    w.takeBeat (dealOrder (w.dev.due.filter (fun x => decide (x.firstDue ≤ b))))

def dealCommitBeatWork (w : Work) : Work := w.commitBeat (fun _ => true)

/-- DEAL_COMMIT_BEAT (R85, R87). -/
def execDealCommitBeat (s : State) : Host.Outcome State Fault Refusal := s.run dealCommitBeatWork

def admissionCommitWork (w : Work) : Work :=
  w.commitBeat (fun x => match x.kind with
    | .admission _ => true
    | _ => false)

/-- ADMISSION_COMMIT (R65, R87). -/
def execAdmissionCommit (s : State) : Host.Outcome State Fault Refusal := s.run admissionCommitWork

end Sys2Proof.Machine
end

