-- ==== Sys2Proof/Machine/Save.lean ====
section
/-! DEFINITION. Context save and restore (R77 to R80, R307), and the invalidation of cached translations (R58). -/

namespace Sys2Proof.Machine

def Work.saveAddr (w : Work) : Nat := (w.reg pgTt .ttSaveAddrLo).toNat + w.rf pgTt .ttSaveAddrHi 15 0 * 2 ^ 32

/-- A save or restore ends with its RESULT, CODE and TASKS (R77). -/
def Work.saveResult (w : Work) (result code tasks : Nat) : Work :=
  let w := w.setReg pgTt .ttSaveStat (atBit result 30 ||| atBit code 18 ||| atBit tasks 0)
  w.upd (fun d => { d with save := none })

/-- An instance that has not started is evicted: its generation rises, and it starts over without a slot (R78, R264). -/
def Work.evictInst (w : Work) (i : Inst) : Work :=
  match i.slot with
  | none => w
  | some sl =>
    let w := (w.bumpGen i.cluster sl).freePages i
    let w := w.upd (fun d => { d with sync := { d.sync with cellWaits := d.sync.cellWaits.filter (fun x => x.iid != i.iid) } })
    let w := w.setTask i.gid i.ti (fun t => { t with gen := w.gen i.cluster sl })
    w.setInst i.iid (fun i => freshInst i.iid i.gid i.ti i.rel i.cluster i.lo i.hi)

/-- SAVE begins (R78): admission stops, and instances that have not started are evicted. -/
def Work.saveStart (w : Work) (ctx limitUs : Nat) : Work :=
  let w := w.upd (fun d => { d with save := some (ctx, d.beat + limitUs * 250) })
  let w := w.setReg pgTt .ttSaveStat 0
  let es := w.dev.insts.filter (fun i => w.dev.ctxOf i.gid == ctx && i.slot.isSome && !i.started && !i.isLane && !i.stopOrdered)
  let w := w.each es (fun i w => w.evictInst i)
  w.upd (fun d => { d with graphs := d.graphs.map (fun g => if g.ctx = ctx then { g with tasks := g.tasks.map (fun t =>
    if t.state = .primed ∨ t.state = .released then { t with launchTaken := false, launched := false } else t) } else g) })

/-- No instance of the context holds a slot (R78). Log 83, DEDUCED: saving (R77 to R79). -/
def Dev.drainedCtx (d : Dev) (ctx : Nat) : Bool := !d.insts.any (fun i => d.ctxOf i.gid == ctx && i.slot.isSome)

/-- Local pitches of a context, ascending. -/
def Work.localPitches (w : Work) (ctx : Nat) : List Pitch := (List.range 32).filterMap (fun n => w.pitchFor ctx n)

/-- The image's header (R79). -/
def Work.imageHeader (w : Work) (ctx tasks clusters : Nat) : List Byte :=
  let loc := (List.range 32).flatMap (fun n => leBytes 4 (match w.pitchFor ctx n with
    | some p => 1 + p.wd * 2 ^ 8 + p.ht * 2 ^ 16
    | none => 0))
  let h := leBytes 1 1 ++ leBytes 1 ctx ++ leBytes 2 0 ++ leBytes 4 tasks ++ leBytes 4 clusters ++ leBytes 4 0 ++ loc
  h ++ List.replicate (256 - h.length) 0

def TaskState.code : TaskState → Nat
  | .waiting => 0 | .primed => 1 | .released => 2 | .active => 3 | .draining => 4 | .done => 5 | .failed => 6 | .cancelled => 7

/-- A task entry of the image: the descriptor's header, then state, outstanding hard and soft dependences, and generation. The
places of the last four are the model's (log 27, DESIGN CHOICE). -/
def taskImage (g : Graph) (ti : Nat) (t : Task) : List Byte :=
  let out (l : List Nat) : Nat := (l.filter (fun s => g.stateOf s != .done)).length
  let b := t.desc.take 64 ++ leBytes 4 t.state.code ++ leBytes 4 (out (g.hard ti)) ++ leBytes 4 (out (g.softs ti)) ++ leBytes 4 t.gen.toNat
  b ++ List.replicate (128 - b.length) 0

/-- The 256 bytes of a cluster: its 48 cells, then its wait state (R79, R295). -/
def Work.clusterImage (w : Work) (c : Nat) : List Byte :=
  (List.range 48).flatMap (fun k => leBytes 4 (w.cellVal c k))
    ++ (List.range 12).flatMap (fun k => leBytes 4 (w.reg ⟨.sy, c⟩ .syCellWs k).toNat) ++ List.replicate 16 0

/-- When no instance of the context holds a slot, the image is written, its entries are freed and SAVED is set. -/
def saveImageWriteWork (w : Work) : Work :=
  match w.dev.save with
  | none => w
  | some (ctx, _) =>
    if w.dev.drainedCtx ctx = false then w
    else
      let gs := w.dev.graphs.filter (fun g => g.ctx == ctx && !g.ended)
      let n := gs.foldl (fun s g => s + g.tasks.length) 0
      let cs := (w.localPitches ctx).flatMap Pitch.clusters
      let img := w.imageHeader ctx n cs.length ++ gs.flatMap (fun g => (g.tasks.zipIdx).flatMap (fun (t, k) => taskImage g k t))
        ++ cs.flatMap w.clusterImage
      if w.backed w.saveAddr img.length = false then w.saveResult 2 0 0
      else
        let w := w.writePhys w.saveAddr (img.map (·, false))
        let w := w.setRf pgTt .ttCtxCfg 30 30 1 ctx
        let w := w.upd (fun d => { d with
          graphs := d.graphs.filter (fun g => !(g.ctx == ctx && !g.ended)), saved := d.saved ++ gs,
          sync := { d.sync with waits := d.sync.waits.filter (fun x => match x.who with
            | .task gid _ => !gs.any (fun g => g.gid == gid)
            | .slot _ => true) } })
        w.saveResult 1 0 n

/-- SAVE_IMAGE_WRITE (R78, R79, R307). -/
def execSaveImageWrite (s : State) : Host.Outcome State Fault Refusal := s.run saveImageWriteWork

/-- The oldest running instance of a context. -/
def Dev.oldestRunning (d : Dev) (ctx : Nat) : Nat :=
  let l := d.insts.filter (fun i => d.ctxOf i.gid == ctx && i.slot.isSome && i.started && !i.isLane)
  match l.foldl (fun (b : Option Inst) i => match b with
    | none => some i
    | some j => if i.tookAt < j.tookAt then some i else some j) none with
  | some i => codeInst (i.slot.getD 0) i.cluster
  | none => codeNone

def saveTimeoutWork (w : Work) : Work :=
  match w.dev.save with
  | none => w
  | some (ctx, b) =>
    if w.dev.drainedCtx ctx then w
    else
      let w := w.passTo b
      let w := w.raise pgTt .saveTimeout ⟨Err.severity .saveTimeout, some ctx, 0xFFFFFFFF, w.dev.oldestRunning ctx, []⟩
      (w.saveResult 2 0 0).recheck

/-- SAVE_TIMEOUT (R78). -/
def execSaveTimeout (s : State) : Host.Outcome State Fault Refusal := s.run saveTimeoutWork

/-- RESTORE (R80, R307). With too few free entries in the pool it fails with REJ_STATE (log 95, DESIGN CHOICE). -/
def Work.restore (w : Work) (ctx : Nat) : Work :=
  let a := w.saveAddr
  let fail (w : Work) (c : Rej) : Work := w.saveResult 2 c.code 0
  if w.rb pgTt .ttCtxCfg 30 ctx = false then fail w .state
  else if w.backed a 256 = false then fail w .range
  else
    let (l, w) := w.readPhys a 256 ⟨some ctx, 0xFFFFFFFF, 0xFFFFFFFF⟩
    let h := l.map (·.1)
    let entry (n : Nat) : Nat := bytesAt h (16 + 4 * n) 4
    let gs := w.dev.saved.filter (fun g => g.ctx == ctx)
    let n := gs.foldl (fun s g => s + g.tasks.length) 0
    let okPitch (k : Nat) : Bool := entry k % 2 == 0 || (match w.pitchFor ctx k with
      | some p => p.wd == fieldN (entry k) 12 8 && p.ht == fieldN (entry k) 19 16
      | none => false)
    let ps := (List.range 32).filterMap (fun k => if entry k % 2 = 1 then w.pitchFor ctx k else none)
    let cs := ps.flatMap Pitch.clusters
    let base := a + 256 + 128 * bytesAt h 4 4
    if l.any (·.2) ∨ byteAt h 0 ≠ 1 ∨ byteAt h 1 ≠ ctx ∨ bytesAt h 4 4 ≠ n ∨ bytesAt h 8 4 ≠ cs.length
        ∨ (List.range 32).any (fun k => !okPitch k) ∨ w.backed base (256 * cs.length) = false then fail w .range
    else if w.dev.freeEntries < n then fail w .state
    else
      let w := w.each (cs.zipIdx) (fun (c, k) w =>
        let (b, w) := w.readPhys (base + 256 * k) 256 ⟨some ctx, 0xFFFFFFFF, 0xFFFFFFFF⟩
        let w := w.each (List.range 48) (fun j w => w.setReg ⟨.sy, c⟩ .syCell (BitVec.ofNat 32 (pbNat b (4 * j) 4)) j)
        w.each (List.range 12) (fun j w => w.setReg ⟨.sy, c⟩ .syCellWs (BitVec.ofNat 32 (pbNat b (192 + 4 * j) 4)) j))
      let back := gs.map (fun g => { g with tasks := g.tasks.map (fun t =>
        if t.waitMet then t else { t with waitRegistered := false }) })
      let w := w.upd (fun d => { d with graphs := d.graphs ++ back, saved := d.saved.filter (fun g => g.ctx != ctx) })
      -- instances stand in the pitch where it now lies
      let w := w.each (w.dev.insts.filter (fun i => gs.any (fun g => g.gid == i.gid))) (fun i w =>
        match i.task? w.dev with
        | none => w
        | some t =>
          match w.pitchOfTask i.gid t with
          | none => w
          | some p =>
            let c := if t.one then p.at (t.f 4 1) (t.f 5 1) else (p.clusters[i.rel]?).getD i.cluster
            w.setInst i.iid (fun i => { i with cluster := c }))
      ((w.setRf pgTt .ttCtxCfg 30 30 0 ctx).saveResult 1 0 n).recheck

/-! ### TT_XLATE_INV (R58, R261) -/

/-- The write: BUSY is set, and the topology-cache lines of the context are dropped. -/
def Work.xlateInv (w : Work) (ctx : Nat) : Work :=
  w.upd (fun d => { d with
    ttInvDue := some ctx, clusters := d.clusters.map (fun (c, cl) => (c, { cl with tc := cl.tc.filter (fun x => x.ctx != ctx) })) })

/-- No cluster holds a translation of the context any longer. -/
def xlateInvDoneWork (w : Work) : Work :=
  match w.dev.ttInvDue with
  | none => w
  | some ctx => w.upd (fun d => { d with ttInvDue := none, xheld := dropRange (ctx * 2 ^ 80) ((ctx + 1) * 2 ^ 80) d.xheld })

/-- XLATE_INV_DONE (R58): BUSY clears. -/
def execXlateInvDone (s : State) : Host.Outcome State Fault Refusal := s.run xlateInvDoneWork

end Sys2Proof.Machine
end

