-- ==== Sys2Proof/Machine/Hawker.lean ====
section
/-! DEFINITION. The Hawker: the streams of every kind of instance (R255), what it may issue (R258, R259, R262), the topology cache
(R260, R261), and the checks it makes on what lands (R22, R26, R51, R93, R162, R249). -/

namespace Sys2Proof.Machine

/-! ### Requests -/

/-- One unit of a stream: where it lands, the bytes it reads, whether it goes through the topology cache, whether a prologue may run
it, whether it lands in the landing reservation, the bytes of one index in it (0: it brings none), and whether it goes on with the
transfer of the unit before it (R41). -/
structure Req where
  stream : Nat
  item : Nat
  pieces : List (Nat × Nat)
  topo : Bool
  prologue : Bool
  landing : Bool
  idx : Nat := 0
  cont : Bool := false
  deriving DecidableEq, Repr

def sDesc : Nat := 0
def sSegs : Nat := 1
def sIds : Nat := 2
def sWts : Nat := 3
def sOffs : Nat := 4
def sNeigh : Nat := 5
def sEdgeW : Nat := 6
def sPanel : Nat := 10
def sShadow : Nat := 11
def sU : Nat := 12
def sV : Nat := 13
def sBias : Nat := 14
def sX : Nat := 15
def sXHead : Nat := 16
def sScal : Nat := 20
/-- MEM operand k (3: AUX) of operation op. -/
def sOp (op k : Nat) : Nat := 32 + 4 * op + k

def Inst.drop (i : Inst) (p : Landed → Bool) : Inst := { i with landed := i.landed.filter (fun x => !p x) }

def topoStream (s : Nat) : Bool := s == sOffs || s == sNeigh || s == sEdgeW

/-- A unit has landed whole. -/
def Inst.hasItem (i : Inst) (s item : Nat) : Bool := i.landed.any (fun x => x.stream == s && x.item == item)

/-- Requests of a unit that have been issued, while it has not landed whole. -/
def Dev.partsOut (d : Dev) (i : Inst) (s item : Nat) : Nat :=
  (i.parts.filter (fun x => x.stream == s && x.item == item)).length
    + (d.fetches.filter (fun f => f.iid == i.iid && (match f.dest with
      | .stream s' item' _ _ => s' == s && item' == item
      | _ => false))).length

/-- The page of the engine on which a task runs (R256, R270). -/
def Task.page (t : Task) (c : Nat) : Page :=
  match t.kind with
  | some .transform => ⟨.ta, c⟩
  | some .vector => ⟨.ve, c⟩
  | some .matchT => ⟨.sp, c⟩
  | some .copy => ⟨.pt, c⟩
  | _ => ⟨.gu, c⟩

/-- All of a list: none where one is missing. -/
def allSome {α : Type} : List (Option α) → Option (List α)
  | [] => some []
  | none :: _ => none
  | some x :: t => (allSome t).map (x :: ·)

/-- Chunks of n consecutive entries of `size` bytes from entry `a`, at most 256 B each: item number, first entry, entries. -/
def chunkList (a n size : Nat) : List (Nat × Nat × Nat) :=
  let per := 256 / size
  (List.range (ceilDiv n per)).map (fun k => (k, a + k * per, min per (n - k * per)))

/-! ### Lists (R92, R93) -/

/-- Segment words of the instance, from SEGS[lo] to SEGS[hi]: one by one, where they have landed. -/
def Inst.segWord (i : Inst) (k : Nat) : Option (Nat × Bool) :=
  (i.got sSegs (k / 64)).map (fun l => (pbNat l (4 * (k % 64)) 4, pbPoison l (4 * (k % 64)) 4))

/-- First entry of each segment of the instance and the end of the last: none until the segment array has landed. -/
def Inst.bounds (i : Inst) (l : IdList) : Option (List Nat) :=
  if l.segs = 0 then some ((List.range (i.hi - i.lo + 1)).map (fun k => i.lo + k))
  else (List.range (i.hi - i.lo + 1)).foldr (fun k acc => match i.segWord k, acc with
    | some (x, _), some t => some (x :: t)
    | _, _ => none) (some [])

/-- First list entry of the instance, and how many it has. -/
def Inst.entries (i : Inst) (l : IdList) : Option (Nat × Nat) :=
  (i.bounds l).map (fun b => (b.headD 0, b.getLastD 0 - b.headD 0))

/-- ID and weight of list entry e: the entry's bits and poison, and the weight. -/
def Inst.listId (i : Inst) (l : IdList) (e0 e : Nat) : Option (Nat × Bool) :=
  let per := 256 / l.idBytes
  (i.got sIds ((e - e0) / per)).map (fun b =>
    (pbNat b (l.idBytes * ((e - e0) % per)) l.idBytes, pbPoison b (l.idBytes * ((e - e0) % per)) l.idBytes))

def elemOf (f : Fmt) (b : List PByte) (off : Nat) : Elem := ⟨f.elemVal (pbNat b off (f.bits / 8)), pbPoison b off (f.bits / 8)⟩
def oneElem : Elem := ⟨Val.one, false⟩

def Inst.listWeight (i : Inst) (l : IdList) (e0 e : Nat) : Option Elem :=
  match wfmtOf l.wfmt with
  | none => some oneElem
  | some f =>
    let per := 256 / (f.bits / 8)
    (i.got sWts ((e - e0) / per)).map (fun b => elemOf f b (f.bits / 8 * ((e - e0) % per)))

def nullId (idw : Bool) (x : Nat) : Bool := if idw then x == 2 ^ 64 - 1 else x == 2 ^ 32 - 1
/-- Vertex or row number of an ID. -/
def idLocal (idw : Bool) (x : Nat) : Nat := if idw then x % 2 ^ 32 else x
/-- Home device of an ID, when it is another device (R22). Log 75, DEDUCED: global IDs (R22, R112). -/
def idHome (self : Nat) (idw : Bool) (x : Nat) : Option Nat := if idw && decide (fieldN x 63 52 ≠ self) then some (fieldN x 63 52) else none
/-- A non-null global ID with a reserved bit set (R22). -/
def idReserved (idw : Bool) (x : Nat) : Bool := idw && !nullId idw x && decide (fieldN x 51 32 ≠ 0)

/-- Requests for the frontier and index-list descriptors. Their contents are those that admission read (R64; log 105, DEDUCED). -/
def Inst.descReqs (i : Inst) (t : Task) : List Req :=
  if t.kind = some .embedBag then [⟨sDesc, 1, [(t.f 72 8, 32)], false, true, false, 0, false⟩]
  else ⟨sDesc, 0, [(t.f 64 8, 64)], false, true, false, 0, false⟩
    :: (if i.hasItem sDesc 0 then [⟨sDesc, 1, [(bytesAt (t.fmt fmtFrontier) 8 8, 32)], false, true, false, 0, false⟩] else [])

/-- Requests for the segment array. -/
def Inst.segReqs (i : Inst) (l : IdList) : List Req :=
  if l.segs = 0 then []
  else (chunkList i.lo (i.hi - i.lo + 1) 4).map (fun (k, a, n) => ⟨sSegs, k, [(l.segs + 4 * a, 4 * n)], false, true, false, 0, false⟩)

/-- Requests for IDs and weights; `asIndex`: the IDs are the indices themselves. -/
def Inst.idReqs (i : Inst) (l : IdList) (asIndex : Bool) : List Req :=
  match i.entries l with
  | none => []
  | some (e0, n) =>
    let ids := (chunkList e0 n l.idBytes).map (fun (k, a, m) =>
      (⟨sIds, k, [(l.ids + l.idBytes * a, l.idBytes * m)], false, true, false, if asIndex then l.idBytes else 0, false⟩ : Req))
    match wfmtOf l.wfmt with
    | none => ids
    | some f =>
      let ws := (chunkList e0 n (f.bits / 8)).map (fun (k, a, m) =>
        (⟨sWts, k, [(l.weights + f.bits / 8 * a, f.bits / 8 * m)], false, true, false, 0, false⟩ : Req))
      ids.flatMap (fun r => r :: ws.filter (fun x => x.item == r.item)) ++ ws.filter (fun x => decide (ids.length ≤ x.item))

/-! ### Adjacency (R23 to R26, R95) -/

/-- OFFSET(v) and OFFSET(v + 1) for list entry e, as raw words. -/
def Inst.offs (i : Inst) (e : Nat) : Option (Nat × Nat) := (i.got sOffs e).map (fun b => (pbNat b 0 8, pbNat b 8 8))

/-- First neighbour index and degree. -/
def Inst.span (i : Inst) (e : Nat) : Option (Nat × Nat) :=
  (i.offs e).map (fun (a, b) => (fieldN a 47 0, fieldN b 47 0 - fieldN a 47 0))

def offReq (T : Topo) (e v : Nat) : Req := ⟨sOffs, e, [(T.offs + 8 * v, 16)], true, true, false, 0, false⟩

/-- k distinct positions picked from a list, the draws depending on seed, vertex and degree alone (R95). -/
def drawFrom (seed v d : Nat) : Nat → List Nat → List Nat
  | 0, _ => []
  | k + 1, l =>
    let n := Config.sampleDraw seed v d k % max 1 l.length
    match l[n]? with
    | some x => x :: drawFrom seed v d k (l.eraseIdx n)
    | none => []

def samplePos (seed v d fanout : Nat) : List Nat := drawFrom seed v d (min d fanout) (List.range d)

/-- Item number of chunk k of the neighbours of list entry e. -/
def nItem (e k : Nat) : Nat := e * 2 ^ 32 + k

/-- Requests for the neighbours of a vertex, and their edge weights: all of them, or sampled positions. -/
def neighReqs (T : Topo) (e first : Nat) (pos : Option (List Nat)) (n : Nat) (wts : Bool) : List Req :=
  let size := T.idBytes
  let per := 256 / size
  let wb := wfmtBytes T.wfmt
  (List.range (ceilDiv n per)).flatMap (fun k =>
    let m := min per (n - k * per)
    let at_ (size base : Nat) : List (Nat × Nat) := match pos with
      | none => [(base + size * (first + k * per), size * m)]
      | some ps => ((ps.drop (k * per)).take m).map (fun p => (base + size * (first + p), size))
    (⟨sNeigh, nItem e k, at_ size T.neigh, true, true, false, size, false⟩ : Req)
      :: (if wts then [⟨sEdgeW, nItem e k, at_ wb T.weights, true, true, false, 0, false⟩] else []))

/-- The t-th neighbour of list entry e: its bits and poison, and its edge weight. -/
def Inst.neighbour (i : Inst) (T : Topo) (e t : Nat) : Option (Nat × Bool) :=
  let per := 256 / T.idBytes
  (i.got sNeigh (nItem e (t / per))).map (fun b => (pbNat b (T.idBytes * (t % per)) T.idBytes, pbPoison b (T.idBytes * (t % per)) T.idBytes))
def Inst.edgeWeight (i : Inst) (T : Topo) (e t : Nat) : Option Elem :=
  let per := 256 / T.idBytes
  match wfmtOf T.wfmt with
  | none => some oneElem
  | some f => (i.got sEdgeW (nItem e (t / per))).map (fun b => elemOf f b (f.bits / 8 * (t % per)))

/-- A vertex takes the Wholesale path (R96, R124). -/
def GatherBody.hub (g : GatherBody) (deg : Nat) : Bool := g.expand == 1 && decide (g.wsT ≤ deg)

/-- How many neighbours of a vertex are gathered on the Retail path, and which. -/
def GatherBody.picks (g : GatherBody) (v deg : Nat) : Option (List Nat) × Nat :=
  if g.expand = 2 then (some (samplePos g.seed v deg g.fanout), min deg g.fanout) else (none, if g.hub deg then 0 else deg)

/-! ### Streams (R255) -/

/-- A lane's stream: the slab's neighbours, by absolute index, and their weights. -/
def Inst.laneReqs (i : Inst) (t : Task) : List Req :=
  neighReqs t.topo 0 i.lo none (i.hi - i.lo) t.gather.edgeWeights

/-- GATHER and EMBED_BAG, once the list descriptor has been read. -/
def Inst.gatherReqs (i : Inst) (t : Task) : List Req :=
  let g := t.gather
  let l := t.list
  i.descReqs t ++ (if i.hasItem sDesc 1 = false then []
    else if g.scatter.isSome ∨ g.expand = 0 then i.segReqs l ++ i.idReqs l true
    else
      let T := t.topo
      let es := (List.range (i.hi - i.lo)).map (fun k => i.lo + k)
      let listed := es.filterMap (fun e => (i.listId l i.lo e).bind (fun (x, _) => if nullId l.idw x then none else some (e, idLocal l.idw x)))
      i.idReqs l false ++ listed.map (fun (e, v) => offReq T e v)
        ++ listed.flatMap (fun (e, v) => match i.span e with
          | none => []
          | some (a, d) => let (ps, n) := g.picks v d
                           neighReqs T e a ps n g.edgeWeights))

/-- Head and descriptor of an EMBED_BAG instance's table (R156, R158). -/
def Work.tableReqs (w : Work) (i : Inst) (t : Task) : List Req :=
  ⟨sTbl, 0, [(w.headVa (w.dev.ctxOf i.gid) (t.f 64 2), 16)], false, true, false, 0, false⟩
    :: (match (i.got sTbl 0).bind activeOf with
      | some a => [⟨sTbl, 1, [(a, 64)], false, true, false, 0, false⟩]
      | none => [])

/-- Row blocks of a TRANSFORM instance: first row and rows. -/
def Inst.blocks (i : Inst) : List (Nat × Nat) :=
  (List.range (ceilDiv (i.hi - i.lo) i.rb)).map (fun k => (i.lo + k * i.rb, min i.rb (i.hi - (i.lo + k * i.rb))))

/-- Tiles of an X_TILED input under a row block: tile row, tile column, address (R48), in the order in which the array takes them:
tile row by tile row in gather-merge and for the predictor, K-panel by K-panel otherwise (R238, R244). -/
def XBody.tilesOf (x : XBody) (byRow : Bool) (r n : Nat) : List (Nat × Nat × Nat) :=
  let tile (a j : Nat) : Nat × Nat × Nat := (r / 64 + a, j, x.x + ((r / 64 + a) * x.kp + j) * x.xf.tileBytes)
  if byRow then (List.range (ceilDiv n 64)).flatMap (fun a => (List.range x.kp).map (fun j => tile a j))
  else (List.range x.kp).flatMap (fun j => (List.range (ceilDiv n 64)).map (fun a => tile a j))

/-- Bytes of a tile behind its header, once that has landed; none where the header is poisoned (R240), or a check of it fails. -/
def Inst.tileBytes (i : Inst) (item : Nat) : Option Nat :=
  (i.got sXHead item).map (fun b => if pbPoison b 0 64 || (tileHeadCheck b).isSome then 0 else pbNat b 16 4 - 64)

/-- Row steps of the main phase of an N-panel: each K-panel in turn on groups of f rows; in gather-merge, row by row (R196, R244). -/
def mainSteps (x : XBody) (merge : Bool) (rows : Nat) : Nat := if merge then rows else x.kp * ceilDiv rows (fold x.k)

/-- Row blocks with the present one's number and rows (R194). -/
def Inst.block (i : Inst) (x : XBody) : Nat × Nat × Nat :=
  let k := i.pos / max 1 x.np
  let b := (i.blocks[k]?).getD (0, 0)
  (k, b.1, b.2)

/-- Steps of the predictor, once per row block: 8 rows each (R198). -/
def Inst.predSteps (i : Inst) (x : XBody) : Nat :=
  if i.predict = 0 ∨ i.pos % max 1 x.np ≠ 0 then 0 else ceilDiv (i.block x).2.2 8

/-- First panel, by running number, that a streamed instance still uses: of the weights, and of the shadow weights. -/
def Inst.panelAt (i : Inst) (x : XBody) : Nat × Nat :=
  let rows := (i.block x).2.2
  let m := mainSteps x i.merge rows
  let q := i.sub - i.predSteps x
  (i.pos * x.kp + (if q < m then q / max 1 (ceilDiv rows (fold x.k)) else x.kp), i.pos * x.kp + (q - m))

/-- TRANSFORM. `pos`: the N-panels done. A streamed instance holds two panels, or under gather-merge those of two N-panels (R194,
R243), and every instance the X rows or tiles of two row blocks. -/
def Inst.transformReqs (i : Inst) (t : Task) : List Req :=
  let x := t.xform
  let P := panelBytes x.wf
  let nb := i.blocks
  let (blk, _, _) := i.block x
  let panel (s : Nat) (base bytes item k : Nat) : Req := ⟨s, item, [(base + k * bytes, bytes)], false, true, false, 0, false⟩
  let shadow := bytesAt (t.fmt fmtPred) 32 8
  let once := (if i.predict ≠ 0 then
      [⟨sU, 0, [(bytesAt (t.fmt fmtPred) 16 8, 17 * x.k)], false, true, false, 0, false⟩,
       ⟨sV, 0, [(bytesAt (t.fmt fmtPred) 24 8, 17 * x.n)], false, true, false, 0, false⟩] else [])
    ++ (if x.b ≠ 0 then [⟨sBias, 0, [(x.b, 4 * x.n)], false, true, false, 0, false⟩] else [])
  let all := nb.length * x.np * x.kp
  let streamed (s base bytes a n : Nat) : List Req := (List.range n).filterMap (fun k =>
    if a + k < all then some (panel s base bytes (a + k) ((a + k) % (x.np * x.kp))) else none)
  let panels :=
    if i.resident then (List.range (x.kp * x.np)).flatMap (fun k => panel sPanel x.w P k k
      :: (if i.predict = 1 then [panel sShadow shadow 34816 k k] else []))
    else if i.merge then streamed sPanel x.w P (i.pos * x.kp) (2 * x.kp)
    else streamed sPanel x.w P (i.panelAt x).1 2 ++ (if i.predict = 1 then streamed sShadow shadow 34816 (i.panelAt x).2 2 else [])
  let xs := ((nb.zipIdx.filter (fun (_, k) => decide (blk ≤ k) && decide (k < blk + 2))).map (·.1)).flatMap (fun (r, n) =>
    if x.xt then
      let ts := x.tilesOf (i.merge || i.predict != 0) r n
      -- a tile's size is known once its header has landed
      (ts.take ((ts.takeWhile (fun (a, j, _) => i.hasItem sXHead (a * x.kp + j))).length + 1)).flatMap (fun (a, j, va) =>
        let it := a * x.kp + j
        ⟨sXHead, it, [(va, 64)], false, false, true, 0, false⟩ :: (match i.tileBytes it with
          | some m => if m = 0 then [] else [⟨sX, it, [(va + 64, m)], false, false, true, 0, true⟩]
          | none => []))
    else (List.range n).map (fun k => (⟨sX, r + k, [(x.x + (r + k) * x.xs, x.xf.rowBytes x.k)], false, false, true, 0, false⟩ : Req)))
  once ++ panels ++ xs

/-- A row or tile of X that some row step has read (R258): its first, in the order of the row steps. -/
def Inst.usedX (i : Inst) (x : XBody) (item : Nat) : Bool :=
  let (_, r0, n) := i.block x
  let f := fold x.k
  let first := i.pos % max 1 x.np == 0
  if x.xt then
    let a := item / max 1 x.kp
    let j := item % max 1 x.kp
    decide (r0 ≤ 64 * a) && decide (64 * a < r0 + n) && (!first || (if i.predict ≠ 0 then decide ((64 * a - r0) / 8 < i.sub)
      else if i.merge then decide (64 * a - r0 < i.sub)
      else decide (j * ceilDiv n f + (64 * a - r0) / f < i.sub)))
  else decide (r0 ≤ item) && decide (item < r0 + n) && (!first || decide ((item - r0) / (if i.predict = 0 then f else 8) < i.sub))

/-- Length of the run of an operation: COUNT0, or under DYN0 the word of the count array (R223). -/
def Inst.runLength (i : Inst) (b : List Byte) (run : Nat) : Nat :=
  if fieldN (byteAt b 1) 2 2 = 1 then
    leNat ((List.range 4).map (fun k => (look (0, false) (bytesAt b 36 4 + 4 * run + k) i.opc).1))
  else opCount b 0

/-- Iterations of dimension 4 of an operation in this instance, and the first (R213). -/
def Inst.iter4 (i : Inst) (b : List Byte) : Nat × Nat := if byteAt b 1 % 2 = 1 then (i.lo, i.hi - i.lo) else (0, opCount b 4)

/-- Loop indices of run n, dimensions 1 to 4; dimension 1 fastest. -/
def runIndex (b : List Byte) (n : Nat) : List Nat :=
  let c1 := opCount b 1
  let c2 := opCount b 2
  let c3 := opCount b 3
  [n % c1, n / c1 % c2, n / (c1 * c2) % c3, n / (c1 * c2 * c3)]

/-- Runs of an operation in this instance. -/
def Inst.runs (i : Inst) (b : List Byte) : Nat := opCount b 1 * opCount b 2 * opCount b 3 * (i.iter4 b).2

/-- Address or offset of an operand's run (R213, R215). -/
def Inst.runBase (i : Inst) (b : List Byte) (k n : Nat) : Int :=
  let o := opdAt b k
  if opSegmented (byteAt b 0) then (o.base : Int) + (n : Int) * s32 (o.strides.getD 0 0)
  else
  let base := ((runIndex b n).zip o.strides).foldl (fun (a : Int) (x, s) => a + (x : Int) * s32 s) (o.base : Int)
  if o.space = 1 ∧ byteAt b 1 % 2 = 1 then base + ((i.iter4 b).1 : Int) * s32 (o.strides.getD 3 0) else base

/-- Lanes of an operation (R210). -/
def vopLanes (b : List Byte) : Nat := if byteAt b 2 = 1 then 128 else 64
def opdFmt (b : List Byte) (k : Nat) : Fmt := (fmtOf (opdAt b k).fmt).getD .fp32

/-- Bytes of a run of len elements: an MX or code run keeps the layout of the whole run. -/
def runBytes (b : List Byte) (k len : Nat) : Nat :=
  let f := opdFmt b k
  if f.isMx || f.isCode then f.rowBytes (runLen b k (opCount b 0)) else f.rowBytes (runLen b k len)

/-- Item of chunk j of a run or row. -/
def runItem (run j : Nat) : Nat := run * 4096 + j

/-- The first step of a run that reads byte `off` of operand k: block scales and a code row's header are read from the first on. -/
def byteStep (b : List Byte) (k off : Nat) : Nat :=
  let f := opdFmt b k
  let n := runLen b k (opCount b 0)
  let head := if f.isCode then 4 else 0
  if f.isMx ∧ (n * f.bits + 7) / 8 ≤ off then 0
  else
    let per := if k = 1 && !opReduction (byteAt b 0) then opGroup b else if k = 2 && opReduction (byteAt b 0) then opGroup b else 1
    (off - head) * 8 / f.bits * per / vopLanes b

/-- Steps of a run of len elements (R225). -/
def runSteps (b : List Byte) (len : Nat) : Nat := max 1 (ceilDiv len (vopLanes b))

/-- Chunk j of operand k of a run: the first step that reads it, and the last. -/
def chunkSteps (b : List Byte) (k len j : Nat) : Nat × Nat :=
  let n := runBytes b k len
  let f := opdFmt b k
  let body := (runLen b k (opCount b 0) * f.bits + 7) / 8
  let scales : Bool := f.isMx && decide (body < min n (256 * j + 256))
  (if j = 0 ∨ scales then 0 else byteStep b k (256 * j),
   if scales then runSteps b len - 1 else min (runSteps b len - 1) (byteStep b k (min n (256 * j + 256) - 1)))

/-- An operand that an operation reads from memory. -/
def opdReads (b : List Byte) (k : Nat) : Bool :=
  let code := byteAt b 0
  (opdAt b k).space == 1 && (k == 0 || (k == 1 && opReadsB code) || (k == 2 && code == 0x05))

/-- Requests for the MEM operands of run (or row) r, len elements, in the order in which its steps read them: chunks of 256 B. -/
def Inst.runReqs (i : Inst) (b : List Byte) (op r len : Nat) : List Req :=
  if len = 0 then []
  else (List.range (runSteps b len)).flatMap (fun s => (List.range 3).flatMap (fun k =>
    if opdReads b k = false then []
    else
      let n := runBytes b k len
      let base := (i.runBase b k r).toNat
      (List.range (ceilDiv n 256)).filterMap (fun j =>
        if (chunkSteps b k len j).1 = s then
          some ⟨sOp op k, runItem r j, [(base + 256 * j, min 256 (n - 256 * j))], false, false, true, 0, decide (0 < j)⟩
        else none)))

/-- Word k of a segmented operation's array with its poison: none where it has not landed. -/
def Inst.auxWord (i : Inst) (t : Task) (op k : Nat) : Option (Nat × Bool) :=
  let b := t.vop op
  if fieldN (byteAt b 6) 7 6 = 1 then
    (i.got (sOp op 3) (k / 64)).map (fun l => (pbNat l (4 * (k % 64)) 4, pbPoison l (4 * (k % 64)) 4))
  else
    let l := (List.range 4).map (fun j => look (0, false) (bytesAt b 112 8 + 4 * k + j) i.opc)
    some (pbNat l 0 4, l.any (·.2))

/-- Requests for word k's chunk of a MEM segment array. -/
def auxReq (b : List Byte) (op k : Nat) : List Req :=
  if fieldN (byteAt b 6) 7 6 = 1 then
    let a := k / 64 * 64
    [⟨sOp op 3, k / 64, [(bytesAt b 112 8 + 4 * a, 4 * min 64 (bytesAt b 28 4 + 1 - a))], false, false, true, 0, decide (0 < a)⟩]
  else []

/-- Rows that segment s reads. -/
def segRows (b : List Byte) (s a z : Nat) : List Nat :=
  let z := min z (opCount b 1)
  if byteAt b 0 = 0x36 then (if a < z then [s] else []) else (List.range (z - a)).map (fun k => a + k)

/-- Requests of a segmented operation from segment s on: the array as far as it is needed, and the rows of each segment whose bounds
have landed. -/
def Inst.segsReqs (i : Inst) (t : Task) (op : Nat) : Nat → Nat → List Req
  | 0, _ => []
  | fuel + 1, s =>
    let b := t.vop op
    auxReq b op s ++ auxReq b op (s + 1) ++ (match i.auxWord t op s, i.auxWord t op (s + 1) with
      | some (a, _), some (z, _) => (segRows b s a z).flatMap (fun r => i.runReqs b op r (opCount b 0)) ++ i.segsReqs t op fuel (s + 1)
      | _, _ => [])

/-- The requests of operation `op`, of which `done` runs or segments are over. A later operation's array in the operand cache is not
known yet: its rows come in order. -/
def Inst.opReqs (i : Inst) (t : Task) (op done : Nat) : List Req :=
  let b := t.vop op
  if opSegmented (byteAt b 0) then
    if fieldN (byteAt b 6) 7 6 ≠ 1 ∧ i.pos < op then (List.range (opRows b 0)).flatMap (fun r => i.runReqs b op r (opCount b 0))
    else i.segsReqs t op (bytesAt b 28 4 - done) done
  else (List.range (i.runs b)).flatMap (fun r => if r < done then [] else i.runReqs b op r (min (i.runLength b r) (opCount b 0)))

/-- What an operation reads depends on what the one before it writes to the operand cache (R217): run lengths, or the bounds of
broadcast segments. -/
def opWaits (b : List Byte) : Bool := fieldN (byteAt b 1) 2 2 == 1 || (byteAt b 0 == 0x36 && fieldN (byteAt b 6) 7 6 != 1)

/-- VECTOR. `pos`: operations done; `winCount`: runs or segments of the present one done. -/
def Inst.vectorReqs (i : Inst) (t : Task) : List Req :=
  (if t.f 80 8 = 0 then [] else [⟨sScal, 0, [(t.f 80 8, 64)], false, true, false, 0, false⟩])
    ++ ((List.range t.ops).takeWhile (fun op => decide (op ≤ i.pos) || !opWaits (t.vop op))).flatMap (fun op =>
      if op < i.pos then [] else i.opReqs t op (if op = i.pos then i.winCount else 0))

/-- A landed chunk of the present operation that every step has read (R258). -/
def Inst.usedOp (i : Inst) (t : Task) (s item : Nat) : Bool :=
  let b := t.vop i.pos
  let k := s - sOp i.pos 0
  if s < sOp i.pos 0 ∨ sOp i.pos 3 < s then false
  else if k = 3 then decide (64 * item + 63 < i.winCount)
  else
    let r := item / 4096
    let here := if opSegmented (byteAt b 0) && byteAt b 0 != 0x36 then i.row else i.winCount
    let len := if opSegmented (byteAt b 0) then opCount b 0 else min (i.runLength b r) (opCount b 0)
    decide (r < here) || (r == here && decide ((chunkSteps b k len (item % 4096)).2 < i.sub))

/-! ### The lists of a MATCH entry (R249, R250) -/

/-- List number of the neighbours of the p-th key of a TRIANGLE entry. -/
def triItem (p : Nat) : Nat := 2 ^ 33 + p

/-- Keys that the matcher holds. -/
def matchCap : Nat := 16384

/-- The n IDs below a bound in a sorted array are found by search: its reads are not charged (log 108, DEDUCED). -/
def Work.idAt (w : Work) (ctx va : Nat) (rd : Reader) : Option Nat :=
  match (w.translateRange ctx va 4 false rd).1 with
  | .error _ => none
  | .ok ps => match (w.readTargets ps rd).1 with
    | .ok l => some (pbNat l 0 4)
    | .error _ => none

/-- Positions among [lo, hi) of a sorted ID array whose ID is below `bound`: the first that is not. Log 108, DEDUCED: where a MATCH entry's chunk begins in a probe list (R250). -/
def Work.idSearch (w : Work) (ctx base bound : Nat) (rd : Reader) : Nat → Nat → Nat → Nat
  | 0, lo, _ => lo
  | fuel + 1, lo, hi =>
    if hi ≤ lo then lo
    else
      let mid := (lo + hi) / 2
      match w.idAt ctx (base + 4 * mid) rd with
      | some x => if x < bound then w.idSearch ctx base bound rd fuel (mid + 1) hi else w.idSearch ctx base bound rd fuel lo mid
      | none => lo

/-- Positions of list `e` whose IDs lie in [low, high]. -/
def Work.idRange (w : Work) (i : Inst) (t : Task) (e low high : Nat) : Option (Nat × Nat) :=
  (i.span e).map (fun (f, d) =>
    let T := t.topo
    let rd := i.reader w.dev
    let at_ (b : Nat) : Nat := w.idSearch (w.dev.ctxOf i.gid) (T.neigh + 4 * f) b rd 33 0 d
    (at_ low, at_ (high + 1)))

/-- Entries of a list that one MATCH entry takes. -/
def matchPer (t : Task) : Nat := if t.f 96 1 = 0 then 2 else 1

/-- Listed vertices of the present entry with their list numbers: none while they have not landed; a null one is none inside. -/
def Inst.matchIds (i : Inst) (t : Task) : Option (List (Nat × Option Nat)) :=
  let per := matchPer t
  allSome ((List.range per).map (fun k =>
    let e := (i.lo + i.pos) * per + k
    (i.listId t.list (i.lo * per) e).map (fun (x, _) => (e, if nullId false x then none else some x))))

/-- Build list of the entry, and under PAIRS its probe list: list numbers. -/
def Inst.matchLists (i : Inst) (t : Task) : Option (Nat × Option Nat) :=
  match i.matchIds t with
  | some [(ea, some _), (eb, some _)] =>
    (match i.span ea, i.span eb with
      | some (_, da), some (_, db) => some (if da ≤ db then (ea, some eb) else (eb, some ea))
      | _, _ => none)
  | some [(e, some _)] => (i.span e).map (fun _ => (e, none))
  | _ => none

/-- Positions of the build list: all of it under PAIRS, the part above the vertex under TRIANGLE. -/
def Work.buildRange (w : Work) (i : Inst) (t : Task) : Option (Nat × Nat) :=
  match i.matchLists t, i.matchIds t with
  | some (e, some _), _ => (i.span e).map (fun (_, d) => (0, d))
  | some (e, none), some [(_, some u)] => w.idRange i t e (u + 1) (2 ^ 32)
  | _, _ => none

/-- Keys of the present chunk. -/
def Inst.chunkKeys (i : Inst) : List Nat := (i.keys.drop (i.chunk * matchCap)).take matchCap

/-- The build list is still being read into the present chunk. -/
def Inst.building (i : Inst) : Bool :=
  match i.bpart with
  | none => true
  | some (n, e) => decide (n < e) && decide (i.keys.length < (i.chunk + 1) * matchCap)

/-- The p-th probe list: its list number and the positions that lie within the chunk (and, under TRIANGLE, above the vertex). -/
def Work.probeRange (w : Work) (i : Inst) (t : Task) : Option (Nat × Nat × Nat) :=
  let ks := i.chunkKeys
  if ks = [] then none else
  match i.matchLists t with
  | some (_, some p) => (w.idRange i t p (ks.headD 0) (ks.getLastD 0)).map (fun (a, b) => (p, a, b))
  | some (_, none) =>
    (i.keys[i.probe]?).bind (fun v =>
      (w.idRange i t (triItem i.probe) (max (v + 1) (ks.headD 0)) (ks.getLastD 0)).map (fun (a, b) => (triItem i.probe, a, b)))
  | none => none

/-- The list the matcher reads now: its number, the next position and the end. -/
def Work.matchPart (w : Work) (i : Inst) (t : Task) : Option (Nat × Nat × Nat) :=
  if i.building then
    (i.matchLists t).bind (fun (e, _) => (i.bpart.or (w.buildRange i t)).map (fun (n, z) =>
      (e, n, min z (n + ((i.chunk + 1) * matchCap - i.keys.length)))))
  else if i.part.isSome then
    (i.matchLists t).bind (fun (_, p) => i.part.map (fun (n, z) => (p.getD (triItem i.probe), n, z)))
  else w.probeRange i t

/-- MATCH: list entries, offsets, and the list being read, 64 IDs at a time; the offsets of the next probe list beside it. -/
def Work.matchReqs (w : Work) (i : Inst) (t : Task) : List Req :=
  let l := t.list
  let T := t.topo
  let per := matchPer t
  let a := i.lo * per
  let n := (i.hi - i.lo) * per
  let ids := (chunkList a n 4).map (fun (k, e, m) => (⟨sIds, k, [(l.ids + 4 * e, 4 * m)], false, true, false, 0, false⟩ : Req))
  let es := (List.range n).map (fun k => a + k)
  let vs := es.filterMap (fun e => (i.listId l a e).bind (fun (x, _) => if nullId false x then none else some (e, x)))
  let offs := vs.map (fun (e, v) => offReq T e v)
  let probes := if per = 2 then [] else
    (List.range 2).filterMap (fun k => (i.keys[i.probe + k]?).map (fun v => offReq T (triItem (i.probe + k)) v))
  let now := match w.matchPart i t with
    | none => []
    | some (e, p, z) => match i.span e with
      | none => []
      | some (f, _) => (List.range (ceilDiv (z - p) 64)).map (fun k =>
          (⟨sNeigh, nItem e (p + 64 * k), [(T.neigh + 4 * (f + p + 64 * k), 4 * min 64 (z - (p + 64 * k)))], true, true, true, 0, false⟩ : Req))
  ids ++ offs ++ probes ++ now

/-- The Hawker has begun to read a list: its positions stand from then on. -/
def Work.noteList (w : Work) (i : Inst) (t : Task) : Work :=
  if i.building then
    match i.bpart.or (w.buildRange i t) with
    | some r => w.setInst i.iid (fun i => { i with bpart := some r })
    | none => w
  else if i.part.isSome then w
  else match w.probeRange i t with
    | some (_, a, z) => w.setInst i.iid (fun i => { i with part := some (a, z) })
    | none => w

/-- The streams of an instance, in the order in which they are consumed. -/
def Work.reqsOf (w : Work) (i : Inst) (t : Task) : List Req :=
  if i.isLane then i.laneReqs t
  else match t.kind with
    | some .gather => i.gatherReqs t
    | some .embedBag => w.tableReqs i t ++ i.gatherReqs t
    | some .transform => i.transformReqs t
    | some .vector => i.vectorReqs t
    | some .matchT => w.matchReqs i t
    | _ => []

/-! ### Issue (R258, R259, R262) -/

/-- Requests of a unit: at most 256 B each, the first of a transfer marked (R41, R259). Log 14, DEDUCED: how streams are cut into transfers (R41, R256, R259). -/
def Req.split (r : Req) : List (Nat × Nat × Bool) :=
  r.pieces.flatMap (fun (a, n) => (List.range (ceilDiv n 256)).map (fun k => (a + 256 * k, min 256 (n - 256 * k), k == 0 && !r.cont)))

/-- A request that is ready: its unit, its number in it, address, bytes, and whether it begins a transfer. -/
structure Ask where
  req : Req
  part : Nat
  va : Nat
  n : Nat
  first : Bool
  deriving DecidableEq, Repr

/-- Where a unit lands (R255): 0 list staging (and the scalar registers), 1 topology cache, 2 operand cache, 3 landing reservation. -/
def Req.place (r : Req) : Nat :=
  if r.landing then 3 else if r.topo then 1 else if sPanel ≤ r.stream ∧ r.stream ≤ sBias then 2 else 0

def landStream (s : Nat) : Bool := s == sX || s == sXHead || decide (32 ≤ s)
def stageStream (s : Nat) : Bool := s == sDesc || s == sTbl || s == sSegs || s == sIds || s == sWts

/-- A landed unit has been consumed. -/
def Inst.used (i : Inst) (t : Task) (s item : Nat) : Bool :=
  match t.kind with
  | some .transform => i.usedX t.xform item
  | some .vector => i.usedOp t s item
  | _ => false

/-- Stream and item of a fetch that brings a Hawker unit. -/
def Dest.unit? : Dest → Option (Nat × Nat)
  | .stream s item _ _ => some (s, item)
  | _ => none

def Fetch.bytes (f : Fetch) : Nat := f.pieces.foldl (fun a p => a + p.2) 0

/-- The run-ahead of an instance: bytes issued or landed into its landing reservation and not yet consumed (R258). -/
def Dev.runAhead (d : Dev) (i : Inst) (t : Task) : Nat :=
  let isL (s : Nat) : Bool := landStream s || (s == sNeigh && t.kind == some .matchT)
  (i.landed.filter (fun x => isL x.stream && !i.used t x.stream x.item)).foldl (fun a x => a + x.data.length) 0
    + (i.parts.filter (fun x => isL x.stream)).foldl (fun a x => a + x.data.length) 0
    + (d.fetches.filter (fun f => f.iid == i.iid && ((f.dest.unit?).map (fun u => isL u.1)).getD false)).foldl (fun a f => a + f.bytes) 0

/-- Bytes of a cluster's list staging in use: of units on their way or landed in part (R260). -/
def Dev.staged (d : Dev) (c : Nat) : Nat :=
  (d.fetches.filter (fun f => f.cluster == c && ((f.dest.unit?).map (fun u => stageStream u.1)).getD false)).foldl (fun a f => a + f.bytes) 0
    + (d.resident c).foldl (fun a i => (i.parts.filter (fun x => stageStream x.stream)).foldl (fun a x => a + x.data.length) a) 0

/-- Entries of the index queue that an instance holds, on their way ones included (R257, R258). -/
def Inst.queued (i : Inst) : Nat := i.issued - i.idxTaken
def Dev.queuedIn (d : Dev) (c : Nat) : Nat := (d.resident c).foldl (fun a i => a + i.queued) 0

/-- HK_CFG of an instance: as it started with, or as it stands while it has not started (R275). -/
def Work.hawkCfg (w : Work) (i : Inst) : Word := if i.started || i.isLane then i.hkCfg else w.reg ⟨.hk, i.cluster⟩ .hkCfg

/-- Space, run-ahead and credits allow a request (R258, R260). -/
def Work.mayAsk (w : Work) (i : Inst) (t : Task) (a : Ask) : Bool :=
  let cfg := w.hawkCfg i
  let m := if a.req.idx = 0 then 0 else a.n / a.req.idx
  (a.req.place != 3 || decide (w.dev.runAhead i t + a.n ≤ min (fld cfg 27 16) t.landing * 1024))
    && (a.req.place != 0 || a.req.stream == sScal || decide (w.dev.staged i.cluster + a.n ≤ 32768))
    && (m == 0 || (decide (i.queued + m ≤ fld cfg 10 0) && decide (w.dev.queuedIn i.cluster + m ≤ 1024)))

/-- The next request towards a destination, in the order in which its engine consumes (R256). -/
def Work.nextAsk (w : Work) (i : Inst) (rs : List Req) (place : Nat) : Option Ask :=
  match rs.find? (fun r => r.place == place && !i.hasItem r.stream r.item && decide (w.dev.partsOut i r.stream r.item < r.split.length)) with
  | none => none
  | some r =>
    let k := w.dev.partsOut i r.stream r.item
    (r.split[k]?).map (fun (va, n, first) => ⟨r, k, va, n, first⟩)

/-- The next request of an instance that may be issued: the first, over the destinations, of a stream that nothing holds back. -/
def Work.nextReq (w : Work) (i : Inst) : Option Ask :=
  match i.task? w.dev with
  | none => none
  | some t =>
    let runs := i.started || i.isLane
    if i.stopOrdered ∨ i.voided ∨ i.ended ∨ (!runs ∧ bitOf (w.hawkCfg i) 31 = false) then none
    else
      let rs := (w.reqsOf i t).filter (fun r => runs || r.prologue)
      ([0, 1, 2, 3].filterMap (w.nextAsk i rs)).find? (w.mayAsk i t)

/-- The order of the Hawker: PRIORITY, then one that may execute before one in its prologue, then the one resident longest (R259). -/
def Dev.hawkBefore (d : Dev) (i j : Inst) : Bool :=
  let pr (i : Inst) : Nat := ((i.task? d).map Task.prio).getD 0
  let runs (i : Inst) : Bool := i.started || i.isLane
  decide (pr j < pr i) || (pr i == pr j && ((runs i && !runs j) || (runs i == runs j && decide (i.tookAt < j.tookAt))))

/-- The instance the Hawker serves, and its request. -/
def Work.hawkerPick (w : Work) (c : Nat) : Option (Inst × Ask) :=
  let cand := (w.dev.resident c).filterMap (fun i => (w.nextReq i).map (fun r => (i, r)))
  cand.foldl (fun b x => match b with
    | none => some x
    | some y => if w.dev.hawkBefore x.1 y.1 then some x else some y) none

/-- Fetch tags in use in a cluster (R257). -/
def Dev.tags (d : Dev) (c : Nat) : Nat := (d.fetches.filter (fun f => f.cluster == c)).length

/-- A piece widened to whole granules. -/
def widen (p : Nat × Nat) : Nat × Nat := (p.1 / 64 * 64, roundUp (p.1 + p.2) 64 - p.1 / 64 * 64)

/-- The pieces cut back out of widened bytes. -/
def cutPieces (ps : List (Nat × Nat)) (l : List PByte) : List PByte :=
  (ps.foldl (fun (acc : List PByte × Nat) p =>
    let (lo, n) := widen p
    (acc.1 ++ ((l.drop (acc.2 + (p.1 - lo))).take p.2), acc.2 + n)) ([], 0)).1

/-- Lines of the topology cache that hold whole pieces, when all are there: their bytes (R260). Log 59, DEDUCED: HK_TC_CFG.ENABLE 0 (R260). -/
def Work.tcRead (w : Work) (c ctx : Nat) (ps : List (Nat × Nat)) (r : Reader) : Option (List PByte) × Work :=
  if w.rb ⟨.hk, c⟩ .hkTcCfg 31 = false then (none, w)
  else (granulesOf ps).foldl (fun (acc : Option (List PByte) × Work) (lo, _, _) =>
    match acc with
    | (none, w) => (none, w)
    | (some l, w) =>
      match w.translate ctx lo false r with
      | (some (.dev a), w) =>
        match (w.cluster c).tc.find? (fun x => x.ctx == ctx && x.line == a / 64) with
        | some x => (some (l ++ x.data), w)
        | none => (none, w)
      | (_, w) => (none, w)) (some [], w)

/-- Touch the lines of a hit, for the replacement order: the last touched has the highest stamp. -/
def Work.tcTouch (w : Work) (c ctx : Nat) (ps : List (Nat × Nat)) (r : Reader) : Work :=
  w.each (granulesOf ps) (fun (lo, _, _) w =>
    match w.translate ctx lo false r with
    | (some (.dev a), w) =>
      let (n, w) := w.fresh
      w.setCluster c (fun cl => { cl with tc := cl.tc.map (fun x => if x.ctx = ctx ∧ x.line = a / 64 then { x with stamp := n } else x) })
    | (_, w) => w)

/-- Lines the cache keeps beside list staging (R260). -/
def tcLines : Nat := 15872

/-- Retain a clean line, replacing the least recently used. -/
def Work.tcKeep (w : Work) (c ctx line : Nat) (data : List PByte) : Work :=
  let (n, w) := w.fresh
  w.setCluster c (fun cl =>
    let rest := cl.tc.filter (fun x => !(x.ctx == ctx && x.line == line))
    let rest := if rest.length < tcLines then rest
      else match rest.foldl (fun (m : Option TcLine) x => match m with
          | none => some x
          | some y => if x.stamp < y.stamp then some x else some y) none with
        | some v => rest.filter (fun x => !(x.ctx == v.ctx && x.line == v.line))
        | none => rest
    { cl with tc := rest ++ [⟨ctx, line, data, n⟩] })

/-- Lines that a topology read brings are kept on its arrival, but for poisoned ones. -/
def Work.tcFill (w : Work) (c ctx : Nat) (ps : List (Nat × Nat)) (l : List PByte) (r : Reader) : Work :=
  if w.rb ⟨.hk, c⟩ .hkTcCfg 31 = false then w
  else w.each (granulesOf ps) (fun (lo, len, off) w =>
    let data := (l.drop off).take len
    if len ≠ 64 ∨ data.any (·.2) then w
    else match w.translate ctx lo false r with
      | (some (.dev a), w) => w.tcKeep c ctx (a / 64) data
      | (_, w) => w)

/-- The slot whose generation an instance's fetches carry: its own, or for a lane the dealing instance's (R131, R265). -/
def Dev.homeSlot (d : Dev) (i : Inst) : Nat × Nat :=
  if i.isLane then
    match d.inst? i.owner with
    | some o => (o.cluster, o.slot.getD 0)
    | none => (i.cluster, i.slot.getD 0)
  else (i.cluster, i.slot.getD 0)

/-- A fetch of an instance leaves (R257, R265). -/
def Work.addFetch (w : Work) (i : Inst) (unit : Nat) (dest : Dest) (phys : Bool) (pieces span : List (Nat × Nat)) (copy : List PByte)
    (remote : Option (Nat × Nat)) (cached : Bool := false) : Work :=
  let (n, w) := w.fresh
  let (c, sl) := w.dev.homeSlot i
  let f : Fetch := { id := n, unit := unit, cluster := i.cluster, home := c, slot := sl, gen := w.gen c sl, iid := i.iid,
                     gid := i.gid, ti := i.ti, ctx := w.dev.ctxOf i.gid, dest := dest, phys := phys, pieces := pieces, span := span,
                     copy := copy, cached := cached, remote := remote,
                     dueAt := w.dev.beat + w.rf ⟨.gu, i.cluster⟩ .guRemoteTo 15 0 * 250 }
  w.upd (fun d => { d with fetches := d.fetches ++ [f] })

/-- Issue one request of an instance: its bytes are read as they stand (R27). A later part of a transfer is charged only the
granules that it adds (R41). -/
def Work.issueReq (w : Work) (i : Inst) (t : Task) (a : Ask) : Work :=
  let c := i.cluster
  let pg : Page := ⟨.hk, c⟩
  let ctx := w.dev.ctxOf i.gid
  let rd := i.reader w.dev
  let r := a.req
  let ps := [(a.va, a.n)]
  let w := w.count pg 0
  let wide := if r.topo then ps.map widen else ps
  let (hit, w) := if r.topo then w.tcRead c ctx wide rd else (none, w)
  let go (w : Work) (l : List PByte) (cached : Bool) : Work :=
    let w := w.count pg 4 (if i.started || i.isLane then 0 else a.n)
    let w := w.whenB (t.kind == some .matchT && r.stream == sNeigh) (fun w => w.noteList i t)
    let w := w.setInst i.iid (fun i => { i with issued := i.issued + (if r.idx = 0 then 0 else a.n / r.idx) })
    w.addFetch i 0 (.stream r.stream r.item a.part r.split.length) false ps r.pieces l none cached
  match hit with
  | some l => go ((w.count pg 2).tcTouch c ctx wide rd) l true
  | none =>
    let w := if r.topo then w.count pg 3 else w
    let (va, n) := wide.headD (0, 0)
    match (if a.first then w.readVa ctx va n rd else w.readLater ctx va n rd) with
    | (.error e, w) => w.failInst i (t.page c) .xlate (leBytes 8 e)
    | (.ok l, w) => go (w.count pg 1 (if a.first then chargedBytes ps else 64 * granuleCount [laterPart va n])) l false

def hawkerFetchIssueWork (c : Nat) (w : Work) : Work :=
  if w.pageOn ⟨.hk, c⟩ = false ∨ 2048 ≤ w.dev.tags c then w
  else
    match w.hawkerPick c with
    | none => w
    | some (i, a) =>
      match i.task? w.dev with
      | none => w
      | some t => w.issueReq i t a

/-- HAWKER_FETCH_ISSUE (R255, R258, R259). -/
def execHawkerFetchIssue (cluster : Nat) (s : State) : Host.Outcome State Fault Refusal := s.run (fun w => hawkerFetchIssueWork cluster (w.stepBeat cluster))

/-! ### Checks on what has landed -/

/-- A fault found in a stream: the error, the address of the offending entry or tile, and the check that a tile fails (R241). -/
structure StreamFault where
  err : Err
  va : Nat
  check : Nat := 0
  deriving DecidableEq, Repr

/-- Raise it in the page of its engine; a tile's in the SP page (R241). -/
def Work.streamFault (w : Work) (i : Inst) (t : Task) (f : StreamFault) : Work :=
  if f.err = .sparseMeta then w.failInst i ⟨.sp, i.cluster⟩ .sparseMeta (leBytes 6 f.va ++ leBytes 1 f.check)
  else w.failInst i (t.page i.cluster) f.err (leBytes 8 f.va)

/-- R93, R162: the segment words that have landed. -/
def Inst.segFault (i : Inst) (t : Task) (l : IdList) : Option StreamFault :=
  let n := i.hi - i.lo + 1
  (List.range n).findSome? (fun k =>
    let va := l.segs + 4 * (i.lo + k)
    match i.segWord k with
    | none => none
    | some (x, p) =>
      let prev := if k = 0 then none else i.segWord (k - 1)
      let big : Bool := match prev with
        | some (y, _) => decide (x < y) || (t.kind == some .embedBag && decide (y + 65535 < x))
        | none => false
      if p || (decide (i.lo + k = 0) && decide (x ≠ 0)) || (decide (i.lo + k = l.segCount) && decide (x ≠ l.count)) || big
          || decide (l.count < x) then some ⟨.gatherRange, va, 0⟩ else none)

/-- Listed vertices that are followed into the topology table (R22, R26, R249). Log 74, DEDUCED: poisoned or out-of-range metadata that no chapter lists by name. -/
def Work.listFault (w : Work) (i : Inst) (l : IdList) (T : Topo) (e0 n : Nat) : Option StreamFault :=
  (List.range n).findSome? (fun k =>
    let e := e0 + k
    match i.listId l e0 e with
    | none => none
    | some (x, p) =>
      let va := l.ids + l.idBytes * e
      if p then some ⟨.gatherRange, va, 0⟩
      else if nullId l.idw x then none
      else if idReserved l.idw x then some ⟨.topoMeta, va, 0⟩
      else if (idHome w.self l.idw x).isSome || decide (T.vertices ≤ idLocal l.idw x) then some ⟨.gatherRange, va, 0⟩
      else none)

/-- R26, R51: an offset pair of vertex v. -/
def offFault (T : Topo) (v : Nat) (b : List PByte) : Option StreamFault :=
  let va := T.offs + 8 * v
  let x := pbNat b 0 8
  let y := pbNat b 8 8
  let ox := fieldN x 47 0
  let oy := fieldN y 47 0
  let hub : Bool := fieldN x 63 63 == 1
  if pbPoison b 0 8 || decide (fieldN x 62 48 ≠ 0) || decide (T.edges < ox) then some ⟨.topoMeta, va, 0⟩
  else if pbPoison b 8 8 || decide (fieldN y 62 48 ≠ 0) || decide (T.edges < oy) || decide (oy < ox) || decide (2 ^ 32 ≤ oy - ox)
      || (decide (v + 1 = T.vertices) && decide (fieldN y 63 63 = 1)) then some ⟨.topoMeta, va + 8, 0⟩
  else if hub != decide (2 ^ T.floorLog2 ≤ oy - ox) then some ⟨.topoMeta, va, 0⟩
  else none

/-- R22, R25, R26, R51: one neighbour by itself. -/
def Work.neighFault (w : Work) (T : Topo) (x : Nat) (p : Bool) (va : Nat) : Option StreamFault :=
  let null := nullId T.idw x
  let here := (idHome w.self T.idw x).isNone
  if p || idReserved T.idw x || (!null && here && decide (T.vertices ≤ idLocal T.idw x)) || (T.sorted && null) then some ⟨.topoMeta, va, 0⟩
  else none

/-- R26: with SORTED, an entry that is not greater than its predecessor, where both have been read. -/
def orderFault (T : Topo) (prev next : Option Nat) (va : Nat) : Option StreamFault :=
  match prev, next with
  | some x, some y => if T.sorted && decide (y ≤ x) then some ⟨.topoMeta, va, 0⟩ else none
  | _, _ => none

/-- The neighbours that an instance or a lane reads of list e: index of the first in the neighbour array, and the positions. -/
def Inst.listPlaces (i : Inst) (t : Task) (e : Nat) : Nat × List Nat :=
  if i.isLane then (i.lo, List.range (i.hi - i.lo))
  else match i.span e, i.listId t.list i.lo e with
    | some (a, d), some (v, _) =>
      let (ps, n) := t.gather.picks (idLocal t.list.idw v) d
      (a, ps.getD (List.range n))
    | _, _ => (0, [])

/-- The faults of a chunk of neighbours that has just landed: each entry, and its order to the entries beside it in the list that have
been read, whichever landed first. -/
def Work.chunkFault (w : Work) (i : Inst) (t : Task) (e k : Nat) : Option StreamFault :=
  let T := t.topo
  let (first, ps) := i.listPlaces t e
  let va (p : Nat) : Nat := T.neigh + T.idBytes * (first + p)
  let at_ (p : Nat) : Option Nat := if p ∈ ps then (i.neighbour T e (ps.idxOf p)).map (·.1) else none
  let per := 256 / T.idBytes
  ((ps.drop (k * per)).take per).zipIdx.findSome? (fun (p, j) =>
    match i.neighbour T e (k * per + j) with
    | none => none
    | some (x, bad) =>
      (w.neighFault T x bad (va p)).or
        ((if p = 0 then none else orderFault T (at_ (p - 1)) (some x) (va p)).or (orderFault T (some x) (at_ (p + 1)) (va (p + 1)))))

/-- The same of a chunk of a MATCH list: position p of list e on. -/
def Work.matchChunkFault (w : Work) (i : Inst) (t : Task) (e p : Nat) : Option StreamFault :=
  let T := t.topo
  let first := ((i.span e).map (·.1)).getD 0
  let va (q : Nat) : Nat := T.neigh + 4 * (first + q)
  let ids (q : Nat) : List (Nat × Bool) := ((i.got sNeigh (nItem e q)).map (fun b =>
    (List.range (b.length / 4)).map (fun j => (pbNat b (4 * j) 4, pbPoison b (4 * j) 4)))).getD []
  let l := ids p
  let next := ((if i.building then i.bpart else i.part).map (·.1)).getD 0
  let before : Option Nat := if p = next then (if i.building then i.keys.getLast? else i.prev) else (ids (p - 64)).getLast?.map (·.1)
  (l.zipIdx.findSome? (fun ((x, bad), j) =>
    (w.neighFault T x bad (va (p + j))).or
      (orderFault T (if j = 0 then before else (l[j - 1]?).map (·.1)) (some x) (va (p + j))))).or
    (orderFault T (l.getLast?.map (·.1)) ((ids (p + l.length)).head?.map (·.1)) (va (p + l.length)))

/-- The first and last neighbour of a lane's slab that have landed: index in the neighbour array, and ID. -/
def Inst.edges (i : Inst) (T : Topo) : List (Nat × Nat) :=
  if i.hi ≤ i.lo then []
  else ((i.neighbour T 0 0).map (fun x => (i.lo, x.1))).toList ++ ((i.neighbour T 0 (i.hi - i.lo - 1)).map (fun x => (i.hi - 1, x.1))).toList

/-- A hub's list runs through its slabs: the ends of a lane's slab are held against those of the slabs beside it (R26). -/
def Work.edgeFault (w : Work) (i : Inst) (T : Topo) : Option StreamFault × Work :=
  match w.dev.hubs.find? (fun h => h.iid == i.owner && h.tag == some i.tag) with
  | none => (none, w)
  | some h =>
    let mine := i.edges T
    let all := mine ++ h.edges.filter (fun x => !mine.contains x)
    let at_ (n : Nat) : Option Nat := (all.find? (fun x => x.1 == n)).map (·.2)
    let bad (n : Nat) : Option StreamFault := orderFault T (at_ n) (at_ (n + 1)) (T.neigh + T.idBytes * (n + 1))
    (((if i.lo = h.first then none else bad (i.lo - 1)).or (bad (i.hi - 1))),
     w.upd (fun d => { d with hubs := updFirst (fun x => x.iid == h.iid && x.tag == some i.tag) (fun x => { x with edges := all }) d.hubs }))

/-- Bytes of a landed tile: its header and what follows. -/
def Inst.tileData (i : Inst) (it : Nat) : List PByte := (i.got sXHead it).getD [] ++ (i.got sX it).getD []

/-- The reader's result on a landed tile (R240). -/
def Inst.readTile (i : Inst) (x : XBody) (it : Nat) : TileRead :=
  let a := it / max 1 x.kp
  let j := it % max 1 x.kp
  Sys2Proof.Machine.readTile x.xf (i.tileData it) (64 * a) (256 * j) (min 64 (x.m - 64 * a)) (min 256 (x.k - 256 * j))

def XBody.tileVa (x : XBody) (it : Nat) : Nat := x.x + it * x.xf.tileBytes

/-- A tile that has landed whole is checked before any of it reaches the array (R240, R241). -/
def Inst.tileFault (i : Inst) (x : XBody) (it : Nat) : Option StreamFault :=
  match i.tileBytes it with
  | none => none
  | some m =>
    if m ≠ 0 ∧ i.hasItem sX it = false then none
    else match i.readTile x it with
      | .bad n => some ⟨.sparseMeta, x.tileVa it, n⟩
      | .ok _ _ _ => none

/-- The counts of tiles read (R254). -/
def Work.countTile (w : Work) (i : Inst) (x : XBody) (s it : Nat) : Work :=
  let w := w.count ⟨.sp, i.cluster⟩ 5 (((i.got s it).map List.length).getD 0)
  if s = sXHead then w
  else match i.readTile x it with
    | .ok _ _ dense => w.count ⟨.sp, i.cluster⟩ (if dense then 4 else 3)
    | .bad _ => w

/-- The faults of a unit that has just landed. -/
def Work.itemFault (w : Work) (i : Inst) (t : Task) (s item : Nat) (ps : List (Nat × Nat)) : Option StreamFault × Work :=
  let T := t.topo
  if s = sSegs then (i.segFault t t.list, w)
  else if s = sIds ∧ t.kind = some .matchT then
    (w.listFault i t.list T (i.lo * matchPer t) ((i.hi - i.lo) * matchPer t), w)
  else if s = sIds ∧ t.gather.expand ≠ 0 ∧ t.kind = some .gather then (w.listFault i t.list T i.lo (i.hi - i.lo), w)
  else if s = sOffs then
    ((i.got sOffs item).bind (fun b => offFault T (((ps.headD (0, 0)).1 - T.offs) / 8) b), w)
  else if s = sNeigh ∧ t.kind = some .matchT then (w.matchChunkFault i t (item / 2 ^ 32) (item % 2 ^ 32), w)
  else if s = sNeigh then
    match w.chunkFault i t (item / 2 ^ 32) (item % 2 ^ 32) with
    | some f => (some f, w)
    | none => if i.isLane then w.edgeFault i T else (none, w)
  else if s = sEdgeW then
    ((i.got sEdgeW item).bind (fun b => if b.any (·.2) then
      some ⟨.topoMeta, (match (granulesOf ps).find? (fun (_, n, off) => ((b.drop off).take n).any (·.2)) with
        | some (lo, _, _) => lo
        | none => 0), 0⟩ else none), w)
  else if (s = sXHead ∨ s = sX) ∧ t.kind = some .transform ∧ t.xform.xt then
    (i.tileFault t.xform item, w.countTile i t.xform s item)
  else (none, w)

/-! ### TC_FLUSH (R261) -/

def Work.tcFlush (w : Work) (c : Nat) : Work := w.setCluster c (fun cl => { cl with tc := [] })

end Sys2Proof.Machine
end

