-- ==== Sys2Proof/Machine/Gather.lean ====
section
/-! DEFINITION. The Gather Unit: landing (R257, R264, R265), the index stream (R92 to R96, R131), service of an index
(R99 to R107, R110, R112, R159), fetch of rows (R100, R108, R109), and scatter updates up to their application at a die node
(R115 to R117, R141, R164, R165). -/

namespace Sys2Proof.Machine

/-! ### Landing -/

/-- A row lands whole; a poisoned row leaves no hot entry (R105, R107). Log 102, DESIGN CHOICE: an index promoted while its row was
in flight keeps its count in GU_CNT_PROMOTE. -/
def Work.landRow (w : Work) (iid ref : Nat) (l : List PByte) : Work :=
  let w := match w.dev.inst? iid with
    | some i => w.setCluster i.cluster (fun cl => { cl with starving := cl.starving.filter (· != iid) })
    | none => w
  w.setInst iid (fun i => { i with
    rows := updFirst (fun r => r.ref == ref) (fun r => { r with st := .landed, data := l }) i.rows
    hots := if l.any (·.2) then i.hots.filter (fun h => h.ref != ref) else i.hots })

/-- The fetch's generation is no longer its slot's, or its instance has gone (R264, R265). -/
def Work.stale (w : Work) (f : Fetch) : Bool := (w.dev.inst? f.iid).isNone || decide (f.gen ≠ w.gen f.home f.slot)

def Work.dropFetch (w : Work) (id : Nat) : Work := w.upd (fun d => { d with fetches := d.fetches.filter (fun f => f.id != id) })

/-- A stale arrival is dropped and counted in its cluster (R265). -/
def Work.countStale (w : Work) (f : Fetch) (n : Nat) : Work := (w.count ⟨.hk, f.cluster⟩ 5).count ⟨.hk, f.cluster⟩ 6 n

/-- A part of a Hawker unit lands; the unit lands whole with its last one (R257). -/
def Inst.land (i : Inst) (st item part total : Nat) (l : List PByte) : Inst :=
  let mine (x : Part) : Bool := x.stream == st && x.item == item
  let ps := i.parts ++ [⟨st, item, part, l⟩]
  if (ps.filter mine).length < total then { i with parts := ps }
  else { i with
    parts := ps.filter (fun x => !mine x),
    landed := i.landed ++ [⟨st, item, (List.range total).flatMap (fun k =>
      ((ps.find? (fun x => mine x && x.part == k)).map (·.data)).getD [])⟩] }

/-- A part lands; a unit that is whole is checked (R26, R93, R240), and a table's head or descriptor read (R158). -/
def Work.landUnit (w : Work) (i : Inst) (t : Task) (f : Fetch) (st item part total : Nat) (l : List PByte) : Work :=
  let w := (w.setInst i.iid (fun i => i.land st item part total l)).setCluster i.cluster
    (fun cl => { cl with starving := cl.starving.filter (· != i.iid) })
  match w.dev.inst? i.iid with
  | none => w
  | some i =>
    if i.hasItem st item = false then w
    else if st = sTbl then (if i.started ∧ i.tbl = [] then w.startTable i t else w)
    else match w.itemFault i t st item f.span with
      | (some e, w) => w.streamFault i t e
      | (none, w) => w

/-! ### The index stream -/

/-- An index of a list entry or a neighbour. -/
def mkIdx (self : Nat) (idw : Bool) (x : Nat) (wt : Elem) (seg entry va : Nat) : Idx :=
  { id := idLocal idw x, null := nullId idw x, home := if nullId idw x then none else idHome self idw x, weight := wt, seg := seg,
    entry := entry, va := va, self := false, hub := none }

/-- The indices of a listed vertex, in order, none where the stream has not brought one yet: its neighbours, or one marker for a hub,
then its own row under SELF. -/
def Inst.vertexIdx (i : Inst) (t : Task) (self e : Nat) : List (Option Idx) :=
  let g := t.gather
  let l := t.list
  let T := t.topo
  let va := l.ids + l.idBytes * e
  match i.listId l i.lo e with
  | none => [none]
  | some (x, _) =>
    if nullId l.idw x then []
    else
      let v := idLocal l.idw x
      match i.span e with
      | none => [none]
      | some (first, deg) =>
        let own : Idx := { id := v, null := false, home := none, weight := oneElem, seg := e, entry := e, va := va, self := true, hub := none }
        let hub := g.hub deg
        let mark : Option (Nat × Nat) := if hub then some (first, deg) else none
        let ns : List (Option Idx) :=
          if hub then [some { own with self := false, hub := mark }]
          else (List.range (g.picks v deg).2).map (fun k =>
            match i.neighbour T e k, (if g.edgeWeights then i.edgeWeight T e k else some oneElem) with
            | some (y, _), some wt => some (mkIdx self T.idw y wt e e va)
            | _, _ => none)
        ns ++ (if g.self then [some { own with hub := mark }] else [])

/-- Entries of the instance with their segments (R93). With REDUCE NONE every entry has an output row of its own (R98). -/
def Inst.entrySegs (i : Inst) (l : IdList) (single : Bool) : Option (List (Nat × Nat)) :=
  (i.bounds l).map (fun bs =>
    (List.range (i.hi - i.lo)).flatMap (fun k =>
      let a := bs.getD k 0
      (List.range (bs.getD (k + 1) 0 - a)).map (fun j => (a + j, if single then a + j else i.lo + k))))

/-- The prefix of a stream that has landed, and whether that is all of it. -/
def landedPrefix (l : List (Option Idx)) : List Idx × Bool :=
  let got := l.takeWhile (·.isSome)
  (got.filterMap id, decide (got.length = l.length))

/-- The index stream of an instance or a lane as far as it has landed, and whether it is whole. `va`: the entry a missing row's
record names; of a neighbour, the listed vertex's list entry on the Retail path and the neighbour-array entry in a lane, which reads
no list (log 100, DESIGN CHOICE). -/
def Inst.stream (i : Inst) (t : Task) (self : Nat) : List Idx × Bool :=
  let g := t.gather
  let l := t.list
  let T := t.topo
  if i.isLane then
    landedPrefix ((List.range (i.hi - i.lo)).map (fun k =>
      match i.neighbour T 0 k, (if g.edgeWeights then i.edgeWeight T 0 k else some oneElem) with
      | some (y, _), some wt => some (mkIdx self T.idw y wt 0 k (T.neigh + T.idBytes * (i.lo + k)))
      | _, _ => none))
  else if g.expand = 0 ∨ g.scatter.isSome then
    match i.entrySegs l (g.reduce == .none), i.entries l with
    | some es, some (e0, _) =>
      landedPrefix (es.map (fun (e, s) =>
        match i.listId l e0 e, i.listWeight l e0 e with
        | some (x, _), some wt => some (mkIdx self l.idw x wt s e (l.ids + l.idBytes * e))
        | _, _ => none))
    | _, _ => ([], false)
  else landedPrefix ((List.range (i.hi - i.lo)).flatMap (fun k => i.vertexIdx t self (i.lo + k)))

/-! ### Windows (R101, R102) -/

/-- Bytes of reservation: the task's, or the lane's (R131). -/
def Work.spaceOf (w : Work) (i : Inst) (t : Task) : Nat :=
  if i.isLane && decide (i.slot.getD 0 < 16) then laneKib (w.whCfg i.cluster) * 1024 else t.landing * 1024
def capacityOf (space h s : Nat) : Nat := (space - h * s) / 2 / s
/-- A slab that its owner serves itself, in the owner's reservation and as part of its index stream (R128). -/
def Inst.selfSlab (i : Inst) : Bool := decide (16 ≤ i.slot.getD 0)
/-- The instances that share a reservation: a slotted one and the slabs it serves itself. -/
def Dev.sharers (d : Dev) (i : Inst) : List Inst :=
  if i.selfSlab then d.insts.filter (fun j => j.iid == i.owner || (j.selfSlab && j.owner == i.owner))
  else if i.isLane then [i]
  else d.insts.filter (fun j => j.iid == i.iid || (j.selfSlab && j.owner == i.iid))
/-- Hot entries held in a reservation (R102). -/
def Dev.hotsIn (d : Dev) (i : Inst) : Nat := (d.sharers i).foldl (fun a j => a + j.hots.length) 0
/-- Slot size of a scatter's source rows. -/
def sourceSlot (t : Task) (n : Nat) : Nat := slotSize (t.gather.outFmt.rowBytes n) t.gather.outStride
/-- Distinct rows of the open window that no hot entry serves. -/
def Inst.distinct (i : Inst) : Nat := (i.rows.filter (fun r => r.win == i.win && !r.isHot)).length

/-- A window has closed and drained. -/
def Inst.drained (i : Inst) (win : Nat) : Bool := !(i.winOpen && win == i.win) && !i.occs.any (fun o => o.win == win)

/-- The rows of a window leave their slots when it has closed and drained, but for those of hot entries (R103, R108); a row that
belongs to no window leaves with its occurrence (R104). -/
def Inst.sweep (i : Inst) (single : Bool) : Inst :=
  { i with rows := i.rows.filter (fun r => i.occs.any (fun o => o.ref == r.ref) || i.hots.any (fun h => h.ref == r.ref)
      || decide (r.st ≠ .landed) || (!single && !i.drained r.win)) }

/-! ### Scatter: sending (R115 to R117) -/

/-- Elements of a row; under U32 as unsigned integers (R115). -/
def rowElems (u32 : Bool) (f : Fmt) (n : Nat) (b : List PByte) : List Elem :=
  if u32 then (List.range n).map (fun k => ⟨u32Val (pbNat b (4 * k) 4), pbPoison b (4 * k) 4⟩) else decodeRow f n b
def encodeElems (u32 : Bool) (f : Fmt) (es : List Elem) : List PByte :=
  if u32 then es.flatMap (fun e => (leBytes 4 (u32Of e.v)).map (·, e.p)) else encodeRow f es

/-- Die of a controller or slice. -/
def dieOfCtl (p : Page) : Nat :=
  match p.block with
  | .hm => p.num / 3
  | .dd => p.num / 4
  | _ => dieOfCluster p.num

/-- Elements poisoned as POISON_MAP names them: all that lie in a 64-byte granule of the body with a poisoned one (R136). -/
def mapPoison (u32 : Bool) (f : Fmt) (es : List Elem) : List Elem :=
  let l := encodeElems u32 f es
  let bad (k : Nat) : Bool := ((l.drop (k / 64 * 64)).take 64).any (·.2)
  ((rowElems u32 f es.length (l.mapIdx (fun k x => (x.1, bad k)))).zip es).map (fun (m, e) => ⟨e.v, m.p⟩)

/-- Send a combined update to the die node that holds the first granule of its target row (R117). A target that does not lie in
device memory faults the task. Log 54, DEDUCED: a scatter whose target row lies in host memory (R115, R117). -/
def Work.sendScat (w : Work) (i : Inst) (t : Task) (row : Nat) (val : List Elem) : Work :=
  let g := t.gather
  let T := i.table t
  let ctx := w.dev.ctxOf i.gid
  let rd := i.reader w.dev
  let va := T.rowVa row
  let dir := i.shelfDir t
  let bad (w : Work) (a : Nat) : Work := w.failInst i ⟨.gu, i.cluster⟩ .xlate (leBytes 8 a)
  match w.translateRange ctx va T.rowBytes false rd with
  | (.error a, w) => bad w a
  | (.ok _, w) =>
    match w.translateRange ctx va T.rowBytes true rd with
    | (.error a, w) => bad w a
    | (.ok ps, w) =>
      match ps.head?, (devParts ps).length == ps.length with
      | some (.dev a, _, _), true =>
        match w.phys a with
        | .cell _ ctl =>
          let bucket := if g.embed && decide (dir ≠ 0) then bucketVa dir (dirBuckets (i.dirHeader t)) row else 0
          let e : ScatEntry := { node := dieOfCtl ctl, target := a, at_ := devParts ps, op := g.scatter.getD .add, u32 := g.u32,
                                 ctx := ctx, fmt := T.fmt, n := T.n,
                                 val := mapPoison g.u32 (if g.scatter = some .add then .fp32 else T.fmt) val, gid := i.gid, ti := i.ti, cluster := i.cluster, row := row, update := g.embed,
                                 held := false, stamp := w.dev.beat, since := w.dev.beat,
                                 parts := [(i.gid, i.ti, i.cluster, row, bucket)] }
          (w.count ⟨.gu, i.cluster⟩ 12).upd (fun d => { d with scat := d.scat ++ [e] })
        | _ => bad w va
      | _, _ => bad w va

/-- Send every entry of an instance's combining queue, least recently updated first. -/
def Work.flushComb (w : Work) (iid : Nat) : Work :=
  match w.dev.inst? iid with
  | none => w
  | some i =>
    match i.task? w.dev with
    | none => w
    | some t =>
      let w := w.setInst iid (fun i => { i with comb := [] })
      w.each i.comb (fun e w => w.sendScat i t e.row e.val)

/-- Bags of an UPDATE instance whose every entry has been consumed are complete (R185); `pos` counts them. -/
def Work.updateBags (w : Work) (iid : Nat) : Work :=
  match w.dev.inst? iid with
  | none => w
  | some i =>
    match i.task? w.dev with
    | none => w
    | some t =>
      if t.gather.embed = false ∨ t.gather.scatter.isNone then w
      else match i.bounds t.list with
        | none => w
        | some bs =>
          let front := ((i.occs.head?).map (·.idx.entry)).getD (bs.headD 0 + i.idxPos)
          let done := ((bs.drop 1).filter (fun b => decide (b ≤ front))).length
          (w.count pgEb 0 (done - i.pos)).setInst iid (fun i => { i with pos := done })

/-- A scatter instance whose list is through and whose queue is empty has sent its final entries. -/
def Work.endScatter (w : Work) (iid : Nat) : Work :=
  match w.dev.inst? iid with
  | none => w
  | some i =>
    match i.task? w.dev with
    | none => w
    | some t =>
      let (l, whole) := i.stream t w.self
      if t.gather.scatter.isSome && whole && i.idxPos == l.length && i.occs.isEmpty && i.comb.isEmpty && !i.ended && !i.stopOrdered then
        w.endInst iid
      else w

/-! ### Taking an index (R99) -/

/-- Close the open window; a drained scatter window sends its entries (R101, R116). -/
def Work.closeWindow (w : Work) (iid : Nat) (single : Bool) : Work :=
  let w := w.setInst iid (fun i => Inst.sweep { i with winOpen := false } single)
  match w.dev.inst? iid with
  | some i => if i.occs.isEmpty then w.flushComb iid else w
  | none => w

/-- After an index has been taken: the window closes at its size, its capacity or the stream's end (R101). -/
def Work.afterIndex (w : Work) (iid : Nat) : Work :=
  match w.dev.inst? iid with
  | none => w
  | some i =>
    match i.task? w.dev with
    | none => w
    | some t =>
      let g := t.gather
      let (l, whole) := i.stream t w.self
      let full := decide (i.winSize ≤ i.winCount)
        || (g.scatter.isNone && decide (capacityOf (w.spaceOf i t) (w.dev.hotsIn i) (i.table t).slot ≤ i.distinct))
      let w := if (i.winOpen && full) || (whole && i.idxPos == l.length) then w.closeWindow iid g.noCoalesce else w
      (w.updateBags iid).endScatter iid

/-- What an index turns out to be. -/
inductive Taken where
  | null
  | skip
  | default
  | fault (f : StreamFault)
  | row
  deriving DecidableEq, Repr

/-- R21, R22, R51, R110, R112, R159. -/
def Inst.classify (i : Inst) (t : Task) (x : Idx) : Taken :=
  let g := t.gather
  let l := t.list
  let raw : Nat × Bool :=
    if i.isLane ∨ g.expand ≠ 0 then (0, false)
    else (((i.entries l).bind (fun (e0, _) => i.listId l e0 x.entry))).getD (0, false)
  if raw.2 then .fault ⟨.gatherRange, x.va, 0⟩
  else if x.null then .null
  else if (i.isLane = false ∧ g.expand = 0) ∧ idReserved l.idw raw.1 then .fault ⟨.topoMeta, x.va, 0⟩
  else if x.home.isSome then (if g.remoteTable = 0xFFFF then .fault ⟨.gatherRange, x.va, 0⟩ else .row)
  else if x.id < (i.table t).rows then .row
  else if g.embed then
    (match byteAt i.tbl 40 with
      | 0 => .fault ⟨.gatherRange, x.va, 0⟩
      | 1 => if g.scatter.isSome then .skip else .default
      | _ => .skip)
  else if g.missingNull then .null
  else .fault ⟨.gatherRange, x.va, 0⟩

/-- Row number under which the default row is coalesced (R159). -/
def defaultRow : Nat := 2 ^ 33

/-- Where a first occurrence is fetched from: the Shelf directory is read now (R99). None where the bucket does not translate. -/
def Work.sourceOf (w : Work) (i : Inst) (t : Task) (x : Idx) (dflt : Bool) : Option Source × Work :=
  match x.home with
  | some d => (some (.remote d), w)
  | none =>
    let dir := i.shelfDir t
    if dflt then (some .default, w)
    else if t.gather.scatter.isSome then (some (.sourceRow x.entry), w)
    else if dir = 0 then (some .home, w)
    else
      match w.shelfLookup i dir (i.dirHeader t) x.id with
      | (none, w) => (none, w)
      | (some none, w) => (some .home, w)
      | (some (some (c, s)), w) => (some (.shelf c s), w)

/-- Open a window with the settings of the moment (R101, R121). The windows of a slab that its owner serves itself and those of the
owner's Retail stream are windows of one stream, in which one is open at a time (R128, R133). -/
def Work.openWindow (w : Work) (i : Inst) : Work :=
  let c := i.cluster
  let w := w.setCluster c (fun cl => { cl with winLast := 0, winBy := i.iid })
  let n := (w.dev.sharers i).foldl (fun a j => max a j.win) 0 + 1
  w.setInst i.iid (fun i => { i with
    win := n, winOpen := true, winCount := 0, winSize := w.rf ⟨.gu, c⟩ .guWindow 12 0, winIdle := w.rf ⟨.gu, c⟩ .guWindow 27 16,
    winPromote := w.reg ⟨.gu, c⟩ .guPromote })

/-- Promotion threshold of an instance: the task's, or the register's (R105). -/
def Inst.threshold (i : Inst) (t : Task) : Nat := if t.gather.promote = 0 then fld i.winPromote 12 0 else t.gather.promote

/-- R105: promote a row whose occurrences in the window have just reached the threshold. -/
def Work.promote (w : Work) (iid ref : Nat) : Work :=
  match w.dev.inst? iid with
  | none => w
  | some i =>
    match i.task? w.dev, i.rows.find? (fun r => r.ref == ref) with
    | some t, some r =>
      let g := t.gather
      let may := bitOf i.winPromote 31 && !g.noPromote && !g.noCoalesce && !i.isLane && g.scatter.isNone
        && decide (i.hots.length < fld i.winPromote 21 16)
        && decide (1 ≤ capacityOf (w.spaceOf i t) (w.dev.hotsIn i + 1) (i.table t).slot) && !r.data.any (·.2)
      if may && r.uses == i.threshold t then
        let home : Option Nat := match r.src with
          | .remote d => some d
          | _ => none
        (w.setInst iid (fun i => { i with
          hots := i.hots ++ [⟨r.row, home, ref, false, false⟩],
          rows := updFirst (fun r => r.ref == ref) (fun r => { r with isHot := true }) i.rows })).count ⟨.gu, i.cluster⟩ 10
      else w
    | _, _ => w

/-- Enter a row of its own: its slot is still to be found. -/
def Work.newRow (w : Work) (i : Inst) (row win : Nat) (src : Source) (isHot : Bool) : Work :=
  w.setInst i.iid (fun i => { i with
    nextRef := i.nextRef + 1,
    rows := i.rows ++ [{ ref := i.nextRef, win := win, row := row, src := src, st := .queued, data := [], isHot := isHot, uses := 1 }] })

def Work.addOcc (w : Work) (iid : Nat) (x : Idx) (ref win : Nat) : Work :=
  w.setInst iid (fun i => { i with occs := i.occs ++ [⟨x, ref, win⟩] })

/-- R99, steps 2 to 5, for a non-null index: its occurrence and its source. -/
def Work.serveIndex (w : Work) (i : Inst) (t : Task) (x : Idx) (dflt : Bool) : Work :=
  let g := t.gather
  let pg : Page := ⟨.gu, i.cluster⟩
  let row := if dflt then defaultRow else x.id
  let fail (w : Work) : Work := w.failInst i pg .xlate (leBytes 8 (bucketVa (i.shelfDir t) (dirBuckets (i.dirHeader t)) row))
  let single := g.noCoalesce || g.scatter.isSome
  let hot := if single then none else i.hots.find? (fun h => h.row == row && h.home == x.home)
  let prior := if single then none
    else i.rows.find? (fun r => r.win == i.win && r.row == row && (match r.src with
      | .remote d => x.home == some d
      | _ => x.home.isNone))
  let win := if g.noCoalesce then 0 else i.win
  match hot, prior with
  | some h, _ =>
    let w := w.count pg 2
    if h.refresh then
      match w.sourceOf i t x dflt with
      | (none, w) => fail w
      | (some src, w) =>
        let w := w.newRow i row win src true
        (w.setInst i.iid (fun j => { j with
          hots := updFirst (fun k => k.row == row && k.home == x.home) (fun k => { k with ref := i.nextRef, served := true, refresh := false }) j.hots
          })).addOcc i.iid x i.nextRef win
    else
      (w.setInst i.iid (fun j => { j with
        hots := updFirst (fun k => k.row == row && k.home == x.home) (fun k => { k with served := true }) j.hots })).addOcc i.iid x h.ref win
  | none, some r =>
    let w := (w.count pg 1).setInst i.iid (fun j => { j with
      rows := updFirst (fun q => q.ref == r.ref) (fun q => { q with uses := q.uses + 1 }) j.rows })
    (w.addOcc i.iid x r.ref win).promote i.iid r.ref
  | none, none =>
    match w.sourceOf i t x dflt with
    | (none, w) => fail w
    | (some src, w) => (w.newRow i row win src false).addOcc i.iid x i.nextRef win

/-- The next index of an instance or a lane enters the coalescer. -/
def Work.takeIndex (w : Work) (i : Inst) (t : Task) (x : Idx) : Work :=
  let pg : Page := ⟨.gu, i.cluster⟩
  let g := t.gather
  let w := w.count pg 0
  let next (w : Work) : Work := w.setInst i.iid (fun i => { i with idxPos := i.idxPos + 1, idxTaken := i.idxTaken + b2n (!x.self) })
  let serve (w : Work) (dflt : Bool) : Work :=
    let w := if g.noCoalesce ∨ i.winOpen then w else (w.each ((w.dev.sharers i).filter (·.winOpen)) (fun j w => w.closeWindow j.iid false)).openWindow i
    let w := next w
    let w := if g.noCoalesce then w else
      (w.setInst i.iid (fun i => { i with winCount := i.winCount + 1, winAt := w.dev.beat })).setCluster i.cluster
        (fun cl => { cl with winLast := if cl.winBy = i.iid then cl.winLast + 1 else cl.winLast })
    match w.dev.inst? i.iid with
    | some j => (w.serveIndex j t x dflt).afterIndex i.iid
    | none => w
  match i.classify t x with
  | .null => ((next w).count pg 9).afterIndex i.iid
  | .skip => ((next w).count pgEb 2).afterIndex i.iid
  | .default => serve (w.count pgEb 1) true
  | .fault f => w.streamFault i t f
  | .row => serve w false

/-- Relative position of an instance's cluster in its task's pitch. -/
def Work.relOf (w : Work) (i : Inst) : Nat :=
  match i.task? w.dev with
  | some t => ((w.pitchOfTask i.gid t).map (fun p => p.rel i.cluster)).getD i.rel
  | none => i.rel

/-- An instance that deals no hub and waits for no tag asks for its next hub's (R127, R135). -/
def Work.askTag (w : Work) (iid : Nat) : Work :=
  let mine (h : Hub) : Bool := h.iid == iid
  if w.dev.hubs.any (fun h => mine h && ((h.asked && h.tag.isNone) || (h.tag.isSome && !h.closed))) then w
  else w.upd (fun d => { d with
    hubs := updFirst (fun h => mine h && !h.asked) (fun h => { h with asked := true, askedAt := d.beat }) d.hubs })

/-- A hub leaves the Retail path: its record waits for a tag. A fifth hub holds the stream until the aggregate of the oldest has
arrived (R124, R127). -/
def Work.takeHub (w : Work) (i : Inst) (x : Idx) (first deg : Nat) : Work :=
  let mine := w.dev.hubs.filter (fun h => h.iid == i.iid)
  if i.waitHub.isNone ∧ 4 ≤ mine.length then w.setInst i.iid (fun i => { i with waitHub := (mine.head?).map (·.seg) })
  else if mine.any (fun h => i.waitHub == some h.seg) then w
  else
    let w := w.setInst i.iid (fun i => { i with waitHub := none })
    let h : Hub := { gid := i.gid, ti := i.ti, iid := i.iid, seg := x.seg, vertex := x.id, first := first, degree := deg, tag := none,
                     asked := false, askedAt := 0, edges := [], dealt := 0, lastCand := w.relOf i, creditAt := w.dev.beat, perDie := [0, 0, 0, 0],
                     closed := false, total := 0, aborted := false, selfSeen := false, cluster := i.cluster }
    let w := ((w.upd (fun d => { d with hubs := d.hubs ++ [h] })).count ⟨.wh, i.cluster⟩ 0).askTag i.iid
    (w.setInst i.iid (fun i => { i with idxPos := i.idxPos + 1 })).afterIndex i.iid

/-- An instance or lane whose Gather Unit may act; an EMBED_BAG instance once it has its table (R158). -/
def Work.gathers (w : Work) (i : Inst) (t : Task) : Bool :=
  t.isGatherLike && (t.kind != some .embedBag || i.tbl != []) && w.pageOn ⟨.gu, i.cluster⟩ && (i.started || i.isLane) && !i.stopOrdered && !i.voided

/-- The owner's own index stream waits while a slab that it serves itself is entering (R128). -/
def Work.streamHeld (w : Work) (i : Inst) : Bool :=
  !i.isLane && w.dev.insts.any (fun j => j.selfSlab && j.owner == i.iid && !j.ended && !j.voided && decide (j.idxPos < j.hi - j.lo))

/-- The index that an instance's coalescer takes next: none while one that cannot be issued holds it (R108), or none has come. -/
def Work.nextIndex (w : Work) (i : Inst) : Option (Task × Idx) :=
  match i.task? w.dev with
  | none => none
  | some t =>
    if w.gathers i t = false ∨ i.rows.any (fun r => r.st == .queued) ∨ w.streamHeld i then none
    else ((i.stream t w.self).1[i.idxPos]?).map (fun x => (t, x))

/-- Indices are delivered in the Hawker's order: no other instance of the cluster that could take one comes first (R259). -/
def gatherIndexWork (c sl : Nat) (w : Work) : Work :=
  match w.dev.instIn? c sl with
  | none => w
  | some i =>
      if (w.dev.resident c).any (fun j => w.dev.hawkBefore j i && (w.nextIndex j).isSome) then w
      else
        match w.nextIndex i with
        | none => w
        | some (t, x) =>
          match x.self, x.hub with
          | false, some (first, deg) => w.takeHub i x first deg
          | _, _ => w.takeIndex i t x

/-- GATHER_INDEX (R99). -/
def execGatherIndex (cluster slot : Nat) (s : State) : Host.Outcome State Fault Refusal := s.run (fun w => gatherIndexWork cluster slot (w.stepBeat cluster))

/-- IDLE_BEATS beats have passed since the last index entered the open window. -/
def windowIdleTimeoutWork (c sl : Nat) (w : Work) : Work :=
  match w.dev.instIn? c sl with
  | none => w
  | some i =>
    match i.task? w.dev with
    | none => w
    | some t =>
      if i.winOpen ∧ i.winIdle ≠ 0 ∧ w.gathers i t then
        (w.passTo (i.winAt + i.winIdle)).closeWindow i.iid t.gather.noCoalesce
      else w

/-- WINDOW_IDLE_TIMEOUT (R101). -/
def execWindowIdleTimeout (cluster slot : Nat) (s : State) : Host.Outcome State Fault Refusal :=
  s.run (windowIdleTimeoutWork cluster slot)

/-! ### Row fetches (R100, R108, R109, R112) -/

/-- Device virtual address of a row that a fetch reads from a tier, and its bytes. -/
def Inst.rowPiece (i : Inst) (t : Task) (r : RowEnt) : Nat × Nat :=
  let T := i.table t
  let g := t.gather
  match r.src with
  | .sourceRow k => (g.out + k * g.outStride, g.outFmt.rowBytes T.n)
  | .default => (bytesAt i.tbl 32 8, T.rowBytes)
  | _ => (T.rowVa r.row, T.rowBytes)

/-- Counter of R100 for a translated address. -/
def Work.tierCounter (w : Work) (ctx va : Nat) (rd : Reader) : Nat × Work :=
  match w.translate ctx va false rd with
  | (some (.host _), w) => (6, w)
  | (some (.dev a), w) =>
    (match w.phys a with
      | .cell _ ctl => if ctl.block = .hm then 4 else if ctl.block = .dd then 5 else 3
      | _ => 4, w)
  | (none, w) => (4, w)

/-- A slot is free in the window's half of the reservation (R108). Rows that belong to no window may use both halves (log 101, DESIGN CHOICE,
DESIGN CHOICE). -/
def Work.slotFree (w : Work) (i : Inst) (t : Task) (r : RowEnt) : Bool :=
  let T := i.table t
  let space := w.spaceOf i t
  let held := (w.dev.sharers i).flatMap (fun j => j.rows.filter (fun q => q.st != .queued && !q.isHot))
  if r.isHot then true
  else if t.gather.scatter.isSome then decide (held.length < max 1 (space / 2 / sourceSlot t T.n))
  else
    let cap := max 1 (capacityOf space (w.dev.hotsIn i) T.slot)
    if t.gather.noCoalesce then decide (held.length < 2 * cap)
    else decide ((held.filter (fun q => q.win % 2 == r.win % 2)).length < cap)

def Work.rowState (w : Work) (iid ref : Nat) (st : RowState) : Work :=
  w.setInst iid (fun i => { i with rows := updFirst (fun r => r.ref == ref) (fun r => { r with st := st }) i.rows })

/-- Issue a row's fetch: its bytes are read as they stand (R111). A remote row is charged as though it began on a granule boundary
(log 103, DESIGN CHOICE). -/
def Work.fetchRow (w : Work) (i : Inst) (t : Task) (r : RowEnt) : Work :=
  let pg : Page := ⟨.gu, i.cluster⟩
  let ctx := w.dev.ctxOf i.gid
  let rd := i.reader w.dev
  let (va, n) := i.rowPiece t r
  match r.src with
  | .shelf c off =>
    let a := slicePhys c (off * 64)
    if w.backed a n = false then w.failInst i pg .xlate (leBytes 8 va)
    else
      let (l, w) := w.readPhys a n rd
      let w := ((w.count pg 3).count pg 8 (chargedBytes [(a, n)])).rowState i.iid r.ref .flying
      w.addFetch i 1 (.row r.ref) true [(a, n)] [(a, n)] l none
  | .remote d =>
    match w.reach d none with
    | .error n => w.failInst i pg .linkLost (leBytes 1 n)
    | .ok p =>
      let id := w.dev.nextId
      let w := ((w.count pg 7).count pg 8 (chargedBytes [(0, n)])).rowState i.iid r.ref .flying
      let w := w.addFetch i 1 (.row r.ref) false [(va, n)] [(va, n)] [] (some (d, r.row))
      w.sendPacket p (mkPacket 2 0 ctx d w.self (leBytes 4 id ++ leBytes 2 t.gather.remoteTable)
        (some (leBytes 8 r.row ++ leBytes 4 n)) [])
  | _ =>
    if r.src = .default ∧ va = 0 then w.landRow i.iid r.ref (List.replicate n (0, false))
    else
      match w.readVa ctx va n rd with
      | (.error e, w) => w.failInst i pg .xlate (leBytes 8 e)
      | (.ok l, w) =>
        let (k, w) := w.tierCounter ctx va rd
        let w := ((w.count pg k).count pg 8 (chargedBytes [(va, n)])).rowState i.iid r.ref .flying
        w.addFetch i 1 (.row r.ref) false [(va, n)] [(va, n)] l none

def rowFetchIssueWork (c sl : Nat) (w : Work) : Work :=
  match w.dev.instIn? c sl with
  | none => w
  | some i =>
    match i.task? w.dev, i.rows.find? (fun r => r.st == .queued) with
    | some t, some r =>
      if w.gathers i t = false ∨ 2048 ≤ w.dev.tags c ∨ w.slotFree i t r = false then w else w.fetchRow i t r
    | _, _ => w

/-- ROW_FETCH_ISSUE (R108). -/
def execRowFetchIssue (cluster slot : Nat) (s : State) : Host.Outcome State Fault Refusal := s.run (fun w => rowFetchIssueWork cluster slot (w.stepBeat cluster))

/-- A remote request has had no answer for GU_REMOTE_TO.TIMEOUT_US: the task faults, and a later answer finds no fetch (R114). -/
def remoteTimeoutWork (id : Nat) (w : Work) : Work :=
  match w.dev.fetches.find? (fun f => f.id == id && f.remote.isSome) with
  | none => w
  | some f =>
    let w := (w.passTo f.dueAt).dropFetch id
    if w.stale f then w
    else
      match w.dev.inst? f.iid with
      | none => w
      | some i =>
        match i.task? w.dev with
        | some t =>
          if t.state.live then
            (w.raise ⟨.gu, f.cluster⟩ .remoteTimeout ⟨2, some f.ctx, t.gather.remoteTable, f.cluster, []⟩).failOnly
              f.gid f.ti Err.remoteTimeout.code
          else w
        | none => w

/-- REMOTE_TIMEOUT (R114). -/
def execRemoteTimeout (id : Nat) (s : State) : Host.Outcome State Fault Refusal := s.run (remoteTimeoutWork id)

/-! ### Scatter updates (R115, R116, R164) -/

/-- Address of the first poisoned granule of a string read at `va`. -/
def firstPoison (va : Nat) (l : List PByte) : Nat :=
  match (splitBy 64 va l.length).find? (fun (lo, len) => ((l.drop (lo - va)).take len).any (·.2)) with
  | some (lo, _) => lo / 64 * 64
  | none => va / 64 * 64

/-- ERR_POISON_STOP of an instance (R269, R270). -/
def Work.poisonStop (w : Work) (i : Inst) (t : Task) (va : Nat) : Work := w.failInst i (t.page i.cluster) .poisonStop (leBytes 6 va)

/-- The update of a list entry, as the combining queue takes it: weight × source in FP32 for SCATTER_ADD, the source in the table's
format otherwise (R115, R116). Elements are taken into FP32 first (R31). -/
def Inst.updateOf (i : Inst) (t : Task) (x : Idx) (l : List PByte) : List Elem :=
  let g := t.gather
  let T := i.table t
  let src := if g.u32 then rowElems true g.outFmt T.n l else toF32 (decodeRow g.outFmt T.n l)
  match g.scatter with
  | some .add => src.map (fun e => ⟨round32 (e.v.mul x.weight.v), e.p || x.weight.p⟩)
  | _ => if g.u32 then src else decodeRow T.fmt T.n (encodeRow T.fmt src)

/-- Entries of the combining queue (R116). -/
def Inst.combEntries (i : Inst) (t : Task) : Nat :=
  if bitOf i.combCfg 31 = false then 0
  else min (fld i.combCfg 10 0) (t.landing * 1024 / 2 / combSize (i.table t) (t.gather.scatter.getD .add))

/-- Combine an update into the queue, or send what must leave it. -/
def Work.combine (w : Work) (i : Inst) (t : Task) (row : Nat) (v : List Elem) : Work :=
  let g := t.gather
  let m := g.scatter.getD .add
  let cap := i.combEntries t
  match i.comb.find? (fun e => e.row == row) with
  | some e =>
    let merged := (e.val.zip v).map (fun (a, b) => scatterElem m g.u32 a b)
    w.setInst i.iid (fun i => { i with comb := i.comb.filter (fun e => e.row != row) ++ [⟨row, merged, w.dev.beat⟩] })
  | none =>
    if cap = 0 then w.sendScat i t row v
    else
      let full := decide (cap ≤ i.comb.length)
      let w := w.setInst i.iid (fun i => { i with comb := (if full then i.comb.drop 1 else i.comb) ++ [⟨row, v, w.dev.beat⟩] })
      match full, i.comb.head? with
      | true, some e => w.sendScat i t e.row e.val
      | _, _ => w

/-- The next source row, in list order, enters the combining queue. -/
def scatterUpdateWork (c sl : Nat) (w : Work) : Work :=
  match w.dev.instIn? c sl with
  | none => w
  | some i =>
    match i.task? w.dev, i.occs.head? with
    | some t, some o =>
      match i.rows.find? (fun r => r.ref == o.ref && r.st == .landed) with
      | none => w
      | some r =>
        if w.gathers i t = false ∨ t.gather.scatter.isNone then w
        else if i.stopPolicy ∧ (r.data.any (·.2) ∨ o.idx.weight.p) then
          w.poisonStop i t (firstPoison (i.rowPiece t r).1 r.data)
        else
          let w := w.setInst i.iid (fun i => { i with
            occs := i.occs.drop 1, rows := i.rows.filter (fun q => q.ref != o.ref) })
          let w := (w.count ⟨.gu, c⟩ 11).combine i t o.idx.id (i.updateOf t o.idx r.data)
          let j : Inst := { i with occs := i.occs.drop 1 }
          let (l, whole) := i.stream t w.self
          let through := (whole && i.idxPos == l.length && j.occs.isEmpty) || (!t.gather.noCoalesce && j.drained o.win)
          let w := if through then w.flushComb i.iid else w
          (w.updateBags i.iid).endScatter i.iid
    | _, _ => w

/-- SCATTER_UPDATE (R115, R116). -/
def execScatterUpdate (cluster slot : Nat) (s : State) : Host.Outcome State Fault Refusal := s.run (fun w => scatterUpdateWork cluster slot (w.stepBeat cluster))

/-! ### Scatter entries at a die node (R117, R138, R141) -/

/-- The parts of a row that its pages put apart: read and written in order. -/
def Work.readParts (w : Work) (ps : List (Nat × Nat)) (r : Reader) : List PByte × Work :=
  ps.foldl (fun (acc : List PByte × Work) (a, n) =>
    let (l, w) := acc.2.readPart a n r
    (acc.1 ++ l, w)) ([], w)
def Work.writeParts (w : Work) (ps : List (Nat × Nat)) (l : List PByte) : Work :=
  (ps.foldl (fun (acc : List PByte × Work) (a, n) => (acc.1.drop n, acc.2.writePart a (acc.1.take n))) (l, w)).2
/-- Poisoned granules of such a row. -/
def poisonOf (ps : List (Nat × Nat)) (l : List PByte) : Nat :=
  (ps.foldl (fun (acc : List PByte × Nat) (a, n) => (acc.1.drop n, acc.2 + poisonGranules a (acc.1.take n))) (l, 0)).2

/-- Body bytes of an entry (R136). -/
def ScatEntry.body (e : ScatEntry) : Nat := if e.op = .add then 64 * ceilDiv (e.n * 4) 64 else 64 * ceilDiv (e.fmt.rowBytes e.n) 64

/-- OP of a scatter entry's header. -/
def Scatter.opCode : Scatter → Nat
  | .add => 8 | .min => 9 | .max => 10

/-- POISON_MAP of a body: a bit for each 64 bytes (R136). -/
def poisonMap (l : List PByte) : Nat := bitsToNat ((chunksOf 64 l).map (fun g => g.any (·.2)))

/-- The header of R136: TAG, OP, FLAGS, CONTEXT, ELEMENTS, FORMAT, SLABS, COUNT, TARGET and POISON_MAP. -/
def mergeHeader (tag op : Nat) (u32 void : Bool) (ctx n fmt slabs count target map : Nat) : List Byte :=
  leBytes 1 tag ++ leBytes 1 op ++ leBytes 1 (b2n u32 + 2 * b2n void + 4 * b2n (decide (map ≠ 0))) ++ leBytes 1 ctx ++ leBytes 2 n
    ++ leBytes 1 fmt ++ leBytes 1 0 ++ leBytes 4 slabs ++ leBytes 4 count ++ leBytes 8 target ++ leBytes 8 0 ++ leBytes 32 map

/-- Body and header of a scatter entry (R136). -/
def ScatEntry.bodyBytes (e : ScatEntry) : List PByte := pad64 (encodeElems e.u32 (if e.op = .add then .fp32 else e.fmt) e.val)
def ScatEntry.header (e : ScatEntry) : List Byte :=
  mergeHeader 0 e.op.opCode e.u32 false e.ctx e.n e.fmt.code 0 0 e.target (poisonMap e.bodyBytes)

/-- One read-modify-write of the target row; an UPDATE reports back to the Gather Units that sent it (R141, R165). -/
def Work.applyScat (w : Work) (e : ScatEntry) : Work :=
  let (l, w) := (w.charge 4 e.at_).readParts e.at_ ⟨some e.ctx, w.dev.codeOf e.gid e.ti, e.cluster⟩
  let now := if e.u32 then rowElems true e.fmt e.n l else toF32 (decodeRow e.fmt e.n l)
  let out := encodeElems e.u32 e.fmt ((now.zip e.val).map (fun (a, b) => scatterElem e.op e.u32 a b))
  let w := ((w.charge 5 e.at_).writeParts e.at_ out).count ⟨.chNode, e.node⟩ 3
  let w := (w.poisonRead e.gid (poisonOf e.at_ l)).poisonWrote e.gid (poisonOf e.at_ out)
  if e.update then
    let obj := w.dev.codeOf e.gid e.ti
    (w.count pgEb 3 e.parts.length).upd (fun d => { d with
      bumps := d.bumps ++ e.parts.map (fun (_, _, c, row, dir) => (⟨c, e.ctx, obj, dir, row⟩ : BumpDue)) })
  else w

/-- Apply the held entry with a given target, mode and context and take it out of the area. -/
def Work.applyHeld (w : Work) (e : ScatEntry) : Work :=
  let same (x : ScatEntry) : Bool := x.held && x.node == e.node && x.target == e.target && x.op == e.op && x.ctx == e.ctx
  (w.upd (fun d => { d with scat := d.scat.filter (fun x => !same x) })).applyScat e

/-- Remove the first entry that is on its way to a node. -/
def dropMoving (node : Nat) : List ScatEntry → List ScatEntry
  | [] => []
  | x :: t => if x.node = node ∧ x.held = false then t else x :: dropMoving node t

def ScatEntry.older (e f : ScatEntry) : Bool := decide (e.since ≤ f.since)

/-- The scatter area has room for one more entry (R138). -/
def Dev.scatRoom (d : Dev) (node bytes : Nat) : Bool :=
  let held := d.scat.filter (fun x => x.node == node && x.held)
  decide (held.length < 1024) && decide (held.foldl (fun a x => a + x.body) 0 + bytes ≤ 2097152)

/-- The oldest held entries of a node are applied until there is room (R141). -/
def Work.makeRoom (w : Work) (node bytes : Nat) : Nat → Work
  | 0 => w
  | fuel + 1 =>
    if w.dev.scatRoom node bytes then w
    else match (w.dev.scat.filter (fun x => x.node == node && x.held)).foldl (fun (m : Option ScatEntry) x => match m with
        | none => some x
        | some y => if y.older x then some y else some x) none with
      | some o => (w.applyHeld o).makeRoom node bytes fuel
      | none => w

/-- The next entry on its way to the node arrives: merged with a held one, or given space, the oldest held entries being applied
first when there is none. -/
def scatterEntryArriveWork (node : Nat) (w : Work) : Work :=
  match w.dev.scat.find? (fun e => e.node == node && !e.held) with
  | none => w
  | some e =>
    let pg : Page := ⟨.chNode, node⟩
    let w := w.upd (fun d => { d with scat := dropMoving node d.scat })
    let w := (w.count pg 2).count pg 4 (ceilDiv e.body 256)
    let held := w.dev.scat.filter (fun x => x.node == node && x.held)
    match held.find? (fun x => x.target == e.target && x.op == e.op && x.ctx == e.ctx) with
    | some h =>
      let merged : ScatEntry := { h with
        val := (h.val.zip e.val).map (fun (a, b) => scatterElem e.op e.u32 a b), stamp := w.dev.beat, update := h.update || e.update,
        parts := h.parts ++ e.parts }
      w.upd (fun d => { d with scat := d.scat.map (fun x =>
        if x.held && x.node == node && x.target == e.target && x.op == e.op && x.ctx == e.ctx then merged else x) })
    | none =>
      (w.makeRoom node e.body held.length).upd (fun d => { d with scat := d.scat ++ [{ e with held := true, stamp := w.dev.beat, since := w.dev.beat }] })

/-- SCATTER_ENTRY_ARRIVE (R141). -/
def execScatterEntryArrive (node : Nat) (s : State) : Host.Outcome State Fault Refusal := s.run (scatterEntryArriveWork node)

/-- A sending task's last instance has sent its final entries: none of its instances has one still to send. -/
def Dev.finalSent (d : Dev) (e : ScatEntry) : Bool :=
  e.parts.any (fun p => d.insts.all (fun i => !(i.gid == p.1 && i.ti == p.2.1) || i.ended || i.stopOrdered))

/-- A held entry is applied: at once when its task has sent its final entries, otherwise once it has been idle for HOLD_BEATS. -/
def scatterHoldExpireWork (node : Nat) (w : Work) : Work :=
  let held := w.dev.scat.filter (fun x => x.node == node && x.held)
  match held.find? (fun e => w.dev.finalSent e) with
  | some e => w.applyHeld e
  | none =>
    match held.foldl (fun (m : Option ScatEntry) x => match m with
      | none => some x
      | some y => if y.stamp ≤ x.stamp then some y else some x) none with
    | some e => (w.passTo (e.stamp + w.rf ⟨.chNode, node⟩ .chNodeCfg 11 0)).applyHeld e
    | none => w

/-- SCATTER_HOLD_EXPIRE (R141). -/
def execScatterHoldExpire (node : Nat) (s : State) : Host.Outcome State Fault Refusal := s.run (scatterHoldExpireWork node)

/-! ### Row versions (R165) -/

/-- After the report of an application, the row's entry, when its bucket holds one, gains 1 in VERSION. -/
def versionBumpWork (c : Nat) (w : Work) : Work :=
  match w.dev.bumps.find? (fun b => b.cluster == c) with
  | none => w
  | some b =>
    let rec drop1 : List BumpDue → List BumpDue
      | [] => []
      | x :: t => if x.cluster = c then t else x :: drop1 t
    let w := w.upd (fun d => { d with bumps := drop1 d.bumps })
    if b.dir = 0 then w
    else
      let rd : Reader := ⟨some b.ctx, b.obj, c⟩
      match w.readBucket b.ctx b.dir rd with
      | (.ok bytes, w) =>
        match matchEntry bytes b.row with
        | some (k, x, _) =>
          ((w.writeVa b.ctx (b.dir + 16 * k) ((leBytes 4 (x % 2 ^ 32 + 1)).map (·, false)) rd).2).count pgEb 4
        | none => w
      | (_, w) => w

/-- VERSION_BUMP (R165). -/
def execVersionBump (cluster : Nat) (s : State) : Host.Outcome State Fault Refusal := s.run (versionBumpWork cluster)

end Sys2Proof.Machine
end

