-- ==== Sys2Proof/Machine/Pool.lean ====
section
/-! DEFINITION. Reduction of gathered rows by the Vector Engine (R97, R98, R103, R139, R163): one step of a GATHER or EMBED_BAG
instance, or of a lane. -/

namespace Sys2Proof.Machine

/-- An engine's write of an instance's output (R57). -/
def Work.output (w : Work) (i : Inst) (t : Task) (va : Nat) (l : List PByte) : Work :=
  match w.writeVa (w.dev.ctxOf i.gid) va l (i.reader w.dev) with
  | (.error e, w) => w.failInst i (t.page i.cluster) .xlate (leBytes 8 e)
  | (.ok _, w) => w.poisonWrote i.gid (poisonGranules va l)

/-- Steps that runs of some lengths take in L lanes, and the lane slots masked in them (R225): runs no longer than L share steps. -/
def veSteps (L : Nat) (lens : List Nat) : Nat × Nat :=
  let short := (lens.filter (fun n => decide (n ≠ 0) && decide (n ≤ L))).foldl (fun a n => a + 2 ^ ceilLog2 n) 0
  let long := (lens.filter (fun n => decide (L < n))).foldl (fun a n => a + ceilDiv n L) 0
  let steps := ceilDiv short L + long
  (steps, steps * L - lens.foldl (· + ·) 0)

/-- Steps of the Vector Engine in a cluster, and its last step's beat. -/
def Work.veCount (w : Work) (c L : Nat) (lens : List Nat) : Work :=
  let (steps, masked) := veSteps L lens
  ((w.count ⟨.ve, c⟩ 0 steps).count ⟨.ve, c⟩ 2 masked).setCluster c (fun cl => { cl with veBusyAt := w.dev.beat })

/-- What an instance can do next to its segments. -/
inductive PoolNext where
  | wait
  | skip                                    -- a hub's segment: completed by its own step
  | group (l : List Occ) (last : Bool)      -- occurrences of one window and segment; `last`: nothing follows in the segment
  deriving DecidableEq, Repr

/-- First output row of the instance and how many it has (R98). -/
def Inst.outputs (i : Inst) (t : Task) : Option (Nat × Nat) :=
  if i.isLane then some (0, 1)
  else if t.gather.reduce = .none then i.entries t.list
  else some (i.lo, i.hi - i.lo)

/-- The segment is a hub's. -/
def Inst.hubSeg (i : Inst) (t : Task) (s : Nat) : Bool :=
  !i.isLane && t.gather.expand == 1 && (match i.listId t.list i.lo s, i.span s with
    | some (x, _), some (_, d) => !nullId t.list.idw x && t.gather.hub d
    | _, _ => false)

/-- The next step of the segment at `pos`, once nothing it needs is missing. -/
def Inst.poolNext (i : Inst) (t : Task) (self : Nat) : PoolNext :=
  match i.outputs t with
  | none => .wait
  | some (first, n) =>
    if n ≤ i.pos then .wait
    else
      let seg := first + i.pos
      let (l, whole) := i.stream t self
      let passed : Bool := (whole && i.idxPos == l.length) || (match l[i.idxPos]? with
        | some x => decide (seg < x.seg)
        | none => false)
      if i.hubSeg t seg then (if passed then .skip else .wait)
      else
        let os := i.occs.filter (fun o => o.idx.seg == seg && o.idx.hub.isNone)
        match os with
        | [] => if passed then .group [] true else .wait
        | o :: _ =>
          let single := t.gather.noCoalesce
          let g := if single then [o] else os.filter (fun p => p.win == o.win)
          let past : Bool := single || passed || o.win != i.win || !i.winOpen
          let here : Bool := g.all (fun p => i.rows.any (fun r => r.ref == p.ref && r.st == .landed))
          if past && here then .group g (passed && g.length == os.length) else .wait

def Inst.rowData (i : Inst) (ref : Nat) : List PByte := ((i.rows.find? (fun r => r.ref == ref)).map (·.data)).getD []

/-- The operands that some occurrences make: one row of each reference, with the count and the summed weight of its occurrences
(R103), under MEAN in a lane too (R133); under MEAN and NONE otherwise one operand an occurrence. -/
def Inst.operands (i : Inst) (t : Task) (seed : Nat) (os : List Occ) : List Operand :=
  let T := i.table t
  let row (ref : Nat) : List Elem := decodeRow T.fmt T.n (i.rowData ref)
  if t.gather.reduce = .sum ∨ t.gather.reduce = .max ∨ t.gather.reduce = .wsum ∨ (t.gather.reduce = .mean ∧ i.isLane) then
    ((os.map (·.ref)).eraseDups).mapIdx (fun k ref =>
      let mine := os.filter (fun o => o.ref == ref)
      let ws := mine.map (fun o => o.idx.weight)
      ⟨row ref, mine.length, if ws.length = 1 then ws.headD oneElem else sumElems (seed + k + 1) ws⟩)
  else os.map (fun o => ⟨row o.ref, 1, oneElem⟩)

/-- Add operands to an aggregate. -/
def addOperands (seed : Nat) (r : Reduce) (agg : Option (List Elem)) (ops : List Operand) : Option (List Elem) :=
  match agg with
  | none => reduceTerms seed r ops
  | some a => some ((freeOrder seed (ops.map (Operand.term r))).foldl (mergeRows r) a)

/-- First poisoned granule that some occurrences would read, weights under WSUM included. -/
def Inst.poolPoison (i : Inst) (t : Task) (os : List Occ) : Option Nat :=
  os.findSome? (fun o =>
    let l := i.rowData o.ref
    if l.any (·.2) then
      (i.rows.find? (fun r => r.ref == o.ref)).map (fun r => firstPoison (i.rowPiece t r).1 l)
    else if t.gather.reduce = .wsum ∧ o.idx.weight.p then some (o.idx.va / 64 * 64)
    else none)

/-- The sampled IDs of a listed vertex, null-padded (R91). -/
def Inst.emitRow (i : Inst) (t : Task) (e : Nat) : List PByte :=
  let g := t.gather
  let T := t.topo
  let null := 2 ^ (8 * T.idBytes) - 1
  let ids : List Nat := match i.listId t.list i.lo e, i.span e with
    | some (x, _), some (_, d) =>
      if nullId t.list.idw x then []
      else (List.range (min d g.fanout)).map (fun k => ((i.neighbour T e k).map (·.1)).getD null)
    | _, _ => []
  ((List.range g.fanout).flatMap (fun k => leBytes T.idBytes (ids.getD k null))).map (·, false)

/-- Bags that end with output row e (R185). -/
def Inst.bagsEnded (i : Inst) (t : Task) (e : Nat) : Nat :=
  if t.gather.embed = false then 0
  else if t.gather.reduce ≠ .none then 1
  else match i.bounds t.list with
    | some bs => (bs.drop 1).foldl (fun n b => if b = e + 1 ∨ (i.pos = 0 ∧ b ≤ e) then n + 1 else n) 0
    | none => 0

/-- The instance has done everything (R68). -/
def Work.poolDone (w : Work) (iid : Nat) : Work :=
  match w.dev.inst? iid with
  | none => w
  | some i =>
    match i.task? w.dev with
    | none => w
    | some t =>
      match i.outputs t with
      | none => w
      | some (_, n) =>
        let (l, whole) := i.stream t w.self
        if !i.isLane && decide (n ≤ i.pos) && whole && i.idxPos == l.length && i.occs.isEmpty && i.hubDone.isEmpty && !i.ended
            && !w.dev.hubs.any (fun h => h.iid == iid) then
          -- under POOL NONE a share of empty bags has no output row
          (w.whenB (t.gather.embed && n == 0) (fun w => w.count pgEb 0 (i.hi - i.lo))).endInst iid
        else w

/-- Finish output row s: MEAN's division, conversion, and its writes; a lane's partial is kept for its entry. -/
def Work.finishSegment (w : Work) (i : Inst) (t : Task) (s count : Nat) (agg : Option (List Elem)) : Work :=
  let g := t.gather
  let T := i.table t
  let row := finishRow g.reduce T.n count agg
  let w := if g.reduce ≠ .none ∧ count = 0 then w.count ⟨.gu, i.cluster⟩ 13 else w
  let w := w.count pgEb 0 (i.bagsEnded t s)
  let w := w.output i t (g.out + s * g.outStride) (encodeRow g.outFmt row)
  if g.emit ≠ 0 then w.output i t (g.emit + s * g.fanout * t.topo.idBytes) (i.emitRow t s) else w

/-- One step on the next group of occurrences. -/
def Work.poolGroup (w : Work) (i : Inst) (t : Task) (os : List Occ) (last : Bool) : Work :=
  match (if i.stopPolicy then i.poolPoison t os else none) with
  | some va => w.poisonStop i t va
  | none =>
    let (seed, w) := w.seed
    let g := t.gather
    let T := i.table t
    let ops := i.operands t seed os
    let agg := if os = [] then i.agg else addOperands seed g.reduce i.agg ops
    let count := i.aggCount + os.length
    let w := w.veCount i.cluster 64 (ops.map (fun _ => T.n))
    let refs := os.map (fun o => (o.ref, o.idx))
    let w := w.setInst i.iid (fun i => Inst.sweep { i with
      occs := i.occs.filter (fun o => !refs.contains (o.ref, o.idx)), agg := agg, aggCount := count } g.noCoalesce)
    if last = false then w
    else if i.isLane then w.setInst i.iid (fun i => { i with pos := 1, ended := true })
    else
      let first := ((i.outputs t).map (·.1)).getD 0
      let w := w.finishSegment i t (first + i.pos) count agg
      (w.setInst i.iid (fun i => { i with agg := none, aggCount := 0, pos := i.pos + 1 })).poolDone i.iid

/-- A hub whose aggregate has landed, and its own row under SELF: what completes it (R139). -/
def Inst.hubReady (i : Inst) (t : Task) (self : Nat) : Option (Nat × Option (List Elem) × Nat × Option Occ) :=
  i.hubDone.findSome? (fun (s, agg, n) =>
    if t.gather.self then
      match i.occs.find? (fun o => o.idx.seg == s && o.idx.hub.isSome && o.idx.self) with
      | some o => if i.rows.any (fun r => r.ref == o.ref && r.st == .landed) then some (s, agg, n, some o) else none
      | none =>
        -- the own row has entered and proved null (MISSING_NULL), or is still to enter
        match (i.stream t self).1.findIdx? (fun x => x.self && x.seg == s) with
        | some k => if k < i.idxPos then some (s, agg, n, none) else none
        | none => none
    else some (s, agg, n, none))

/-- Complete a hub: own row added with weight 1.0, divided, converted and written (R139). -/
def Work.poolHub (w : Work) (i : Inst) (t : Task) (s : Nat) (agg : Option (List Elem)) (n : Nat) (own : Option Occ) : Work :=
  match (if i.stopPolicy then i.poolPoison t own.toList else none) with
  | some va => w.poisonStop i t va
  | none =>
    let (seed, w) := w.seed
    let T := i.table t
    let ops := own.toList.map (fun o => (⟨decodeRow T.fmt T.n (i.rowData o.ref), 1, oneElem⟩ : Operand))
    let agg := if ops = [] then agg else addOperands seed t.gather.reduce agg ops
    let w := w.veCount i.cluster 64 [T.n]
    let w := w.finishSegment i t s (n + ops.length) agg
    (w.setInst i.iid (fun i => Inst.sweep { i with
      hubDone := i.hubDone.filter (fun h => h.1 != s),
      occs := i.occs.filter (fun o => !(o.idx.seg == s && o.idx.hub.isSome)) } t.gather.noCoalesce)).poolDone i.iid

/-- The next step of a GATHER or EMBED_BAG instance or a lane: none while its operands are missing. -/
def Work.gatherStep (w : Work) (i : Inst) (t : Task) : Option Work :=
  if i.ended then none
  else if t.gather.scatter.isSome then
    let w' := w.endScatter i.iid
    if (w'.dev.inst? i.iid).map (·.ended) = some true then some w' else none
  else
    match (if i.isLane then none else i.hubReady t w.self) with
    | some (s, agg, n, own) => some (w.poolHub i t s agg n own)
    | none =>
      match i.poolNext t w.self with
      | .wait =>
        let w' := w.poolDone i.iid
        if (w'.dev.inst? i.iid).map (·.ended) = some true then some w' else none
      | .skip => some ((w.setInst i.iid (fun i => { i with pos := i.pos + 1 })).poolDone i.iid)
      | .group os last => some (w.poolGroup i t os last)

end Sys2Proof.Machine
end

