-- ==== Sys2Proof/Machine/Transform.lean ====
section
/-! DEFINITION. The Transform Array (R189 to R205, R209), the tile reader and gather-merge (R238 to R246) and the output
compressor (R236, R237): one step of a TRANSFORM instance is one row step of one
phase of one N-panel of one row block; the outputs of an N-panel are computed with its last (log 15, DESIGN CHOICE). -/

namespace Sys2Proof.Machine

/-! ### Operands of a step -/

/-- Column j of a panel: its 256 elements, block scales applied (R193). -/
def panelColumn (f : Fmt) (b : List PByte) (j : Nat) : List Elem :=
  let off := j * (panelBytes f / 256)
  if f.isMx then
    (List.range 256).map (fun i =>
      let (x, p) := packedBits f b (off + 8) i
      let s := pbAt b (off + i / 32)
      ⟨scaled (f.elemVal x) s.1.toNat, p || s.2⟩)
  else (List.range 256).map (fun i =>
    let (x, p) := packedBits f b off i
    ⟨f.elemVal x, p⟩)

/-- The row step that comes next: the present row block, its rows, the N-panel, its panels' items, and what the step is: of the
predictor (8 rows, once per row block), of the main phase (K-panel `kp` on the rows from `row`), or of the shadow pass (R198, R201). -/
structure TStep where
  blk : Nat
  r0 : Nat
  rows : Nat
  np : Nat
  items : List Nat      -- panel items, one for each K-panel
  pred : Bool
  shadow : Bool
  kp : Nat
  row : Nat             -- first row of the step in the row block, and how many
  n : Nat
  last : Bool           -- it finishes the N-panel
  deriving DecidableEq, Repr

def Inst.tstep (i : Inst) (x : XBody) : Option TStep :=
  let blk := i.pos / max 1 x.np
  let np := i.pos % max 1 x.np
  (i.blocks[blk]?).map (fun (r0, n) =>
    let p := i.predSteps x
    let m := mainSteps x i.merge n
    let total := p + m + (if i.predict = 1 then x.kp else 0)
    let q := i.sub - p
    let f := if i.merge then 1 else fold x.k
    let g := ceilDiv n f
    let pred := decide (i.sub < p)
    let row := if pred then 8 * i.sub else if i.merge then q else q % g * f
    { blk := blk, r0 := r0, rows := n, np := np,
      items := (List.range x.kp).map (fun k => if i.resident then np * x.kp + k else i.pos * x.kp + k),
      pred := pred, shadow := !pred && decide (m ≤ q), kp := if q < m then (if i.merge then 0 else q / g) else q - m,
      row := row, n := min (if pred then 8 else f) (n - row), last := decide (total ≤ i.sub + 1) })

/-- Tile columns that a step reads: all of them for the predictor and in gather-merge, else its K-panel's. -/
def TStep.tileCols (s : TStep) (i : Inst) (x : XBody) : List Nat := if s.pred || i.merge then List.range x.kp else [s.kp]

/-- Everything that the step reads has landed: a K-panel step waits for its panel, a row step for its rows (R195). The bias is read by
the predictor and by the epilogue. -/
def Inst.tready (i : Inst) (x : XBody) (s : TStep) : Bool :=
  let item (k : Nat) : Nat := s.items.getD k 0
  let xs : Bool := if x.xt then (s.tileCols i x).all (fun j =>
        let it := (s.r0 + s.row) / 64 * x.kp + j
        match i.tileBytes it with
        | some n => n == 0 || i.hasItem sX it
        | none => false)
      else (List.range s.n).all (fun k => i.hasItem sX (s.r0 + s.row + k))
  (x.b == 0 || !(s.pred || s.last) || i.hasItem sBias 0)
    && (if s.pred then xs && i.hasItem sU 0 && i.hasItem sV 0
      else if s.shadow then i.hasItem sShadow (item s.kp)
      else xs && (if i.merge then s.items.all (fun k => i.hasItem sPanel k) else i.hasItem sPanel (item s.kp)))

/-- The tiles of a row block as the reader finds them: tile row, tile column and result. -/
def Inst.tilesRead (i : Inst) (x : XBody) (s : TStep) : List (Nat × Nat × TileRead) :=
  (x.tilesOf true s.r0 s.rows).map (fun (a, j, _) => (a, j, i.readTile x (a * x.kp + j)))

/-- Rows of X of a step, K elements each, and whether an input tile carries APPROX. -/
def Inst.xrows (i : Inst) (x : XBody) (s : TStep) : List (List Elem) × Bool :=
  if x.xt then
    let ts := i.tilesRead x s
    let rowOf (a r : Nat) : List Elem := (List.range x.kp).flatMap (fun j =>
      match ts.find? (fun (a', j', _) => a' == a && j' == j) with
      | some (_, _, .ok rows _ _) => rows.getD r []
      | _ => [])
    ((List.range s.rows).map (fun k => rowOf ((s.r0 + k) / 64) ((s.r0 + k) % 64)),
     ts.any (fun (_, _, t) => match t with
       | .ok _ ap _ => ap
       | .bad _ => false))
  else ((List.range s.rows).map (fun k => decodeRow x.xf x.k ((i.got sX (s.r0 + k)).getD [])), false)

/-- Columns of W (or of the shadow copy, in MXFP4) of the step's N-panel: K elements each. -/
def Inst.wcols (i : Inst) (x : XBody) (s : TStep) (stream : Nat) (f : Fmt) : List (List Elem) :=
  let ps := s.items.map (fun k => (i.got stream k).getD [])
  (List.range (min 256 (x.n - 256 * s.np))).map (fun j => (ps.flatMap (fun b => panelColumn f b j)).take x.k)

/-- Column j of a factor with n rows in MXFP4: its scale bytes, then its elements (R199). -/
def factorColumn (b : List PByte) (n j : Nat) : List Elem :=
  let off := j * (n / 32 + n / 2)
  (List.range n).map (fun i =>
    let (x, p) := packedBits .mxfp4 b (off + n / 32) i
    let s := pbAt b (off + i / 32)
    ⟨scaled (Fmt.elemVal .mxfp4 x) s.1.toNat, p || s.2⟩)

/-- U, V, shadow weights and thresholds of an instance (R199). -/
def Inst.predictor (i : Inst) (t : Task) (x : XBody) (s : TStep) : Option Predictor :=
  if i.predict = 0 then none
  else
    let d := t.fmt fmtPred
    let ub := (i.got sU 0).getD []
    let vb := (i.got sV 0).getD []
    some {
      u := (List.range 32).map (fun c => factorColumn ub x.k c),
      v := (List.range x.n).map (fun j => factorColumn vb 32 j),
      shadow := (List.replicate (256 * s.np) []) ++ (if i.predict = 1 then i.wcols x s sShadow .mxfp4 else []),
      thresh := decode32 (bytesAt d 4 4), margin := decode32 (bytesAt d 8 4) }

/-! ### Cycle counts (R189, R193, R196, R198, R245) -/

/-- c of a format's class. -/
def Fmt.rowCost (f : Fmt) : Nat := if f.bits = 4 then 1 else if f.bits = 8 then 2 else 4
/-- L of a W format. -/
def panelLoad (f : Fmt) : Nat := ceilDiv (panelBytes f) 32768
/-- c_s. -/
def mergeCost (x f : Fmt) : Nat :=
  max (max x.rowCost f.rowCost) (match f with
    | .int4 => 1
    | .mxfp4 => 3
    | .int8 => 2
    | _ => 4)

/-! ### One step -/

/-- Results of one row of a step: eight blocks of 32 outputs. -/
structure RowOut where
  out : List Elem
  blocks : List BlockOut
  deriving DecidableEq, Repr

/-- Outputs of one row on one N-panel. h is one value for the row, whatever the N-panel (R200): its free choices are the row
block's. -/
def transformRow (seed hseed : Nat) (merge : Bool) (x : XBody) (mode : Nat) (audit : Bool) (q : Option Predictor)
    (bias : List (Option Elem)) (np : Nat) (row : List Elem) (cols : List (List Elem)) : RowOut :=
  let xh := if q.isSome then toMxfp4 row else []
  let h := match q with
    | some p => predictorH hseed p xh
    | none => []
  let bs := (List.range (ceilDiv cols.length 32)).map (fun b =>
    transformBlock (seed + (b + 1) * 65536) merge x.act x.cap mode audit q row xh h (256 * np + 32 * b)
      ((cols.drop (32 * b)).take 32) ((bias.drop (256 * np + 32 * b)).take 32))
  ⟨bs.flatMap (·.out), bs⟩

/-- The first poisoned granule among parts (offset, bytes) of a unit read at `va`. -/
def partPoison (va : Nat) (l : List PByte) (ps : List (Nat × Nat)) : Option Nat :=
  ps.findSome? (fun (o, n) =>
    let m := (l.drop o).take n
    if m.any (·.2) then some (firstPoison (va + o) m) else none)

/-- The parts of a panel that lie within K and a slice's columns within N: 32 of them from `32 * sl` (R193). -/
def panelParts (x : XBody) (f : Fmt) (np kp sl : Nat) : List (Nat × Nat) :=
  let r := min 256 (x.k - 256 * kp)
  (List.range (min 32 (x.n - 256 * np - 32 * sl))).flatMap (fun c =>
    let off := (32 * sl + c) * (panelBytes f / 256)
    if f.isMx then [(off, r / 32), (off + 8, r * f.bits / 8)] else [(off, r * f.bits / 8)])

/-- Poison in the slices of a panel that `used` names. -/
def Inst.panelPoison (i : Inst) (x : XBody) (s : TStep) (stream base : Nat) (f : Fmt) (kp : Nat) (used : Nat → Bool) : Option Nat :=
  (i.got stream (s.items.getD kp 0)).bind (fun l =>
    partPoison (base + (s.np * x.kp + kp) * panelBytes f) l
      ((List.range 8).flatMap (fun sl => if used sl then panelParts x f s.np kp sl else [])))

/-- Poison in the X elements that a step reads. A tile names its first poisoned granule (log 109, DEDUCED). -/
def Inst.xPoison (i : Inst) (x : XBody) (s : TStep) : Option Nat :=
  if x.xt then (s.tileCols i x).findSome? (fun j =>
    let it := (s.r0 + s.row) / 64 * x.kp + j
    match i.readTile x it with
    | .ok rows _ _ =>
      if ((rows.drop ((s.r0 + s.row) % 64)).take s.n).any anyPoison then some (firstPoison (x.tileVa it) (i.tileData it)) else none
    | .bad _ => none)
  else
    let parts := if s.pred || i.merge then [(0, x.xf.rowBytes x.k)]
      else
        let r := min 256 (x.k - 256 * s.kp)
        (256 * s.kp * x.xf.bits / 8, r * x.xf.bits / 8) :: (if x.xf.isMx then [((x.k * x.xf.bits + 7) / 8 + 8 * s.kp, r / 32)] else [])
    (List.range s.n).findSome? (fun k =>
      (i.got sX (s.r0 + s.row + k)).bind (fun l => partPoison (x.x + (s.r0 + s.row + k) * x.xs) l parts))

/-- The first poisoned granule of what the step reads (R269): nothing beyond K and N. With prediction the predictor's steps read the
rows of X, U, V and the bias, and the other phases only the panels' slices that some row's block needs: `blocksPoison`. Log 109, DEDUCED: POISON_POLICY STOP in a TRANSFORM step that reads a poisoned element of a compressed tile (R206, R269). -/
def Inst.tpoison (i : Inst) (t : Task) (x : XBody) (s : TStep) : Option Nat :=
  let d := t.fmt fmtPred
  let look (st va off n : Nat) : Option Nat := (i.got st 0).bind (fun l => partPoison va l [(off, n)])
  if s.pred then
    (i.xPoison x s).or ((look sU (bytesAt d 16 8) 0 (17 * x.k)).or ((look sV (bytesAt d 24 8) 0 (17 * x.n)).or (look sBias x.b 0 (4 * x.n))))
  else if i.predict ≠ 0 then none
  else
    (i.xPoison x s).or (((if i.merge then List.range x.kp else [s.kp]).findSome? (fun k =>
      i.panelPoison x s sPanel x.w x.wf k (fun _ => true))).or
      (if s.last then look sBias x.b (1024 * s.np) (4 * min 256 (x.n - 256 * s.np)) else none))

/-- With prediction: poison in the slices of W that some row computes in full or recomputes, and of the shadow copy that some row is
checked with (R200 to R202). -/
def Inst.blocksPoison (i : Inst) (t : Task) (x : XBody) (s : TStep) (rows : List RowOut) : Option Nat :=
  let some_ (p : BlockOut → Bool) (sl : Nat) : Bool := rows.any (fun r => ((r.blocks[sl]?).map p).getD false)
  if i.predict = 0 then none
  else (List.range x.kp).findSome? (fun k =>
    (i.panelPoison x s sPanel x.w x.wf k (some_ (fun b => b.full || b.madeUp))).or
      (if i.predict = 1 then i.panelPoison x s sShadow (bytesAt (t.fmt fmtPred) 32 8) .mxfp4 k (some_ (·.skipped)) else none))

/-- Counts of full, checked and recomputed blocks of one slice over the rows of a step (A_s, Z_s, F_s). -/
def sliceCounts (mode : Nat) (rows : List RowOut) (b : Nat) : Nat × Nat × Nat :=
  let bs := rows.filterMap (fun r => r.blocks[b]?)
  let n (p : BlockOut → Bool) : Nat := (bs.filter p).length
  if mode = 0 then (bs.length, 0, 0)
  else (n (·.full), if mode = 1 then n (·.skipped) else 0, n (·.madeUp))

def maxOf (l : List Nat) : Nat := l.foldl max 0

/-- CCLK of a step's phases (R198, R245), the fill of 40 with the instance's last. -/
def Inst.phaseTime (i : Inst) (x : XBody) (s : TStep) (groups : Nat) (rows : List RowOut) (last : Bool) : Nat :=
  let c := max x.xf.rowCost x.wf.rowCost
  let L := panelLoad x.wf
  let k := x.kp
  let f := fold x.k
  let sc := (List.range 8).map (sliceCounts i.predict rows)
  let a := maxOf (sc.map (fun q => ceilDiv q.1 f))
  let z := maxOf (sc.map (fun q => ceilDiv q.2.1 f))
  let m := maxOf (sc.map (fun q => ceilDiv q.2.2 f))
  let main := if i.merge then mergeCost x.xf x.wf * max (ceilDiv groups 8) (ceilDiv (k * s.rows) 8)
    else k * max (c * max a (ceilDiv s.rows (8 * f))) L
  let pred := if i.predict ≠ 0 ∧ s.np = 0 then ceilDiv s.rows 8 * (k + x.np) else 0
  main + pred + (if z = 0 then 0 else k * max z L) + (if m = 0 then 0 else k * max (c * m) L) + (if last then 40 else 0)

/-- Row groups of gather-merge (R244). -/
def rowGroups (row : List Elem) : Nat := ceilDiv (row.filter (fun e => !e.v.isZero || e.p)).length 32

/-- Write one row's outputs of an N-panel: elements, and block scales behind the whole row's elements. -/
def Work.writePanelRow (w : Work) (i : Inst) (t : Task) (x : XBody) (r np : Nat) (es : List Elem) : Work :=
  let base := x.y + r * x.ys
  let l := encodeRow x.yf es
  let body := (es.length * x.yf.bits + 7) / 8
  let w := w.output i t (base + 256 * np * x.yf.bits / 8) (l.take body)
  if x.yf.isMx then w.output i t (base + (x.n * x.yf.bits + 7) / 8 + 8 * np) (l.drop body) else w

/-- Tiles of a step, to the compressor (R236). -/
def stepTiles (ctx : Nat) (i : Inst) (x : XBody) (s : TStep) (approxIn : Bool) (rows : List RowOut) : List TileOut :=
  (chunksOf 64 rows).mapIdx (fun k rs =>
    let a := s.r0 / 64 + k
    let approx := approxIn || (i.predict == 2 && rs.any (fun r => r.blocks.any (·.skipped)))
    let (l, dense) := encodeTile x.yf (rs.map (·.out)) (min 256 (x.n - 256 * s.np)) approx (64 * a) (256 * s.np)
    ⟨i.iid, i.gid, i.ti, ctx, x.y + (a * x.np + s.np) * x.yf.tileBytes, l, dense, approx⟩)

/-- The counters of prediction (R209). -/
def Work.countBlocks (w : Work) (i : Inst) (rows : List RowOut) (auditRows : Nat) (s : TStep) : Work :=
  if i.predict = 0 then w
  else
    let bs := rows.flatMap (·.blocks)
    let n (p : BlockOut → Bool) : Nat := (bs.filter p).length
    let pg : Page := ⟨.ta, i.cluster⟩
    let w := (((w.count pg 2 (n (·.full))).count pg 3 (n (fun b => b.skipped && !b.full))).count pg 4 (n (·.madeUp))).count pg 5 (n (·.falseAct))
    (w.count pg 6 (if s.np = 0 then auditRows else 0)).count pg 7 (n (·.auditMiss))

/-- What a finished N-panel frees: its streamed panels, and with its last N-panel the X rows of a row block (R258). Until then they
stand in State for the accumulators, which the outputs are computed from at once (R206). -/
def Inst.panelDone (i : Inst) (x : XBody) (s : TStep) : Inst :=
  let j := { i with pos := i.pos + 1, sub := 0 }
  let j := if i.resident then j else j.drop (fun l => (l.stream == sPanel || l.stream == sShadow) && s.items.contains l.item)
  if s.np + 1 = x.np then
    let its := if x.xt then (x.tilesOf true s.r0 s.rows).map (fun (a, k, _) => a * x.kp + k) else (List.range s.rows).map (fun k => s.r0 + k)
    j.drop (fun l => (l.stream == sX || l.stream == sXHead) && its.contains l.item)
  else j

/-- Nobody else holds the cluster's index matcher (R251). -/
def Work.matcherFree (w : Work) (i : Inst) : Bool :=
  match (w.cluster i.cluster).matchHolder with
  | none => true
  | some h => h == i.iid
def Work.holdMatcher (w : Work) (i : Inst) (on : Bool) : Work :=
  w.setCluster i.cluster (fun cl => { cl with matchHolder := if on then some i.iid else cl.matchHolder.filter (· != i.iid) })

/-- The counters of gather-merge over a finished N-panel (R244, R245, R254). -/
def Work.countMerge (w : Work) (i : Inst) (x : XBody) (s : TStep) (groups : Nat) : Work :=
  let floor := ceilDiv (x.kp * s.rows) 8
  ((w.count ⟨.sp, i.cluster⟩ 6 groups).count ⟨.sp, i.cluster⟩ 7 (max (ceilDiv groups 8) floor)).count ⟨.sp, i.cluster⟩ 8 (floor - ceilDiv groups 8)

/-- The end of all phases of an N-panel: its outputs are written, or its tiles go to the compressor (R197, R236). -/
def Work.panelEnd (w : Work) (i : Inst) (t : Task) (s : TStep) : Work :=
  let x := t.xform
  let (seed, w) := w.seed
  let (xr, approx) := i.xrows x s
  let cols := i.wcols x s sPanel x.wf
  let bias : List (Option Elem) := if x.b = 0 then [] else (decodeRow .fp32 x.n ((i.got sBias 0).getD [])).map some
  let q := i.predictor t x s
  let audited (k : Nat) : Bool := i.predict == 2 && i.audit != 0 && (s.r0 + k) % 2 ^ i.audit == 0
  let rows := xr.mapIdx (fun k r =>
    transformRow (seed + k * 2 ^ 24) (i.hseed + k * 2 ^ 24) i.merge x i.predict (audited k) q bias s.np r cols)
  match (if i.stopPolicy then i.blocksPoison t x s rows else none) with
  | some va => w.poisonStop i t va
  | none =>
    let w := w.countBlocks i rows ((List.range s.rows).filter audited).length s
    let groups := xr.foldl (fun a r => a + rowGroups r) 0
    let w := w.whenB i.merge (fun w => w.countMerge i x s groups)
    let w := w.whenB (i.merge && s.np == 0) (fun w => w.holdMatcher i false)
    let last := decide (i.pos + 1 = i.blocks.length * x.np)
    let w := w.count ⟨.ta, i.cluster⟩ 0 (i.phaseTime x s groups rows last)
    let w := if s.np + 1 = x.np then w.count ⟨.ta, i.cluster⟩ 1 s.rows else w
    let w := if x.yt then
        w.setInst i.iid (fun j => { j with outTiles := stepTiles (w.dev.ctxOf i.gid) i x s approx rows })
      else w.each (rows.zipIdx) (fun (r, k) w => w.writePanelRow i t x (s.r0 + k) s.np r.out)
    let w := w.setInst i.iid (fun i => i.panelDone x s)
    if last then w.endInst i.iid else w

/-- A finished tile leaves the epilogue for the compressor, which holds at most four (R237); those of a stopped instance do too (R206). -/
def Work.releaseTile (w : Work) (i : Inst) : Option Work :=
  match i.outTiles with
  | [] => none
  | o :: rest =>
    if 4 ≤ (w.cluster i.cluster).tiles.length then none
    else some ((w.setCluster i.cluster (fun cl => { cl with tiles := cl.tiles ++ [o] })).setInst i.iid (fun i => { i with outTiles := rest }))

/-- The next row step of a TRANSFORM instance, once what it reads has landed. A row block's packing for gather-merge holds the index
matcher (R251). -/
def Work.transformStep (w : Work) (i : Inst) (t : Task) : Option Work :=
  let x := t.xform
  match i.tstep x with
  | none => none
  | some s =>
    let packs := i.merge && s.np == 0
    if i.ended || !i.tready x s || (packs && !w.matcherFree i) then none
    else
      match (if i.stopPolicy then i.tpoison t x s else none) with
      | some va => some (w.poisonStop i t va)
      | none =>
        let (h, w) := if s.np = 0 ∧ i.sub = 0 then w.seed else (i.hseed, w)
        let w := w.setInst i.iid (fun i => { i with hseed := h, sub := i.sub + 1 })
        let w := w.whenB packs (fun w => w.holdMatcher i true)
        let w := w.whenB i.merge (fun w => w.setCluster i.cluster (fun cl => { cl with mergeAt := w.dev.beat }))
        if s.last then
          match w.dev.inst? i.iid with
          | some j => some (w.panelEnd j t s)
          | none => some w
        else some w

/-! ### TILE_WRITE (R237) -/

/-- The oldest complete tile of a cluster's compressor is written into its slot; a task that has ended meanwhile still has the
tiles of its finished N-panels written (R206). -/
def tileWriteWork (c : Nat) (w : Work) : Work :=
  match (w.cluster c).tiles with
  | [] => w
  | o :: rest =>
    let w := w.setCluster c (fun cl => { cl with tiles := rest })
    let rd : Reader := ⟨some o.ctx, w.dev.codeOf o.gid o.ti, c⟩
    match w.writeVa o.ctx o.va o.data rd with
    | (.error e, w) => w.failTask o.gid o.ti ⟨.ta, c⟩ .xlate c (leBytes 8 e)
    | (.ok _, w) =>
      let w := w.poisonWrote o.gid (poisonGranules o.va o.data)
      let w := (w.count ⟨.sp, c⟩ (if o.dense then 1 else 0)).count ⟨.sp, c⟩ 2 o.data.length
      w.count ⟨.ta, c⟩ 8 (b2n o.approx)

/-- TILE_WRITE (R237). -/
def execTileWrite (cluster : Nat) (s : State) : Host.Outcome State Fault Refusal := s.run (tileWriteWork cluster)

end Sys2Proof.Machine
end

