-- ==== Sys2Proof/Machine/VecEngine.lean ====
section
/-! DEFINITION. The Vector Engine's programs (R210 to R231): one step of a VECTOR instance is one step of a run, or of a row of a
segmented operation (log 15, DESIGN CHOICE). An element-wise operation writes with each step, the others at the end of the run or segment. -/

namespace Sys2Proof.Machine

def vopCtype (b : List Byte) : CType := (ctypeOf (byteAt b 2)).getD .fp32
def vopImm (b : List Byte) : Nat := bytesAt b 28 4
def vopAccum (b : List Byte) : Bool := fieldN (byteAt b 1) 1 1 == 1
def vopDyn (b : List Byte) : Bool := fieldN (byteAt b 1) 2 2 == 1
/-- COMPRESS, EXPAND and the row reductions yield their D run as a whole. -/
def vopWhole (b : List Byte) : Bool := opReduction (byteAt b 0) || byteAt b 0 == 0x40 || byteAt b 0 == 0x41

/-! ### Operand cache (R227, R229) -/

def Inst.opcRead (i : Inst) (off n : Nat) : List PByte := (List.range n).map (fun k => look (0, false) (off + k) i.opc)

/-- Write the operand cache granule by granule: a granule is poisoned when what is written to it is, and stays so where a clean write
does not cover it (R50, R52, R229). -/
def Inst.opcWrite (i : Inst) (off : Nat) (l : List PByte) : Inst :=
  (splitBy 64 off l.length).foldl (fun (i : Inst) (lo, len) =>
    let part := (l.drop (lo - off)).take len
    let old := i.opcRead (lo / 64 * 64) 64
    let p := part.any (·.2) || (decide (len < 64) && old.any (·.2))
    let at_ := lo % 64
    { i with opc := (List.range 64).foldl (fun m k =>
        let x : PByte := if at_ ≤ k ∧ k < at_ + len then part.getD (k - at_) (0, false) else old.getD k (0, false)
        put (0, false) (lo / 64 * 64 + k) (x.1, p) m) i.opc }) i

/-- An element as the operation's compute type takes it in (R215). -/
def CType.take (c : CType) (e : Elem) : Elem :=
  match c with
  | .fp32 => ⟨round32 e.v, e.p⟩
  | .bf16 => ⟨roundB16 e.v, e.p⟩
  | .u32 => e

/-! ### Operands -/

/-- Compute type in which operand k is taken in: the D that ACCUM adds to stays in FP32 (R215, R220, R221). -/
def opdCtype (b : List Byte) (k : Nat) : CType := if k = 2 ∧ vopAccum b ∧ vopCtype b = .bf16 then .fp32 else vopCtype b

/-- Elements of a run of `len` elements held in some bytes. An MX or code run keeps the layout of the whole run. -/
def runElems (b : List Byte) (k len : Nat) (l : List PByte) : List Elem :=
  let f := opdFmt b k
  let n := if f.isMx || f.isCode then runLen b k (opCount b 0) else len
  ((rowElems (byteAt b 2 == 2) f n l).take len).map (opdCtype b k).take

/-- Bytes of operand k of run r, len elements; what has not landed reads 0. -/
def Inst.opdBytes (i : Inst) (b : List Byte) (op k r len : Nat) : List PByte :=
  let n := runBytes b k len
  if (opdAt b k).space = 1 then (List.range (ceilDiv n 256)).flatMap (fun j =>
    (i.got (sOp op k) (runItem r j)).getD (List.replicate (min 256 (n - 256 * j)) (0, false)))
  else i.opcRead (i.runBase b k r).toNat n

/-- Operand k (0 A, 1 B, 2 D) of run r: the elements that run of len elements of A has in it. -/
def Inst.operand (i : Inst) (t : Task) (op k r len : Nat) : List Elem :=
  let b := t.vop op
  match (opdAt b k).space with
  | 0 => []
  | 3 =>
    let x := ((rowElems (byteAt b 2 == 2) .fp32 16 ((i.got sScal 0).getD [])).map (vopCtype b).take).getD (byteAt b 7 % 16) ⟨.zero, false⟩
    List.replicate (runLen b k len) x
  | _ => runElems b k (runLen b k len) (i.opdBytes b op k r len)

/-- Every chunk that step s of run r reads has landed. -/
def Inst.stepReady (i : Inst) (t : Task) (op r len s : Nat) : Bool :=
  let b := t.vop op
  (List.range 3).all (fun k => !opdReads b k || (List.range (ceilDiv (runBytes b k len) 256)).all (fun j =>
    decide (s < (chunkSteps b k len j).1) || i.hasItem (sOp op k) (runItem r j)))

/-- Address or offset of a poisoned granule among elements p to q - 1 of operand k of run r. -/
def Inst.opdPoison (i : Inst) (t : Task) (op k r len p q : Nat) : Option Nat :=
  let b := t.vop op
  let f := opdFmt b k
  let head := if f.isCode then 4 else 0
  let body := (runLen b k (opCount b 0) * f.bits + 7) / 8
  if q ≤ p then none
  else match (opdAt b k).space with
    | 0 => none
    | 3 => (i.got sScal 0).bind (fun l => if pbPoison l (4 * (byteAt b 7 % 16)) 4 then some ((t.f 80 8 + 4 * (byteAt b 7 % 16)) / 64 * 64) else none)
    | _ =>
      partPoison (i.runBase b k r).toNat (i.opdBytes b op k r len)
        ([(head + p * f.bits / 8, (q * f.bits + 7) / 8 - p * f.bits / 8)] ++ (if f.isCode then [(0, 4)] else [])
          ++ (if f.isMx then [(body + p / 32, (q + 31) / 32 - p / 32)] else []))

/-- D is read by the operation. -/
def readsD (b : List Byte) : Bool := byteAt b 0 == 0x05 || vopAccum b

/-- Set positions of a mask before position n (R223). -/
def maskCount (b : List Byte) (mask : List Elem) (n : Nat) : Nat :=
  ((List.range n).filter (fun k => !(mask.getD (k / opGroup b) ⟨.zero, false⟩).v.isZero)).length

/-- The first poisoned granule of A or B that a step on elements e0 to e1 - 1 of run r reads (R269): of an expanded A the elements that
it takes. -/
def Inst.srcPoison (i : Inst) (t : Task) (op r len e0 e1 : Nat) : Option Nat :=
  let b := t.vop op
  let code := byteAt b 0
  let g := opGroup b
  let (p, q) := if code = 0x41 then
      let m := i.operand t op 1 r len
      (maskCount b m e0, maskCount b m e1)
    else (e0, e1)
  (i.opdPoison t op 0 r len p q).or ((if opReadsB code = false then none
    else if code = 0x22 then i.opdPoison t op 1 r len e0 e1 else i.opdPoison t op 1 r len (e0 / g) (ceilDiv e1 g)))

/-- The same of the D that it adds to: with the last step where the run is yielded as a whole. -/
def Inst.dstPoison (i : Inst) (t : Task) (op r len e0 e1 : Nat) : Option Nat :=
  let b := t.vop op
  if readsD b = false then none
  else if vopWhole b then (if e1 = len then i.opdPoison t op 2 r len 0 (runLen b 2 len) else none)
  else i.opdPoison t op 2 r len e0 e1

/-! ### Writing D -/

/-- Bytes of D elements from position e0 of a run on, as pieces at offsets from its base: MX scales stand behind the whole run's
elements. -/
def runPieces (b : List Byte) (e0 : Nat) (es : List Elem) : List (Nat × List PByte) :=
  let f := opdFmt b 2
  let whole := runLen b 2 (opCount b 0)
  if byteAt b 2 = 2 then [(4 * e0, encodeElems true f es)]
  else if f.isMx then
    let l := encodeRow f (es ++ List.replicate (roundUp es.length 32 - es.length) ⟨.zero, false⟩)
    let body := (roundUp es.length 32 * f.bits + 7) / 8
    [(e0 * f.bits / 8, (l.take body).take ((es.length * f.bits + 7) / 8)), ((whole * f.bits + 7) / 8 + e0 / 32, l.drop body)]
  else [(e0 * f.bits / 8, encodeRow f es)]

/-- The position beside an odd last 4-bit element keeps its bits: it is not written (R223). -/
def keepNibble (odd : Bool) (old : Byte) (l : List PByte) : List PByte :=
  match odd, l.getLast? with
  | true, some x => l.dropLast ++ [(BitVec.ofNat 8 (x.1.toNat % 16 + old.toNat / 16 * 16), x.2)]
  | _, _ => l

/-- Write D elements from position e0 of run r on; `fin`: the last of the run's, of which `total` are written. -/
def Work.writeRun (w : Work) (i : Inst) (t : Task) (op r e0 total : Nat) (es : List Elem) : Work :=
  let b := t.vop op
  let f := opdFmt b 2
  let base := (i.runBase b 2 r).toNat
  let ctx := w.dev.ctxOf i.gid
  let rd := i.reader w.dev
  if es = [] then w
  else if (opdAt b 2).space ≠ 1 then w.each (runPieces b e0 es) (fun (off, l) w => w.setInst i.iid (fun i => i.opcWrite (base + off) l))
  else
    let odd : Bool := f.bits == 4 && es.length % 2 == 1
    let w := w.each ((runPieces b e0 es).zipIdx) (fun ((off, l), k) w =>
      let va := base + off
      let l := keepNibble (odd && k == 0) (w.byteNow ctx (va + (l.length - 1)) rd) l
      match w.writePiece ctx va l (e0 == 0 && k == 0) rd with
      | (.error e, w) => w.failInst i ⟨.ve, i.cluster⟩ .xlate (leBytes 8 e)
      | (.ok _, w) => w.poisonWrote i.gid (poisonGranules va l))
    if e0 + es.length < total then w
    else match (w.translateRange ctx base 1 true rd).1 with
      | .ok ps => w.chargeFloor 5 ((devParts ps).map (fun x => (x.1, if f.isMx then runBytes b 2 (opCount b 0) else (total * f.bits + 7) / 8)))
      | .error _ => w

/-! ### NaNs (R230) -/

/-- Results that are NaN though none of their operands is. -/
def madeNans (groups : List (List Elem × Elem)) : Nat :=
  (groups.filter (fun (ins, o) => o.v.isNan && !ins.any (·.v.isNan))).length

/-- Count new NaNs; the flag: the instance faults on them. -/
def Work.nans (w : Work) (i : Inst) (n : Nat) : Work × Bool := (w.count ⟨.ve, i.cluster⟩ 4 n, i.nanFault && decide (n ≠ 0))

def Work.vectorFault (w : Work) (i : Inst) (e : Err) (detail : List Byte) : Work := w.failInst i ⟨.ve, i.cluster⟩ e detail

/-! ### Steps (R225, R234) -/

/-- The step that short runs share is full: its masked lane slots count. -/
def Work.vePackEnd (w : Work) (iid L : Nat) : Work :=
  match w.dev.inst? iid with
  | none => w
  | some i => (w.count ⟨.ve, i.cluster⟩ 2 (if i.packN = 0 then 0 else L - i.packN)).setInst iid (fun i => { i with packW := 0, packN := 0 })

/-- A step on n elements of a run of len. Runs no longer than L share steps, in the order in which they come (log 110, DEDUCED). -/
def Work.veStep (w : Work) (i : Inst) (L len n : Nat) : Work :=
  let w := w.setCluster i.cluster (fun cl => { cl with opIndex := i.pos, veBusyAt := w.dev.beat })
  let pg : Page := ⟨.ve, i.cluster⟩
  if L < len then (((w.vePackEnd i.iid L).count pg 0).count pg 2 (L - n))
  else
    let width := 2 ^ ceilLog2 len
    if i.packN ≠ 0 ∧ i.packW + width ≤ L then
      w.setInst i.iid (fun i => { i with packW := i.packW + width, packN := i.packN + n })
    else ((w.vePackEnd i.iid L).count pg 0).setInst i.iid (fun i => { i with packW := width, packN := n })

/-- An operation is complete (R217, R234). -/
def Work.endOp (w : Work) (iid : Nat) (t : Task) : Work :=
  match w.dev.inst? iid with
  | none => w
  | some i =>
    let op := i.pos
    let w := (w.vePackEnd iid (vopLanes (t.vop op))).count ⟨.ve, i.cluster⟩ 1
    let w := w.setInst iid (fun i => ({ i with pos := op + 1, winCount := 0, sub := 0, row := 0 } : Inst).drop (fun l =>
      decide (sOp op 0 ≤ l.stream) && decide (l.stream ≤ sOp op 3)))
    if op + 1 = t.ops then w.endInst iid else w

/-- A run or segment is complete: the rows of its operands up to `rows` leave. -/
def Work.runDone (w : Work) (i : Inst) (t : Task) (total rows : Nat) : Work :=
  let op := i.pos
  let w := w.setInst i.iid (fun j => ({ j with winCount := i.winCount + 1, sub := 0, row := rows } : Inst).drop (fun l =>
    decide (sOp op 0 ≤ l.stream) && decide (l.stream ≤ sOp op 2) && decide (l.item / 4096 < rows)))
  if i.winCount + 1 = total then w.endOp i.iid t else w

/-! ### Runs (R219, R220, R223) -/

/-- An element-wise operation on the elements of one step: x, with y paired under GROUP, and d. -/
def elemStep (b : List Byte) (x y d : List Elem) : List Elem × Nat :=
  let op := byteAt b 0
  let r := elemRun op (vopCtype b) (vopImm b) 1 x y d
  let ins (k : Nat) : List Elem := (x[k]?).toList ++ (if opReadsB op then (y[k]?).toList else []) ++ (if op = 0x05 then (d[k]?).toList else [])
  (r, if vopCtype b = .u32 then 0 else madeNans (r.mapIdx (fun k e => (ins k, e))))

/-- An operation that yields its D run as a whole: D elements, the count word of COMPRESS, new NaNs. The sums of R220 stay in FP32. -/
def wholeRun (seed : Nat) (b : List Byte) (x y d : List Elem) : List Elem × Option (Nat × Bool) × Nat :=
  let op := byteAt b 0
  let c := vopCtype b
  let g := opGroup b
  let imm := vopImm b
  if op = 0x40 then
    let (l, k, p) := compressRun x y g
    (l, some (k, p), 0)
  else if op = 0x41 then
    let mask := (List.range (opCount b 0)).map (fun i => y.getD (i / g) ⟨.zero, false⟩)
    (expandRun ⟨if c = .u32 then u32Val imm else decode32 imm, false⟩ (anyPoison y) mask x, none, 0)
  else
    let r := reduceRun seed op g x y (if vopAccum b then some d else none)
    let ins (k : Nat) : List Elem := (x.drop (k * g)).take g ++ (if op = 0x22 then (y.drop (k * g)).take g else [])
      ++ (if vopAccum b then (d[k]?).toList else [])
    (r, none, if c = .u32 then 0 else madeNans (r.mapIdx (fun k e => (ins k, e))))

/-- One step of the present run. -/
def Work.vectorRun (w : Work) (i : Inst) (t : Task) : Option Work :=
  let op := i.pos
  let b := t.vop op
  let n := i.winCount
  let total := i.runs b
  let aux := bytesAt b 36 4 + 4 * n
  let len := i.runLength b n
  if vopDyn b && (i.opcRead aux 4).any (·.2) then some (w.vectorFault i .vectorRange (leBytes 8 aux))
  else if opCount b 0 < len then some (w.vectorFault i .vectorRange (leBytes 8 aux))
  else if len = 0 then some (w.runDone i t total (n + 1))
  else if i.stepReady t op n len i.sub = false then none
  else
    let L := vopLanes b
    let e0 := i.sub * L
    let e1 := min len (e0 + L)
    match (if i.stopPolicy then (i.srcPoison t op n len e0 e1).or (i.dstPoison t op n len e0 e1) else none) with
    | some va => some (w.poisonStop i t va)
    | none =>
      let w := w.veStep i L len (e1 - e0)
      let next (w : Work) : Work := if e1 = len then w.runDone i t total (n + 1) else w.setInst i.iid (fun i => { i with sub := i.sub + 1 })
      let x := i.operand t op 0 n len
      let y := i.operand t op 1 n len
      let d := if readsD b then i.operand t op 2 n len else []
      if vopWhole b then
        if e1 < len then some (next w)
        else
          let (seed, w) := w.seed
          let (r, cnt, nn) := wholeRun seed b x y d
          let (w, stop) := w.nans i nn
          if stop then some (w.vectorFault i .vectorNan (leBytes 2 op))
          else
            let w := w.writeRun i t op n 0 r.length r
            let w := match cnt with
              | some (k, p) => (w.setInst i.iid (fun i => i.opcWrite aux ((leBytes 4 k).map (·, p)))).count ⟨.ve, i.cluster⟩ 5 k
              | none => w
            some (next w)
      else
        let cut (l : List Elem) : List Elem := (l.drop e0).take (e1 - e0)
        let ys := (List.range (e1 - e0)).map (fun k => y.getD ((e0 + k) / opGroup b) ⟨.zero, false⟩)
        let (r, nn) := elemStep b (cut x) ys (cut d)
        let (w, stop) := w.nans i nn
        if stop then some (w.vectorFault i .vectorNan (leBytes 2 op))
        else some (next (w.writeRun i t op n e0 len r))

/-! ### Segments (R221, R222) -/

/-- The entry of the array that breaks R221 or is poisoned (R229), among those that segment s reads: AUX[0] with the first segment,
AUX[s + 1] with each. -/
def auxFault (rows segs s : Nat) (a z : Nat × Bool) : Option Nat :=
  if s = 0 ∧ (a.2 = true ∨ a.1 ≠ 0) then some 0
  else if z.2 = true ∨ z.1 < a.1 ∨ rows < z.1 ∨ (s + 1 = segs ∧ z.1 ≠ rows) then some (s + 1)
  else none

/-- Results of a segment: D row number and elements; and new NaNs. Accumulation is in FP32 (R221). -/
def segOp (seed : Nat) (b : List Byte) (s first : Nat) (xs ys : List (List Elem)) (acc : Option (List Elem)) :
    List (Nat × List Elem) × Nat :=
  let op := byteAt b 0
  let n := opCount b 0
  if op = 0x35 then
    let rs := segSoftmax seed n xs
    let bad := madeNans (rs.flatMap (fun r => r.mapIdx (fun k e => (column xs k, e))))
    (rs.mapIdx (fun k r => (first + k, r)), bad)
  else
    let r := segRow seed op (opGroup b) n xs ys acc
    let ins (k : Nat) : List Elem := column xs k ++ (if op = 0x34 then column ys (k / opGroup b) else []) ++ ((acc.getD [])[k]?).toList
    ([(s, r)], if vopCtype b = .u32 then 0 else madeNans (r.mapIdx (fun k e => (ins k, e))))

/-- The end of segment s, rows a to z - 1: its result is written. -/
def Work.segEnd (w : Work) (i : Inst) (t : Task) (s a z : Nat) : Work :=
  let op := i.pos
  let b := t.vop op
  let n := opCount b 0
  let rs := (List.range (z - a)).map (fun k => a + k)
  let acc := if vopAccum b then some (i.operand t op 2 s n) else none
  let (seed, w) := w.seed
  let (out, nn) := segOp seed b s a (rs.map (fun r => i.operand t op 0 r n))
    (if byteAt b 0 = 0x34 then rs.map (fun r => i.operand t op 1 r n) else []) acc
  let (w, stop) := w.nans i nn
  if stop then w.vectorFault i .vectorNan (leBytes 2 op)
  else (w.each out (fun (r, l) w => w.writeRun i t op r 0 n l)).runDone i t (vopImm b) z

/-- One step of SEG_BCAST: L positions of row s of A, to every row of its segment. -/
def Work.bcastStep (w : Work) (i : Inst) (t : Task) (s a z : Nat) : Work :=
  let op := i.pos
  let b := t.vop op
  let n := opCount b 0
  let L := vopLanes b
  let e0 := i.sub * L
  let e1 := min n (e0 + L)
  let x := ((i.operand t op 0 s n).drop e0).take (e1 - e0)
  let w := w.each ((List.range (z - a)).map (fun k => a + k)) (fun r w =>
    let w := match w.dev.inst? i.iid with
      | some j => w.veStep j L n (e1 - e0)
      | none => w
    w.writeRun i t op r e0 n x)
  if e1 = n then w.runDone i t (vopImm b) (s + 1) else w.setInst i.iid (fun i => { i with sub := i.sub + 1 })

/-- One step of a segmented operation: of a row of the present segment, whose result is written with its last. -/
def Work.vectorSeg (w : Work) (i : Inst) (t : Task) : Option Work :=
  let op := i.pos
  let b := t.vop op
  let n := opCount b 0
  let s := i.winCount
  let bcast : Bool := byteAt b 0 == 0x36
  match i.auxWord t op s, i.auxWord t op (s + 1) with
  | some a, some z =>
    match auxFault (opCount b 1) (vopImm b) s a z with
    | some k => some (w.vectorFault i .vectorRange (leBytes 8 (bytesAt b 112 8 + 4 * k)))
    | none =>
      if a.1 = z.1 then some (if bcast then w.runDone i t (vopImm b) (s + 1) else w.segEnd i t s a.1 z.1)
      else
        let r := if bcast then s else max i.row a.1
        let L := vopLanes b
        let e0 := i.sub * L
        let e1 := min n (e0 + L)
        if i.stepReady t op r n i.sub = false then none
        else match (if i.stopPolicy then (i.srcPoison t op r n e0 e1).or
            (if vopAccum b && r + 1 == z.1 && e1 == n then i.opdPoison t op 2 s n 0 n else none) else none) with
        | some va => some (w.poisonStop i t va)
        | none =>
          if bcast then some (w.bcastStep i t s a.1 z.1)
          else
            let w := w.veStep i L n (e1 - e0)
            if e1 < n then some (w.setInst i.iid (fun i => { i with sub := i.sub + 1 }))
            else if r + 1 < z.1 then some (w.setInst i.iid (fun i => { i with sub := 0, row := r + 1 }))
            else some (w.segEnd i t s a.1 z.1)
  | _, _ => none

/-- The next step of a VECTOR instance. -/
def Work.vectorStep (w : Work) (i : Inst) (t : Task) : Option Work :=
  if i.ended ∨ t.ops ≤ i.pos then none
  else if t.f 80 8 ≠ 0 ∧ (i.got sScal 0).isNone then none
  else if opSegmented (byteAt (t.vop i.pos) 0) then w.vectorSeg i t else w.vectorRun i t

end Sys2Proof.Machine
end

