-- ==== Sys2Proof/Machine/MatchCopy.lean ====
section
/-! DEFINITION. The index matcher (R249 to R251), the Porter (R271 to R274), and the cluster dispatcher (R72). -/

namespace Sys2Proof.Machine

/-! ### MATCH -/

/-- The IDs of a landed chunk of a list. -/
def chunkIds (l : List PByte) : List Nat := (List.range (l.length / 4)).map (fun k => pbNat l (4 * k) 4)

/-- A MATCH entry is over: its count is written, then the IDs that it emits, and the matcher is free (R249, R251). -/
def Work.matchEnd (w : Work) (i : Inst) (t : Task) : Work :=
  let e := i.lo + i.pos
  let w := w.output i t (t.f 80 8 + 8 * e) ((leBytes 8 i.hits).map (·, false))
  let going : Bool := match w.dev.inst? i.iid with
    | some j => !j.stopOrdered
    | none => false
  let emit := t.f 88 8
  let m := t.f 98 2
  let w := w.whenB (going && emit != 0) (fun w =>
    w.output i t (emit + 4 * m * e) (((List.range m).flatMap (fun k => leBytes 4 (i.common.getD k 0xFFFFFFFF))).map (·, false)))
  let w := (w.holdMatcher i false).setCluster i.cluster (fun cl => { cl with keys := 0 })
  let w := w.setInst i.iid (fun i => ({ i with
    pos := i.pos + 1, keys := [], chunk := 0, probe := 0, bpart := none, part := none, prev := none, hits := 0, common := [] } : Inst).drop (fun l =>
      l.stream == sNeigh || (l.stream == sOffs && decide (2 ^ 33 ≤ l.item))))
  if e + 1 = i.hi then w.endInst i.iid else w

/-- A chunk of a list has been taken by the matcher. -/
def Inst.took (i : Inst) (e p : Nat) : Inst := i.drop (fun l => l.stream == sNeigh && l.item == nItem e p)

/-- The poisoned granule of a chunk, position n on of list e, that a step under STOP would read. A poisoned ID has faulted the task as it
landed (R51). -/
def Inst.chunkPoison (i : Inst) (t : Task) (e n : Nat) (l : List PByte) : Option Nat :=
  if i.stopPolicy ∧ l.any (·.2) then some (firstPoison (t.topo.neigh + 4 * ((((i.span e).map (·.1)).getD 0) + n)) l) else none

/-- The next chunk of the build list goes into the store (R250); none while it has not landed. -/
def Work.matchBuild (w : Work) (i : Inst) (t : Task) (e n z : Nat) : Option Work :=
  if z ≤ n then some (w.setInst i.iid (fun i => { i with bpart := some (n, z) }))
  else (i.got sNeigh (nItem e n)).map (fun l =>
    match i.chunkPoison t e n l with
    | some va => w.poisonStop i t va
    | none =>
      let ids := chunkIds l
      let j := { i.took e n with keys := i.keys ++ ids, bpart := some (n + ids.length, z) }
      ((w.setInst i.iid (fun _ => j)).count ⟨.sp, i.cluster⟩ 11 ids.length).setCluster i.cluster (fun cl => { cl with keys := j.chunkKeys.length }))

/-- The next chunk of a probe list is probed (R250). -/
def Work.matchProbe (w : Work) (i : Inst) (t : Task) (e n z : Nat) : Option Work :=
  if z ≤ n then some (w.setInst i.iid (fun i => { i with part := none, prev := none, probe := i.probe + 1 }))
  else (i.got sNeigh (nItem e n)).map (fun l =>
    match i.chunkPoison t e n l with
    | some va => w.poisonStop i t va
    | none =>
      let ids := chunkIds l
      let found := intersect ids i.chunkKeys
      let m := t.f 98 2
      let w := w.setInst i.iid (fun i => { i.took e n with
        part := some (n + ids.length, z), prev := ids.getLast?, hits := i.hits + found.length, common := (i.common ++ found).take m })
      (w.count ⟨.sp, i.cluster⟩ 12 ids.length).count ⟨.sp, i.cluster⟩ 13 found.length)

/-- What the matcher does next for the present entry: it builds the store with a chunk of the build list, probes it with each probe list
in turn, and goes on to the next chunk (R250). -/
def Work.matchNext (w : Work) (i : Inst) (t : Task) (build : Nat) (probe : Option Nat) : Option Work :=
  if i.building then
    match i.bpart.or (w.buildRange i t) with
    | none => none
    | some (n, z) => w.matchBuild i t build n z
  else
    let lists := if probe.isSome then 1 else i.keys.length
    if i.chunkKeys ≠ [] ∧ i.probe < lists then
      match i.part with
      | some (n, z) => w.matchProbe i t (probe.getD (triItem i.probe)) n z
      | none =>
        match w.probeRange i t with
        | none => none
        | some (_, a, z) => if z ≤ a then some (w.setInst i.iid (fun i => { i with probe := i.probe + 1 })) else none
    else
      match i.bpart with
      | some (n, z) =>
        if n < z then some (w.setInst i.iid (fun i => { i with chunk := i.chunk + 1, probe := 0, part := none, prev := none }))
        else some (w.matchEnd i t)
      | none => none

/-- The next step of a MATCH instance: none while what it reads has not landed, or another instance holds the matcher (R251). -/
def Work.matchStep (w : Work) (i : Inst) (t : Task) : Option Work :=
  if i.ended ∨ i.hi ≤ i.lo + i.pos ∨ w.matcherFree i = false then none
  else
    match i.matchIds t with
    | none => none
    | some ids =>
      if ids.any (fun x => x.2.isNone) then some (w.matchEnd i t)
      else match i.matchLists t with
        | none => none
        | some (e, p) => (w.matchNext i t e p).map (fun w =>
          -- held from the entry's first step to its end
          match w.dev.inst? i.iid with
          | some j => if j.pos = i.pos ∧ j.stopOrdered = false then w.holdMatcher i true else w
          | none => w)

/-! ### COPY (R271 to R274) -/

/-- R272: a descriptor that breaks its rules. -/
def copyBad (b : List PByte) : Bool :=
  let src := pbNat b 0 8
  let dst := pbNat b 8 8
  let f := pbNat b 16 4
  let len := fieldN f 24 0
  let zero : Bool := fieldN f 25 25 == 1
  let rows := pbNat b 20 4
  let ss := pbNat b 24 4
  let ds := pbNat b 28 4
  let dsts := List.range rows
  let hit (a b : Nat) : Bool := decide (a < b + len) && decide (b < a + len)
  decide (src % 4 ≠ 0) || decide (dst % 4 ≠ 0) || (zero && decide (src ≠ 0)) || decide (len % 4 ≠ 0) || decide (len < 4)
    || decide (16777216 < len) || decide (fieldN f 31 26 ≠ 0) || decide (rows = 0) || decide (65536 < rows)
    || decide (ss % 4 ≠ 0) || decide (ds % 4 ≠ 0) || ((decide (rows = 1) || zero) && decide (ss ≠ 0))
    || (if rows = 1 then decide (ds ≠ 0) else decide (ds < len))
    || (!zero && dsts.any (fun r => dsts.any (fun q => hit (dst + r * ds) (src + q * ss))))

/-- Bytes of a range that lie in host memory. -/
def Work.hostBytes (w : Work) (ctx va n : Nat) (write : Bool) (rd : Reader) : Nat :=
  match (w.translateRange ctx va n write rd).1 with
  | .ok ps => ps.foldl (fun a (t, _, len) => match t with
    | .host _ => a + len
    | .dev _ => a) 0
  | .error _ => 0

/-- The fields of a copy descriptor (R272). -/
structure CopyDesc where
  src : Nat
  dst : Nat
  len : Nat
  zero : Bool
  rows : Nat
  ss : Nat
  ds : Nat
  deriving DecidableEq, Repr

def copyOf (b : List PByte) : CopyDesc :=
  let f := pbNat b 16 4
  ⟨pbNat b 0 8, pbNat b 8 8, fieldN f 24 0, fieldN f 25 25 == 1, pbNat b 20 4, pbNat b 24 4, pbNat b 28 4⟩

/-- A read of an instance's COPY row or stream row that is on its way. -/
def Dest.porter : Dest → Bool
  | .copy _ _ _ _ _ => true
  | .mcast _ => true
  | _ => false
/-- Bytes of a COPY or stream instance's reservation that reads on their way fill (R274). -/
def Dev.porterBytes (d : Dev) (iid : Nat) : Nat :=
  (d.fetches.filter (fun f => f.iid == iid && f.dest.porter)).foldl (fun a f => a + f.bytes) 0

/-- The destination lies in a Shelf slice: its rows are Shelf fills (R267). -/
def Work.inSlice (w : Work) (ctx va : Nat) (rd : Reader) : Bool :=
  match (w.translate ctx va true rd).1 with
  | some (.dev a) => decide (0xC000000000 ≤ a) && decide (a < 0x10000000000)
  | _ => false

/-- Bytes of a read or write charged by the Porter: of a whole run, or of a later piece of one. -/
def portCharge (first : Bool) (va n : Nat) : Nat := if first then chargedBytes [(va, n)] else 64 * granuleCount [laterPart va n]

/-- Every row of the descriptor has been read: the next one comes. -/
def Work.rowIssued (w : Work) (iid : Nat) (d : CopyDesc) : Work :=
  w.setInst iid (fun i => if i.row + 1 < d.rows then { i with row := i.row + 1, off := 0 }
    else { i with desc := [], row := 0, off := 0, pos := i.pos + 1 })

/-- When no row of descriptor `desc` is on its way and none is still to be read, it is complete; the instance ends with its last (R273). -/
def Work.copyDone (w : Work) (iid desc : Nat) : Work :=
  match w.dev.inst? iid with
  | none => w
  | some i =>
    let out : Bool := w.dev.fetches.any (fun f => f.iid == iid && (match f.dest with
      | .copy k _ _ _ _ => k == desc
      | _ => false))
    if i.pos ≤ desc ∨ out = true ∨ i.stopOrdered then w
    else
      let w := w.count ⟨.pt, i.cluster⟩ 0
      if i.lo + i.pos = i.hi ∧ w.dev.porterBytes iid = 0 then w.endInst iid else w

/-- The Porter writes a row, or a piece of a row that is longer than the reservation. -/
def Work.copyWrite (w : Work) (c : Nat) (gid ti : Nat) (ctx va : Nat) (l : List PByte) (first last : Bool) (rd : Reader) : Work :=
  let pg : Page := ⟨.pt, c⟩
  match (if first && last then w.writeVa ctx va l rd else w.writePiece ctx va l first rd) with
  | (.error e, w) => w.failTask gid ti pg .xlate c (leBytes 8 e)
  | (.ok _, w) =>
    ((w.count pg 2 (portCharge first va l.length)).count pg 3 (w.hostBytes ctx va l.length true rd)).poisonWrote gid (poisonGranules va l)

/-- The next row of the present descriptor is read, or, under ZERO, written; a row that the reservation cannot hold in pieces, but for
a Shelf fill, which is written whole (R267, R274). Log 72, DEDUCED: PT_CNT_SHELF_FILL (R267, R278). -/
def Work.copyNext (w : Work) (i : Inst) (t : Task) : Work :=
  let d := copyOf i.desc
  let c := i.cluster
  let pg : Page := ⟨.pt, c⟩
  let ctx := w.dev.ctxOf i.gid
  let rd := i.reader w.dev
  let dst := d.dst + i.row * d.ds + i.off
  if d.zero then
    let w := (w.copyWrite c i.gid i.ti ctx dst (List.replicate d.len (0, false)) true true rd).count pg 5 d.len
    (w.rowIssued i.iid d).copyDone i.iid i.pos
  else
    let room := t.landing * 1024
    let n := if w.inSlice ctx dst rd then d.len else min (d.len - i.off) room
    let used := w.dev.porterBytes i.iid
    if 2048 ≤ w.dev.tags c ∨ (used ≠ 0 ∧ room < used + n) then w
    else
      let src := d.src + i.row * d.ss + i.off
      let first := decide (i.off = 0)
      let last := decide (d.len ≤ i.off + n)
      match (if first then w.readVa ctx src n rd else w.readLater ctx src n rd) with
      | (.error e, w) => w.failInst i pg .xlate (leBytes 8 e)
      | (.ok l, w) =>
        let w := (w.count pg 1 (portCharge first src n)).count pg 3 (w.hostBytes ctx src n false rd)
        let w := w.addFetch i 2 (.copy i.pos i.row dst first last) false [(src, n)] [(src, n)] l none
        if last then w.rowIssued i.iid d else w.setInst i.iid (fun i => { i with off := i.off + n })

/-- A cell wait that was satisfied lets its instance's first step issue from a beat on (R297). -/
def Dev.wokenAt (d : Dev) (iid : Nat) : Nat :=
  (d.sync.cellWaits.filter (fun x => x.iid == iid)).foldl (fun a x => max a (x.wakeAt.getD 0)) 0

/-- The Porter takes up the instance's next descriptor, which it checks, and then reads its rows one by one (R273; log 15, DESIGN
CHOICE: one row of one descriptor with each command). A cell's wake is waited out (R297). -/
def copyDescriptorReadWork (c sl : Nat) (w : Work) : Work :=
  match w.dev.instIn? c sl with
  | none => w
  | some i =>
    match i.task? w.dev with
    | none => w
    | some t =>
      if t.kind ≠ some .copy ∨ t.f 72 1 ≠ 0 ∨ !i.started ∨ i.stopOrdered ∨ i.ended ∨ w.pageOn ⟨.pt, c⟩ = false ∨ i.hi ≤ i.lo + i.pos then w
      else
        let w := w.passTo (w.dev.wokenAt i.iid)
        if i.desc ≠ [] then w.copyNext i t
        else
          let va := t.f 64 8 + 32 * (i.lo + i.pos)
          let ctx := w.dev.ctxOf i.gid
          match w.readVa ctx va 32 (i.reader w.dev) with
          | (.error e, w) => w.failInst i ⟨.pt, c⟩ .xlate (leBytes 8 e)
          | (.ok b, w) =>
            let w := w.poisonRead i.gid (poisonGranules va b)
            if b.any (·.2) || copyBad b then w.failInst i ⟨.pt, c⟩ .copyRange (leBytes 8 va)
            else
              let w := w.setInst i.iid (fun i => { i with desc := b, row := 0, off := 0 })
              w.copyNext { i with desc := b, row := 0, off := 0 } t

/-- COPY_DESCRIPTOR_READ (R273). -/
def execCopyDescriptorRead (cluster slot : Nat) (s : State) : Host.Outcome State Fault Refusal :=
  s.run (fun w => copyDescriptorReadWork cluster slot (w.stepBeat cluster))

/-! ### The dispatcher (R72, R132) -/

/-- The next step of an instance in an execute engine whose page is enabled, none while an operand is missing. -/
def Work.instStep (w : Work) (i : Inst) : Option Work :=
  match i.task? w.dev with
  | none => none
  | some t =>
    -- a finished N-panel's tiles leave the epilogue, those of a stopped instance too (R206, R237)
    if i.outTiles ≠ [] then w.releaseTile i
    else if i.stopOrdered ∨ i.voided ∨ !(i.started || i.isLane) then none
    else match t.kind with
      | some .gather | some .embedBag => if w.pageOn ⟨.ve, i.cluster⟩ then w.gatherStep i t else none
      | some .transform => if w.pageOn ⟨.ta, i.cluster⟩ then w.transformStep i t else none
      | some .vector => if w.pageOn ⟨.ve, i.cluster⟩ then w.vectorStep i t else none
      | some .matchT => if w.pageOn ⟨.sp, i.cluster⟩ then w.matchStep i t else none
      | _ => none

/-- Order of resident instances for the dispatcher: PRIORITY, then the longest resident; of two that took their slots on one beat, the
first in State's list (log 99, DESIGN CHOICE). -/
def Dev.dispatchOrder (d : Dev) (c : Nat) : List Inst :=
  let pr (x : Inst) : Nat := ((x.task? d).map Task.prio).getD 0
  let before (i j : Inst) : Bool := decide (pr j < pr i) || (pr i == pr j && decide (i.tookAt < j.tookAt))
  (d.resident c).foldl (fun acc i => (acc.takeWhile (fun j => !before i j)) ++ [i] ++ (acc.dropWhile (fun j => !before i j))) []

/-- A STALL waiter of the cluster holds the issue order against an instance of equal or lower PRIORITY (R297). Log 73, DEDUCED: STALL waits (R295, R297). -/
def Work.heldByStall (w : Work) (i : Inst) : Bool :=
  let pr (x : Inst) : Nat := ((x.task? w.dev).map Task.prio).getD 0
  w.dev.sync.cellWaits.any (fun x => x.at_ == i.cluster && w.stalling x && match w.dev.inst? x.iid with
    | some h => decide (pr i ≤ pr h)
    | none => false)

/-- An instance that may execute, but has no step ready because its data has not landed: a fetch of it is on its way, or one is still to be
issued (R263). -/
def Work.starves (w : Work) (i : Inst) : Bool :=
  (i.started || i.isLane) && !i.stopOrdered && !i.voided && !i.ended && (w.instStep i).isNone
    && (w.dev.fetches.any (fun f => f.iid == i.iid) || (w.nextReq i).isSome)

/-- The dispatcher notes which instances starve; beats that pass count them (R263). -/
def Work.noteStarving (w : Work) (c : Nat) : Work :=
  w.setCluster c (fun cl => { cl with starving := ((w.dev.resident c).filter w.starves).map (·.iid) })

/-- One step of one instance: skipped beats and the first step's beat are waited out. Log 15, DESIGN CHOICE: size of one DISPATCH and of one Porter command. -/
def dispatchWork (c : Nat) (w : Work) : Work :=
  let w := (w.startDue c).noteStarving c
  match (w.dev.dispatchOrder c).find? (fun i => (w.instStep i).isSome && !w.heldByStall i) with
  | none => w
  | some i => ((((w.passTo (w.dev.wokenAt i.iid)).stepBeat c).instStep i)).getD w

/-- DISPATCH (R72). -/
def execDispatch (cluster : Nat) (s : State) : Host.Outcome State Fault Refusal := s.run (dispatchWork cluster)

end Sys2Proof.Machine
end

