-- ==== Sys2Proof/Machine/Wholesale.lean ====
section
/-! DEFINITION. The Wholesale path (R124 to R133), the Clearing House tree for hubs (R134 to R139, R142), and hub multicast
(R144 to R149). -/

namespace Sys2Proof.Machine

/-! ### Tags (R125, R127, R135) -/

/-- Hub tags in use: held by hubs, or aborted and still draining. -/
def Dev.tagsUsed (d : Dev) : List Nat := d.hubs.filterMap (·.tag) ++ d.abortedTags.map (·.1)
def Dev.freeTag (d : Dev) : Option Nat := (List.range 256).find? (fun n => !d.tagsUsed.contains n)
/-- Tags that a context holds, aborted ones that still drain included. -/
def Dev.ctxTags (d : Dev) (ctx : Nat) : Nat :=
  (d.hubs.filter (fun h => h.tag.isSome && d.ctxOf h.gid == ctx)).length + (d.abortedTags.filter (fun x => x.2.2.2 == ctx)).length
/-- The first of the requests, in the order made, whose context is below its limit. -/
def Work.tagRequest (w : Work) : Option Hub :=
  (w.dev.hubs.filter (fun h => h.asked && h.tag.isNone
    && decide (w.dev.ctxTags (w.dev.ctxOf h.gid) < w.rf ⟨.chRoot, 0⟩ .chRootCfg 8 0))).foldl (fun (b : Option Hub) h => match b with
      | none => some h
      | some x => if h.askedAt < x.askedAt then some h else some x) none

def Work.setHub (w : Work) (iid seg : Nat) (f : Hub → Hub) : Work :=
  w.upd (fun d => { d with hubs := updFirst (fun h => h.iid == iid && h.seg == seg) f d.hubs })

/-- What the search of a hub directory gives: the entry is there, a translation fault, or the address of an entry that is wrong. -/
inductive DirFound where
  | ok
  | fault (va : Nat)
  | bad (va : Nat)
  deriving DecidableEq, Repr

/-- A directory entry's VERTEX, DEGREE and START; an address where it does not translate; none inside where it is poisoned (R51). -/
def Work.dirEntry (w : Work) (i : Inst) (va : Nat) : Except Nat (Option (Nat × Nat × Nat)) × Work :=
  match w.readVa (w.dev.ctxOf i.gid) va 16 (i.reader w.dev) with
  | (.error e, w) => (.error e, w)
  | (.ok l, w) =>
    (.ok (if l.any (·.2) then none else some (pbNat l 0 4, pbNat l 4 4, pbNat l 8 8)), w.poisonRead i.gid (poisonGranules va l))

/-- Binary search of the hub directory on (DEGREE descending, VERTEX ascending) between entries lo and hi, whose neighbours that have been
read hold degrees `top` and `low`. Every entry read must keep the order to those, and the entry found to the one before it (R28). An entry
that is not there names the entry at which the search ended (log 111, DESIGN CHOICE). -/
def Work.hubSearch (w : Work) (i : Inst) (h : Hub) (base : Nat) : Nat → Nat → Nat → Nat → Nat → DirFound × Work
  | 0, lo, _, _, _ => (.bad (base + 16 * lo), w)
  | fuel + 1, lo, hi, top, low =>
    let mid := (lo + hi) / 2
    let va := base + 16 * mid
    if hi ≤ lo then (.bad (base + 16 * lo), w)
    else match w.dirEntry i va with
      | (.error e, w) => (.fault e, w)
      | (.ok none, w) => (.bad va, w)
      | (.ok (some (v, d, start)), w) =>
        if top < d then (.bad va, w)
        else if d < low then (.bad (base + 16 * hi), w)
        else if v = h.vertex then
          if d ≠ h.degree ∨ start ≠ h.first then (.bad va, w)
          else if mid = lo then (.ok, w)
          else match w.dirEntry i (va - 16) with
            | (.error e, w) => (.fault e, w)
            | (.ok none, w) => (.bad (va - 16), w)
            | (.ok (some (_, p, _)), w) => (if p < d then .bad va else .ok, w)
        else if h.degree < d ∨ (d = h.degree ∧ v < h.vertex) then w.hubSearch i h base fuel (mid + 1) hi d low
        else w.hubSearch i h base fuel lo mid top d

/-- The directory entry of a hub: found, and in agreement with the offsets (R28, R125). -/
def Work.hubListed (w : Work) (i : Inst) (t : Task) (h : Hub) : DirFound × Work :=
  w.hubSearch i h t.topo.hubdir 33 0 t.topo.hubs (2 ^ 32) 0

/-- The root grants a tag, six beats after the request at the earliest; the search of the directory follows. -/
def tagGrantWork (w : Work) : Work :=
  match w.tagRequest, w.dev.freeTag with
  | some h, some tag =>
    let w := w.passTo (h.askedAt + 6)
    let w := w.count ⟨.wh, h.cluster⟩ 4 (w.dev.beat - h.askedAt)
    let w := w.setHub h.iid h.seg (fun h => { h with tag := some tag, creditAt := w.dev.beat })
    match w.dev.inst? h.iid with
    | none => w
    | some i =>
      match i.task? w.dev with
      | none => w
      | some t =>
        match w.hubListed i t h with
        | (.ok, w) => w
        | (.fault va, w) => w.failInst i ⟨.gu, i.cluster⟩ .xlate (leBytes 8 va)
        | (.bad va, w) => w.failInst i ⟨.wh, i.cluster⟩ .topoMeta (leBytes 8 va)
  | _, _ => w

/-- TAG_GRANT (R135). -/
def execTagGrant (s : State) : Host.Outcome State Fault Refusal := s.run tagGrantWork

/-! ### Dealing (R126 to R130) -/

def slabsOf (h : Hub) : Nat := ceilDiv h.degree 1024
/-- The hub an instance deals. -/
def Dev.dealingHub (d : Dev) (iid : Nat) : Option Hub := d.hubs.find? (fun h => h.iid == iid && h.tag.isSome && !h.closed)

/-- A cluster is a candidate (R128). -/
def Work.candidate (w : Work) (c S : Nat) : Bool :=
  let cfg := w.whCfg c
  bitOf cfg 31 && decide (2 * S ≤ laneKib cfg * 1024)
/-- A free lane grants a credit (R130). -/
def Work.credit (w : Work) (c : Nat) : Bool :=
  let cfg := w.whCfg c
  decide ((w.dev.lanes c).length < fld cfg 19 16) && decide (laneKib cfg ≤ w.landingFree c)

/-- Candidates in rotation after a relative position, wrapping. -/
def Work.rotation (w : Work) (p : Pitch) (last S : Nat) : List Nat :=
  let cs := p.clusters
  ((cs.drop (last + 1)) ++ cs.take (last + 1)).filter (fun c => w.candidate c S)

/-- A slab goes to a lane of a cluster: `slot` is 8 to 15, or 16 and up for a slab the owner serves itself. -/
def Work.placeSlab (w : Work) (i : Inst) (h : Hub) (c slot : Nat) : Work :=
  let j := h.dealt
  let (iid, w) := w.fresh
  let w := if slot < 16 ∧ w.dev.lanes c = [] then
      w.setCluster c (fun cl => { cl with whEff := w.reg ⟨.wh, c⟩ .whCfg }) else w
  let lane : Inst := { freshInst iid i.gid i.ti i.rel c (h.first + 1024 * j) (min (h.first + 1024 * (j + 1)) (h.first + h.degree)) with
    slot := some slot, tookAt := w.dev.beat, hkCfg := w.reg ⟨.hk, c⟩ .hkCfg, stopPolicy := i.stopPolicy, owner := i.iid, tag := h.tag.getD 0, slab := j }
  let w := w.upd (fun d => { d with insts := d.insts ++ [lane] })
  w.setHub h.iid h.seg (fun h => { h with
    dealt := j + 1, creditAt := w.dev.beat, perDie := updAt (· + 1) (dieOfCluster c) h.perDie })

/-- After the last slab the dealer sends CLOSE (R129). -/
def Work.closeIfDealt (w : Work) (p : Pitch) (iid seg : Nat) : Work :=
  match w.dev.hubs.find? (fun h => h.iid == iid && h.seg == seg) with
  | none => w
  | some h =>
    if h.closed ∨ h.dealt < slabsOf h then w
    else
      let w := (w.setHub iid seg (fun h => { h with closed := true, total := h.dealt })).sendClose h ((p.clusters.map dieOfCluster).eraseDups)
      w.askTag iid

/-- The owner serves the next slab itself, as part of its own index stream: one at a time, when no slab of it still enters (R128). Log 8, DEDUCED: a slab that its owner serves itself (R128). -/
def Work.selfServe (w : Work) (i : Inst) (h : Hub) (p : Pitch) : Work :=
  let slot := 16 + i.slot.getD 0
  if (w.dev.instIn? i.cluster slot).isSome then w
  else ((w.placeSlab i h i.cluster slot).count ⟨.wh, i.cluster⟩ 2).closeIfDealt p h.iid h.seg

/-- The owner of a hub that has slabs left to deal, with its task and pitch. -/
def Work.dealer (w : Work) (c sl : Nat) : Option (Inst × Task × Hub × Pitch) :=
  match w.dev.instIn? c sl with
  | none => none
  | some i =>
    match i.task? w.dev, w.dev.dealingHub i.iid with
    | some t, some h =>
      if i.stopOrdered ∨ slabsOf h ≤ h.dealt ∨ w.pageOn ⟨.wh, c⟩ = false then none
      else (w.pitchOfTask i.gid t).map (fun p => (i, t, h, p))
    | _, _ => none

def slabDealWork (c sl : Nat) (w : Work) : Work :=
  match w.dealer c sl with
  | none => w
  | some (i, t, h, p) =>
    match w.rotation p h.lastCand (i.table t).slot with
    | [] => w.selfServe i h p
    | cands =>
      match cands.find? w.credit with
      | none => w
      | some d =>
        match (List.range 8).find? (fun k => (w.dev.instIn? d (8 + k)).isNone) with
        | none => w
        | some k =>
          let w := w.placeSlab i h d (8 + k)
          let w := w.setHub h.iid h.seg (fun h => { h with lastCand := p.rel d })
          let w := if d = c then w else w.count ⟨.wh, c⟩ 1
          w.closeIfDealt p h.iid h.seg

/-- SLAB_DEAL (R128). -/
def execSlabDeal (cluster slot : Nat) (s : State) : Host.Outcome State Fault Refusal := s.run (slabDealWork cluster slot)

/-- WAIT_BEATS beats without a credit: the owner serves the next slab itself. -/
def dealWaitExpireWork (c sl : Nat) (w : Work) : Work :=
  match w.dealer c sl with
  | none => w
  | some (i, t, h, p) =>
    if (w.rotation p h.lastCand (i.table t).slot).any w.credit then w
    else (w.passTo (h.creditAt + w.rf ⟨.wh, c⟩ .whDeal 15 0)).selfServe i h p

/-- DEAL_WAIT_EXPIRE (R128). -/
def execDealWaitExpire (cluster slot : Nat) (s : State) : Host.Outcome State Fault Refusal := s.run (dealWaitExpireWork cluster slot)

/-! ### Serving a slab (R131, R142) -/

/-- A lane's partial, or a VOID entry when the slab is stopped, goes to the die node of the server's die. Lanes 0 to 7 are the
cluster's; 8 + s names the slab that the instance in slot s serves itself. -/
def slabPartialSendWork (c lane : Nat) (w : Work) : Work :=
  match w.dev.instIn? c (8 + lane) with
  | none => w
  | some i =>
    if i.ended = false ∧ i.stopOrdered = false then w
    else
      let (r, n) := match i.task? w.dev with
        | some t => (t.gather.reduce, (i.table t).n)
        | none => (.sum, 1)
      let e : MergeEntry := { tag := i.tag, op := r, ctx := w.dev.ctxOf i.gid, n := n, slabs := 1, count := if i.stopOrdered then 0 else i.aggCount,
                              body := if i.stopOrdered then none else i.agg.map (mapPoison false .fp32), abort := i.stopOrdered }
      let w := w.upd (fun d => { d with tree := d.tree ++ [.entry (dieOfCluster c) e] })
      let w := if e.body.isNone then w.count ⟨.wh, c⟩ 5 else w
      let w := if lane < 8 then w.count ⟨.wh, c⟩ 3 else w
      w.dropInst i.iid

/-- SLAB_PARTIAL_SEND (R131, R142). -/
def execSlabPartialSend (cluster lane : Nat) (s : State) : Host.Outcome State Fault Refusal := s.run (slabPartialSendWork cluster lane)

/-! ### The tree (R134, R137) -/

/-- Page of a die node, or of the root (node 4). -/
def chPage (node : Nat) : Page := if node = 4 then ⟨.chRoot, 0⟩ else ⟨.chNode, node⟩

/-- Take the first message that meets `p` out of the tree. -/
def takeMsg (p : TreeMsg → Bool) : List TreeMsg → List TreeMsg
  | [] => []
  | x :: t => if p x then t else x :: takeMsg p t

def Dev.hubSlot? (d : Dev) (node tag : Nat) : Option HubSlot := (d.hubSlots.find? (fun h => h.1 == node && h.2.tag == tag)).map (·.2)
def Work.setHubSlot (w : Work) (node : Nat) (h : HubSlot) : Work :=
  w.upd (fun d => { d with hubSlots := d.hubSlots.filter (fun x => !(x.1 == node && x.2.tag == h.tag)) ++ [(node, h)] })
def Work.dropHubSlot (w : Work) (node tag : Nat) : Work :=
  w.upd (fun d => { d with hubSlots := d.hubSlots.filter (fun x => !(x.1 == node && x.2.tag == tag)) })

/-- A slot whose count is met: forwarded to the root by a die node, returned to the owner by the root (R134). -/
def Work.forward (w : Work) (node tag : Nat) : Work :=
  match w.dev.hubSlot? node tag with
  | none => w
  | some h =>
    if h.close ≠ some h.slabs then w
    else
      let w := (w.dropHubSlot node tag).count (chPage node) 1
      let m : TreeMsg := if node = 4 then .aggregate tag h.count h.body
        else .entry 4 { tag := tag, op := h.op, ctx := h.ctx, n := h.n, slabs := h.slabs, count := h.count, body := h.body, abort := false }
      w.upd (fun d => { d with tree := d.tree ++ [m] })

/-- An aborted tag counts the slabs that reach it, and is freed when they are all there (R142). Log 106, DEDUCED: a tag whose hub was aborted (R129, R142). -/
def Work.drainTag (w : Work) (tag slabs : Nat) : Work :=
  (w.upd (fun d => { d with
    abortedTags := d.abortedTags.map (fun x => if x.1 = tag then (x.1, x.2.1 + slabs, x.2.2) else x) })).freeDrained

/-- The header of a merge entry (R136). -/
def MergeEntry.header (e : MergeEntry) : List Byte :=
  let op := match e.op with
    | .mean => 2
    | .max => 3
    | .wsum => 4
    | _ => 1
  mergeHeader e.tag op false e.body.isNone e.ctx e.n Fmt.fp32.code e.slabs e.count 0 (poisonMap (encodeRow .fp32 (e.body.getD [])))

/-- A hub slot that holds nothing. -/
def emptySlot (tag : Nat) : HubSlot := ⟨tag, .sum, 0, 0, 0, 0, none, none, 0⟩

/-- Merge two bodies; a VOID one adds nothing. Poison covers whole granules of a body, so that marks are ORed granule by granule (R137). -/
def mergeBodies (r : Reduce) (a b : Option (List Elem)) : Option (List Elem) :=
  match a, b with
  | some x, some y => some (mergeRows r x y)
  | some x, none => some x
  | none, y => y

def hubEntryMergeWork (node : Nat) (w : Work) : Work :=
  let isE (m : TreeMsg) : Bool := match m with
    | .entry n _ => n == node
    | _ => false
  match w.dev.tree.find? isE with
  | some (.entry _ e) =>
    let w := w.upd (fun d => { d with tree := takeMsg isE d.tree })
    let pg := chPage node
    let w := (w.count pg 0).count pg 5 (b2n e.body.isNone)
    let w := w.count pg 4 (ceilDiv ((e.body.map (fun l => l.length * 4)).getD 0) 256)
    if w.dev.abortedTags.any (fun x => x.1 == e.tag) then w.drainTag e.tag e.slabs
    else
      let h := (w.dev.hubSlot? node e.tag).getD (emptySlot e.tag)
      let h : HubSlot := { h with
        op := e.op, ctx := e.ctx, n := e.n,
        slabs := h.slabs + e.slabs, count := h.count + e.count, body := mergeBodies e.op h.body e.body }
      (w.setHubSlot node h).forward node e.tag
  | _ => w

/-- HUB_ENTRY_MERGE (R134, R137, R142). -/
def execHubEntryMerge (node : Nat) (s : State) : Host.Outcome State Fault Refusal := s.run (hubEntryMergeWork node)

def closeArriveWork (node : Nat) (w : Work) : Work :=
  let isC (m : TreeMsg) : Bool := match m with
    | .close n _ _ _ => n == node
    | _ => false
  match w.dev.tree.find? isC with
  | some (.close _ tag count mask) =>
    let w := w.upd (fun d => { d with tree := takeMsg isC d.tree })
    if w.dev.abortedTags.any (fun x => x.1 == tag) then w.freeDrained
    else if count = 0 ∨ !w.dev.hubs.any (fun h => h.tag == some tag) then w
    else
      let h := (w.dev.hubSlot? node tag).getD (emptySlot tag)
      (w.setHubSlot node { h with close := some count, mask := mask }).forward node tag
  | _ => w

/-- CLOSE_ARRIVE (R134). -/
def execCloseArrive (node : Nat) (s : State) : Host.Outcome State Fault Refusal := s.run (closeArriveWork node)

/-- The aggregate lands at its owner, whose tag is free again. -/
def aggregateArriveWork (w : Work) : Work :=
  let isA (m : TreeMsg) : Bool := match m with
    | .aggregate _ _ _ => true
    | _ => false
  match w.dev.tree.find? isA with
  | some (.aggregate tag count body) =>
    let w := w.upd (fun d => { d with tree := takeMsg isA d.tree })
    match w.dev.hubs.find? (fun h => h.tag == some tag) with
    | none => w
    | some h =>
      let w := w.upd (fun d => { d with hubs := d.hubs.filter (fun x => !(x.iid == h.iid && x.seg == h.seg)) })
      (w.setInst h.iid (fun i => { i with hubDone := i.hubDone ++ [(h.seg, body, count)] })).askTag h.iid
  | _ => w

/-- AGGREGATE_ARRIVE (R134, R139). -/
def execAggregateArrive (s : State) : Host.Outcome State Fault Refusal := s.run aggregateArriveWork

/-! ### Hub multicast (R144 to R149) -/

def Dev.stream? (d : Dev) (c : Nat) : Option McStream := d.streams.find? (fun m => m.cluster == c)
def Work.setStream (w : Work) (c : Nat) (f : McStream → McStream) : Work :=
  w.upd (fun d => { d with streams := updFirst (fun m => m.cluster == c) f d.streams })

/-- The stream descriptor's fields. -/
structure StreamDesc where
  detach : Bool
  id : Nat
  rows : Nat
  ids : Nat
  off : Nat
  credits : Nat
  remote : Bool
  group : Nat
  timeoutUs : Nat
  deriving DecidableEq, Repr
def Task.stream (t : Task) : StreamDesc :=
  let b := t.fmt fmtStream
  ⟨byteAt b 1 == 1, bytesAt b 2 2, bytesAt b 4 4, bytesAt b 16 8, bytesAt b 24 4, bytesAt b 28 2, byteAt b 30 % 2 == 1,
   bytesAt b 32 2, bytesAt b 34 2⟩

/-- Device IDs of a group's members. -/
def Dev.groupDevices (d : Dev) (g : Nat) : List Nat :=
  ((d.exch.members.find? (fun m => m.group == g)).map (fun m => m.entries.map (fun e => fld e 11 0))).getD []

/-- Receivers of a stream (R146). -/
def Work.receivers (w : Work) (p : Pitch) (s : StreamDesc) : List McRecv :=
  p.clusters.map (fun c => ⟨false, c, 0, 0, false⟩)
    ++ (if s.remote then (w.dev.groupDevices s.group).filterMap (fun x => if x = w.self then none else some ⟨true, x, 0, 0, false⟩) else [])

/-- The COPY instance whose stream the Wholesale unit sends next: the longest resident that waits (R144). -/
def Work.streamSender (w : Work) (c : Nat) : Option (Inst × Task × Pitch) :=
  let ok (i : Inst) : Option (Inst × Task × Pitch) :=
    match i.task? w.dev with
    | some t =>
      if t.kind = some .copy ∧ t.f 72 1 = 1 ∧ i.started ∧ i.stopOrdered = false ∧ i.ended = false then
        (w.pitchOfTask i.gid t).map (fun p => (i, t, p))
      else none
    | none => none
  (w.dev.slotted c).foldl (fun b i => match ok i, b with
    | some x, some y => if x.1.tookAt < y.1.tookAt then some x else some y
    | some x, none => some x
    | none, b => b) none

/-- Credits let the next row out (R147). -/
def McStream.maySend (m : McStream) (credits : Nat) : Bool :=
  m.recvs.all (fun r => r.detached || decide (m.sent < r.credited + credits))

/-- The stream is over: ended, with every row landed in every receiver still attached; or stopped, with every row whose read had been
issued sent and landed in the slices of this device (R148, R267). -/
def Dev.streamOver (d : Dev) (m : McStream) : Bool :=
  if m.stopped then
    m.staged.isEmpty && !d.fetches.any (fun f => f.iid == m.iid && f.dest.porter)
      && m.recvs.all (fun r => r.remote || r.detached || decide (m.rows.length ≤ r.landed))
  else m.ended && m.recvs.all (fun r => r.detached || decide (m.sent ≤ r.credited))

/-- Drop a stream that is over. -/
def Work.sweepStream (w : Work) (c : Nat) : Work := w.upd (fun d => { d with streams := d.streams.filter (fun m => !(m.cluster == c && d.streamOver m)) })

/-- Send a row to the remote receivers in packets of 256 bytes (R384), S bytes in all, from which a receiver knows S (log 112, DEDUCED).
A receiver behind a port without MCAST is detached (R371, R149); one that cannot be reached fails the task (R373; log 122, DEDUCED). -/
def Work.relayRow (w : Work) (m : McStream) (s : StreamDesc) (row : Nat) (l : List PByte) : Work :=
  let gid := w.grpId s.group
  let l := l ++ List.replicate (m.slotBytes - l.length) (0, false)
  w.each (m.recvs.filter (fun r => r.remote && !r.detached)) (fun r w =>
    match w.reach r.who (some featMcast) with
    | .error 3 =>
      (w.setStream m.cluster (fun m => { m with
        recvs := updAll (fun x => x.remote && x.who == r.who) (fun x => { x with detached := true }) m.recvs })).count ⟨.wh, m.cluster⟩ 8
    | .error n => w.failTask m.gid m.ti pgEx .linkLost gid (leBytes 1 n)
    | .ok p =>
      (w.count pgEx 1 l.length).each ((chunksOf 256 l).zipIdx) (fun (ch, k) w =>
        let (pw, w) := w.nextPw p r.who
        let map := bitsToNat ((chunksOf 64 ch).map (fun g => g.any (·.2)))
        w.sendPacket p (mkPacket 7 map m.ctx r.who w.self (leBytes 2 s.id ++ leBytes 2 gid ++ leBytes 2 (w.grpGen s.group))
          (some (leBytes 4 row ++ leBytes 4 s.off ++ leBytes 4 pw ++ leBytes 2 k)) (ch.map (·.1)))))

/-- The Porter reads the next row of a stream: its row number, and then the row, which is on its way to the reservation (R145, R274). -/
def Work.readStreamRow (w : Work) (i : Inst) (t : Task) (m : McStream) : Work :=
  let c := i.cluster
  let pg : Page := ⟨.pt, c⟩
  let s := t.stream
  let rd := i.reader w.dev
  let T := tableOf (t.fmt fmtTable)
  let va := s.ids + 4 * m.read
  let first := decide (m.read = 0)
  match (if first then w.readVa m.ctx va 4 rd else w.readLater m.ctx va 4 rd) with
  | (.error e, w) => w.failInst i pg .xlate (leBytes 8 e)
  | (.ok b, w) =>
    let w := ((w.count pg 1 (portCharge first va 4)).count pg 3 (w.hostBytes m.ctx va 4 false rd)).poisonRead i.gid (poisonGranules va b)
    let row := pbNat b 0 4
    if b.any (·.2) ∨ T.rows ≤ row then w.failInst i pg .gatherRange (leBytes 8 va)
    else
      let a := T.rowVa row
      match w.readVa m.ctx a T.rowBytes rd with
      | (.error e, w) => w.failInst i pg .xlate (leBytes 8 e)
      | (.ok l, w) =>
        let w := (w.count pg 1 (chargedBytes [(a, T.rowBytes)])).count pg 3 (w.hostBytes m.ctx a T.rowBytes false rd)
        (w.addFetch i 2 (.mcast m.read) false [(a, T.rowBytes)] [(a, T.rowBytes)] l none).setStream c (fun m => { m with read := m.read + 1 })

/-- A row that has been read goes out; the instance ends with its last. -/
def Work.sendRow (w : Work) (m : McStream) (t? : Option Task) (row : Nat) (l : List PByte) : Work :=
  let c := m.cluster
  let w := match t? with
    | some t => w.relayRow m t.stream row l
    | none => w
  let w := w.count ⟨.wh, c⟩ 6
  let last : Bool := (t?.map (fun t => decide (row + 1 = t.stream.rows))).getD false && !m.stopped
  let w := w.setStream c (fun m => { m with
    sent := row + 1, staged := m.staged.filter (fun x => x.1 != row), rows := m.rows ++ [(row, l)], waitAt := w.dev.beat, ended := last })
  let w := w.setInst m.iid (fun i => { i with pos := row + 1 })
  if last then w.endInst m.iid else w

/-- What the stream does next: its next row that has been read goes out when credits allow, or the next one is read. Of a stopped stream
the rows whose reads had been issued still go out (R267). -/
def Work.streamNext (w : Work) (m : McStream) : Work :=
  let t? := w.dev.task? m.gid m.ti
  let next := if m.stopped then m.staged.foldl (fun (b : Option (Nat × List PByte)) x => match b with
      | none => some x
      | some y => if x.1 < y.1 then some x else some y) none
    else m.staged.find? (fun x => x.1 == m.sent)
  match next with
  | some (row, l) =>
    if m.stopped || (t?.map (fun t => m.maySend t.stream.credits)).getD false then w.sendRow m t? row l else w
  | none =>
    match w.dev.inst? m.iid, t? with
    | some i, some t =>
      let n := (tableOf (t.fmt fmtTable)).rowBytes
      let used := w.dev.porterBytes m.iid + m.staged.foldl (fun a x => a + x.2.length) 0
      if m.stopped ∨ i.stopOrdered ∨ t.stream.rows ≤ m.read ∨ 2048 ≤ w.dev.tags m.cluster ∨ (used ≠ 0 ∧ t.landing * 1024 < used + n) then w
      else w.readStreamRow i t m
    | _, _ => w

def mcastRowSendWork (c : Nat) (w : Work) : Work :=
  if w.pageOn ⟨.wh, c⟩ = false ∨ w.pageOn ⟨.pt, c⟩ = false then w
  else
    let w := w.sweepStream c
    match w.dev.stream? c with
    | some m => w.streamNext m
    | none =>
      match w.streamSender c with
      | none => w
      | some (i, t, p) =>
        let s := t.stream
        let w := w.passTo (w.dev.wokenAt i.iid)
        let m : McStream := { iid := i.iid, gid := i.gid, ti := i.ti, cluster := c, sent := 0, ctx := w.dev.ctxOf i.gid, off := s.off,
                              slotBytes := (tableOf (t.fmt fmtTable)).slot, read := 0, staged := [], waitAt := w.dev.beat,
                              recvs := w.receivers p s, rows := [], ended := false, stopped := false }
        (w.upd (fun d => { d with streams := d.streams ++ [m] })).streamNext m

/-- MCAST_ROW_SEND (R147). -/
def execMcastRowSend (cluster : Nat) (s : State) : Host.Outcome State Fault Refusal := s.run (fun w => mcastRowSendWork cluster (w.stepBeat cluster))

/-- The next row lands whole in a receiving slice and is credited; a stopped stream's rows on their way land all the same, and are Shelf
fills once every slice has them (R267, R278). -/
def mcastRowReceiveWork (c receiver : Nat) (w : Work) : Work :=
  match w.dev.stream? c with
  | none => w
  | some m =>
    match m.recvs.find? (fun r => !r.remote && r.who == receiver && !r.detached) with
    | none => w
    | some r =>
      match m.rows[r.landed]? with
      | none => w
      | some (row, l) =>
        let a := slicePhys receiver (m.off + row * m.slotBytes)
        let w := (w.writePhys a l).count ⟨.wh, receiver⟩ 7
        let w := (w.count ⟨.pt, c⟩ 2 (chargedBytes [(a, l.length)])).poisonWrote m.gid (poisonGranules a l)
        let gain (x : McRecv) : McRecv := { x with landed := x.landed + 1, credited := row + 1 }
        let w := w.setStream c (fun m => { m with recvs := updFirst (fun x => !x.remote && x.who == receiver) gain m.recvs })
        let all : Bool := m.recvs.all (fun x => x.remote || x.detached || x.who == receiver || decide (r.landed < x.landed))
        (w.count ⟨.pt, c⟩ 4 (b2n (m.stopped && all))).sweepStream c

/-- MCAST_ROW_RECEIVE (R146, R147). -/
def execMcastRowReceive (cluster receiver : Nat) (s : State) : Host.Outcome State Fault Refusal :=
  s.run (mcastRowReceiveWork cluster receiver)

/-- A receiver in error records (R146). -/
def McRecv.code (r : McRecv) : Nat := if r.remote then 2 ^ 31 + r.who else r.who

/-- The attached receivers whose credit keeps the sender waiting: for its next row, or for its last (R147). -/
def McStream.lagging (m : McStream) (credits : Nat) : List McRecv :=
  m.recvs.filter (fun r => !r.detached && (if m.ended then decide (r.credited < m.sent) else decide (r.credited + credits ≤ m.sent)))

/-- The stream of a cluster that waits on credits under a policy, its task, and the receivers it waits on, the one furthest behind
first. -/
def Work.mcWaiting (w : Work) (c : Nat) (detach : Bool) : Option (McStream × Task × McRecv × List McRecv) :=
  match w.dev.stream? c with
  | none => none
  | some m =>
    match w.dev.task? m.gid m.ti with
    | none => none
    | some t =>
      let l := m.lagging t.stream.credits
      if t.stream.detach ≠ detach ∨ m.stopped then none
      else (l.foldl (fun (b : Option McRecv) r => match b with
        | none => some r
        | some x => if r.credited < x.credited then some r else some x) none).map (fun r => (m, t, r, l))

/-- Log 84, DEDUCED: multicast (R144 to R149, R384). -/
def mcastTimeoutWork (c : Nat) (w : Work) : Work :=
  match w.mcWaiting c false with
  | none => w
  | some (m, t, r, _) =>
    let s := t.stream
    let w := w.passTo (m.waitAt + s.timeoutUs * 250)
    if t.state.live then
      let w := w.raise ⟨.wh, c⟩ .mcastTimeout ⟨2, some m.ctx, s.id, r.code, []⟩
      let w := w.setStream c (fun m => { m with stopped := true })
      (w.failOnly m.gid m.ti Err.mcastTimeout.code).sweepStream c
    else w

/-- MCAST_TIMEOUT (R148). -/
def execMcastTimeout (cluster : Nat) (s : State) : Host.Outcome State Fault Refusal := s.run (mcastTimeoutWork cluster)

/-- Every receiver that has kept the sender waiting is removed. A remote one raises its error in its own EX page, which is another
device's (log 113, DEDUCED). -/
def mcastDetachWork (c : Nat) (w : Work) : Work :=
  match w.mcWaiting c true with
  | none => w
  | some (m, t, _, l) =>
    let s := t.stream
    let w := w.passTo (m.waitAt + s.timeoutUs * 250)
    let w := w.each (l.filter (fun r => !r.remote)) (fun r w =>
      w.raise ⟨.wh, r.who⟩ .mcastMissed ⟨1, some m.ctx, s.id, r.code, leBytes 4 r.credited ++ leBytes 4 (s.rows - 1)⟩)
    let w := w.setStream c (fun m => { m with
      waitAt := w.dev.beat,
      recvs := m.recvs.map (fun x => if l.any (fun r => r.remote == x.remote && r.who == x.who) then { x with detached := true } else x) })
    (w.count ⟨.wh, c⟩ 8 l.length).sweepStream c

/-- MCAST_DETACH (R149). -/
def execMcastDetach (cluster : Nat) (s : State) : Host.Outcome State Fault Refusal := s.run (mcastDetachWork cluster)

end Sys2Proof.Machine
end

