-- ==== Sys2Proof/Machine/Arrive.lean ====
section
/-! DEFINITION. The arrival of a fetch, of whichever unit (R257, R264, R265, R267, R268): it lands where it was to go, or is dropped by its
generation. -/

namespace Sys2Proof.Machine

/-- Whom a fetch's errors name. -/
def Dev.fetchReader (d : Dev) (f : Fetch) : Reader := ⟨some f.ctx, d.codeOf f.gid f.ti, f.cluster⟩

/-- A row that is written whole to its Shelf slices whatever the generation (R267). -/
def Work.shelfFill (w : Work) (f : Fetch) : Bool :=
  match f.dest with
  | .copy _ _ va _ _ => w.inSlice f.ctx va (w.dev.fetchReader f)
  | .mcast _ => true
  | _ => false

/-- A Porter row that its instance may not write under STOP: its poisoned granule (R269, R274). -/
def Work.rowStop (w : Work) (f : Fetch) (l : List PByte) : Option Nat :=
  match w.dev.inst? f.iid with
  | some i => if i.stopPolicy ∧ l.any (·.2) then some (firstPoison ((f.pieces.headD (0, 0)).1) l) else none
  | none => none

/-- A COPY row, or a piece of one, has come: it is written at its destination (R273, R274). -/
def Work.landCopy (w : Work) (f : Fetch) (stale : Bool) (desc va : Nat) (first last : Bool) (l : List PByte) : Work :=
  match w.rowStop f l with
  | some a => w.failTask f.gid f.ti ⟨.pt, f.cluster⟩ .poisonStop f.cluster (leBytes 6 a)
  | none =>
    let w := w.copyWrite f.cluster f.gid f.ti f.ctx va l first last (w.dev.fetchReader f)
    (w.count ⟨.pt, f.cluster⟩ 4 (b2n (stale && last))).copyDone f.iid desc

/-- A row of a multicast stream has come: it waits in the reservation to be sent (R147, R274). -/
def Work.landStream (w : Work) (f : Fetch) (row : Nat) (l : List PByte) : Work :=
  match w.rowStop f l with
  | some a => (w.failTask f.gid f.ti ⟨.pt, f.cluster⟩ .poisonStop f.cluster (leBytes 6 a)).sweepStream f.cluster
  | none => w.setStream f.cluster (fun m => if m.iid = f.iid then { m with staged := m.staged ++ [(row, l)] } else m)

/-- A fetch arrives: dropped when stale, unless it is a Shelf fill; landed with its poison marks otherwise, and checked by the Hawker. An
answer from another device comes by a RESP packet and not by this command. -/
def fetchArriveWork (id : Nat) (es : List CellError) (w : Work) : Work :=
  match w.dev.fetches.find? (fun f => f.id == id) with
  | none => w
  | some f =>
    if f.remote.isSome then w
    else
      let rd := w.dev.fetchReader f
      let stale := w.stale f
      let fill := w.shelfFill f
      let w := w.dropFetch id
      if stale && !fill then w.countStale f f.bytes
      else
        let topo := ((f.dest.unit?).map (fun u => topoStream u.1)).getD false
        let wide := if topo then f.pieces.map widen else f.pieces
        let (l, w) := if f.cached then (f.copy, w) else w.arrived f.ctx f.phys wide f.copy es rd
        let n := ((granulesOf wide).filter (fun (_, len, off) => ((l.drop off).take len).any (·.2))).length
        let w := (w.count ⟨.hk, f.cluster⟩ 7 (if stale then 0 else n)).poisonRead f.gid n
        let w := w.whenB (topo && !f.cached) (fun w => w.tcFill f.cluster f.ctx wide l rd)
        let l := if topo then cutPieces f.pieces l else l
        match f.dest with
        | .row ref => w.landRow f.iid ref l
        | .stream s item part total =>
          match w.dev.inst? f.iid, w.dev.task? f.gid f.ti with
          | some i, some t => w.landUnit i t f s item part total l
          | _, _ => w
        | .copy desc _ va first last => w.landCopy f stale desc va first last l
        | .mcast row => w.landStream f row l

/-- FETCH_ARRIVE (R265). -/
def execFetchArrive (id : Nat) (errors : List CellError) (s : State) : Host.Outcome State Fault Refusal :=
  s.run (fetchArriveWork id errors)

end Sys2Proof.Machine
end

