-- ==== Sys2Proof/Machine/Crier.lean ====
section
/-! DEFINITION. The Crier's time base, periodic events, sources and steering (R314 to R327), and the output pulses of R478. -/

namespace Sys2Proof.Machine

def Work.crier (w : Work) (f : Crier → Crier) : Work := w.upd (fun d => { d with crier := f d.crier })

/-! ### Output pulses (R478) -/

/-- Drive a pulse of 100 ns on an output (0 EPOCH_OUT, 1 to 4 TRIG_OUT); one that is still high is extended. -/
def Work.pulse (w : Work) (pin : Nat) : Work :=
  (w.upd (fun d => { d with power := { d.power with outUntil := updAt (fun _ => d.time + 100) pin d.power.outUntil } })).say (.pulse pin)

/-- Pulses of the TRIG_OUT outputs whose SOURCE is `src`. -/
def Work.pulseSource (w : Work) (src : Nat) : Work :=
  w.each (List.range 4) (fun k w => w.whenB (w.rf pgPm .pmTrigOut 2 0 k == src) (fun w => w.pulse (k + 1)))

/-! ### TIME_UNLOCKED (R321, R322, R324) -/

def Work.source (w : Work) : Nat := w.rf pgCr .crCfg 1 0
def Work.unlocked (w : Work) : Bool := w.rb pgCr .crStatus 28
def Work.timeValid (w : Work) : Bool := w.rb pgCr .crStatus 31

/-- TIME_UNLOCKED becomes set: ERR_TIME_UNLOCKED is raised once, with a port in detail byte 24 where one is concerned. Never
under SOURCE FREE (R318). -/
def Work.setUnlocked (w : Work) (port : Option Nat) : Work :=
  if w.unlocked ∨ w.source = 0 then w
  else
    (w.setRf pgCr .crStatus 28 28 1).raise pgCr .timeUnlocked
      ⟨1, none, 0xFFFFFFFF, 0xFFFFFFFF, match port with
        | some p => leBytes 1 p
        | none => []⟩

/-- Mean of the upstream offsets, rounded toward zero (R323). -/
def meanOf (l : List Int) : Int := if l = [] then 0 else (l.foldl (fun a b => a + b) 0).tdiv l.length

/-- Clear TIME_UNLOCKED where the conditions of the source hold (R321, R324); never after RACK_REF was lost (R322). -/
def Work.tryLock (w : Work) : Work :=
  let c := w.dev.crier
  let up := w.rf pgCr .crCfg 11 8
  let others := c.disagree.filter (fun p => p != up)
  let ok : Bool :=
    if w.source = 1 then decide (2 ≤ c.goodRun) && c.disagree.isEmpty
    else if w.source = 2 then
      (match c.upMean with
        | some m => decide (m.natAbs ≤ 8)
        | none => false) && !c.upUnlocked && others.isEmpty && w.timeValid
    else true
  w.whenB (w.unlocked && !c.refLost && ok) (fun w => w.setRf pgCr .crStatus 28 28 0)

/-- A step of one beat (R320, R323): forward gains 4 ticks, backward holds the next beat. -/
def Work.steer (w : Work) (forward : Bool) : Work :=
  let w := if forward then w.upd (fun d => { d with time := d.time + 4 }) else w.crier (fun c => { c with hold := true })
  w.count pgCr 5

/-- Load the time base: VALID, the history and the phase of the periodic events (R315, R319). -/
def Work.loadTime (w : Work) (t : Nat) : Work :=
  let p := w.dev.crier.period
  let w := w.upd (fun d => { d with time := t, crier := { d.crier with
    armed := false, history := [], upMean := none, loadEdge := none, nextTick := (t / 1000 + 1) * 1000, lastWatch := t,
    nextEpoch := (t / d.crier.epochLen + 1) * d.crier.epochLen, expected := (t / p + 1) * p } })
  (w.setRf pgCr .crStatus 31 31 1).setRf pgCr .crLoadCtl 31 31 0

/-! ### Periodic events (R315) -/

/-- The next 1 µs tick is issued. -/
def crierTickWork (w : Work) : Work :=
  if w.dev.counting then
    let w := w.passToTime w.dev.crier.nextTick
    w.crier (fun c => { c with tickNo := c.tickNo + 1, nextTick := c.nextTick + 1000 })
  else w

/-- CRIER_TICK (R315). -/
def execCrierTick (s : State) : Host.Outcome State Fault Refusal := s.run crierTickWork

/-- The epoch period of the register is in effect from an expected time on, which follows `t` (R320). -/
def Work.expectAfter (w : Work) (t : Nat) : Work :=
  let p := w.rf pgCr .crEpochPeriod 23 0 * 1000
  w.crier (fun c => { c with period := p, expected := (t / p + 1) * p })

/-- With no edges to judge, an expected time is served as it passes, and CR_EPOCH_PERIOD takes effect there (R320, R326). -/
def Work.freeExpected (w : Work) : Work :=
  if w.source = 1 ∨ w.dev.time ≤ w.dev.crier.expected then w else w.expectAfter (w.dev.time - 1)

/-- EPOCH_OUT is driven on the next beat whose time is a multiple of the epoch period (R326). -/
def epochOutWork (w : Work) : Work :=
  if w.dev.counting ∧ w.rb pgCr .crCfg 4 then
    let w := w.freeExpected
    let p := w.dev.crier.period
    (w.passToTime (ceilDiv w.dev.time p * p)).pulse 0
  else w

/-- EPOCH_OUT_PULSE (R326, R478). -/
def execEpochOutPulse (s : State) : Host.Outcome State Fault Refusal := s.run epochOutWork

/-! ### Loads (R319) -/

/-- Writing CR_LOAD_CTL.ARM arms a load. -/
def Work.armLoad (w : Work) : Work :=
  (w.crier (fun c => { c with armed := true, loadEdge := none })).setRf pgCr .crLoadCtl 31 31 1

/-- CR_LOAD. -/
def Work.loadValue (w : Work) : Nat := (w.reg pgCr .crLoadLo).toNat + (w.reg pgCr .crLoadHi).toNat * 2 ^ 32

/-- The armed load happens: under FREE on the next beat; under RACK on the first beat at or after the edge plus COMP_NS. Under
LINK the next exchange loads (R323). -/
def timeLoadWork (w : Work) : Work :=
  if w.dev.crier.armed ∧ w.dev.counting then
    if w.source = 0 then (w.pass 1).loadTime w.loadValue
    else if w.source = 1 then
      match w.dev.crier.loadEdge with
      | some e => (w.passToTime (roundUp (e + w.rf pgCr .crLock 23 16) 4)).loadTime w.loadValue
      | none => w
    else w
  else w

/-- TIME_LOAD (R319). -/
def execTimeLoad (s : State) : Host.Outcome State Fault Refusal := s.run timeLoadWork

/-! ### Epoch pulses (R320, R321) -/

/-- Signed value saturated at 16 bits, as a field. -/
def sat16 (x : Int) : Nat := if x < 0 then (65536 - min x.natAbs 32767) % 65536 else min x.natAbs 32767

/-- The expected time served or missed gives way to the next; CR_EPOCH_PERIOD takes effect there (R320). -/
def Work.nextExpected (w : Work) (served : Nat) : Work := w.expectAfter (max w.dev.crier.expected served)

/-- Judge an accepted EPOCH_IN edge at a tick of the time base. Log 62, DEDUCED: an edge in holdover (R320, R321). -/
def epochEdgeWork (tick : Nat) (w : Work) : Work :=
  let c := w.dev.crier
  let accepted := ((w.dev.power.inputs.getD 0 .reset).lastEdge == some tick) && c.judged != some tick
  if w.source = 1 ∧ accepted ∧ w.dev.counting then
    let w := w.crier (fun c => { c with judged := some tick })
    if c.armed then w.crier (fun c => { c with loadEdge := some tick })
    else
      let p := c.period
      let at_ := tick + w.rf pgCr .crLock 23 16
      let k := (2 * at_ + p) / (2 * p) * p
      let offset : Int := (at_ : Int) - k
      if (w.rf pgCr .crLock 31 24 : Int) < offset.natAbs then w.count pgCr 6
      else
        let w := w.setRf pgCr .crStatus 15 0 (sat16 offset)
        let w := w.whenB (decide (4 ≤ offset.natAbs)) (fun w => w.steer (decide (offset < 0)))
        let w := w.crier (fun c => { c with goodRun := c.goodRun + 1, missedRun := 0 })
        let w := w.setRf pgCr .crStatus 27 24 0
        let w := w.setRf pgCr .crStatus 29 29 0
        let w := w.whenB (decide (c.expected ≤ k)) (fun w => w.nextExpected k)
        w.tryLock
  else w

/-- EPOCH_EDGE (R320, R321). -/
def execEpochEdge (tick : Nat) (s : State) : Host.Outcome State Fault Refusal := s.run (epochEdgeWork tick)

/-- The expected epoch passes its window with no good edge. -/
def epochMissedWork (w : Work) : Work :=
  if w.source = 1 ∧ w.dev.counting then
    let w := w.passToTime (w.dev.crier.expected + w.rf pgCr .crLock 31 24)
    let n := w.dev.crier.missedRun + 1
    let w := w.crier (fun c => { c with missedRun := n, goodRun := 0 })
    let w := w.setRf pgCr .crStatus 27 24 (min n 15)
    let w := w.setRf pgCr .crStatus 29 29 1
    let w := w.count pgCr 7
    let w := w.whenB (decide (n = 1)) (fun w => w.raise pgCr .epochMissed ⟨1, none, codeNone, codeNone, []⟩)
    let w := w.whenB (decide (2 ≤ n)) (fun w => w.setRf pgCr .crStatus 28 28 1)
    let w := w.whenB (decide (n = 2)) (fun w => w.raise pgCr .timeUnlocked ⟨1, none, codeNone, codeNone, []⟩)
    w.nextExpected 0
  else w

/-- EPOCH_MISSED (R321). -/
def execEpochMissed (s : State) : Host.Outcome State Fault Refusal := s.run epochMissedWork

/-- RACK_REF fails: REF_LOCK clears, TIME_UNLOCKED is set until the next reset, ERR_REFCLK_LOST is raised (R322). Log 61, DEDUCED: losing the reference (R318, R322). -/
def refclkLostWork (w : Work) : Work :=
  if w.dev.crier.refLost then w
  else
    let w := w.crier (fun c => { c with refLost := true })
    let w := w.setRf pgCr .crStatus 30 30 0
    let w := w.setRf pgCr .crStatus 28 28 1
    w.raise pgCr .refclkLost ⟨1, none, codeNone, codeNone, []⟩

/-- REFCLK_LOST (R322). -/
def execRefclkLost (s : State) : Host.Outcome State Fault Refusal := s.run refclkLostWork

/-! ### Time transfer (R316, R323, R324) -/

/-- Difference of two 40-bit timestamps (R316). -/
def d40 (a b : Nat) : Int :=
  let d : Nat := (a % 2 ^ 40 + 2 ^ 40 - b % 2 ^ 40) % 2 ^ 40
  if d < 2 ^ 39 then (d : Int) else (d : Int) - 2 ^ 40

/-- Offset of R323, in ns, rounded toward zero. -/
def xferOffset (t1 t2 t3 t4 : Nat) : Int := (d40 t2 t1 - d40 t4 t3).tdiv 2

/-- Every PERIOD_BEATS each trained port sends a TIME exchange, with its own TIME_UNLOCKED. -/
def timeXferWork (w : Work) : Work :=
  let w := w.passTo (w.dev.crier.lastXfer + w.rf pgCr .crXfer 15 0)
  let w := w.crier (fun c => { c with lastXfer := w.dev.beat })
  w.each (List.range 16) (fun p w =>
    if w.portUp p ∧ (w.port p).keepsTime then
      let w := w.crier (fun c => { c with echo := put 0 p (w.dev.time % 2 ^ 40 + 1) c.echo })
      w.sendTime p false 0 0
    else w)

/-- TIME_XFER_SEND (R323, R324). -/
def execTimeXferSend (s : State) : Host.Outcome State Fault Refusal := s.run timeXferWork

end Sys2Proof.Machine
end

