-- ==== Sys2Proof/Machine/Power.lean ====
section
/-! DEFINITION. The power manager: power states, VIN, coolant and temperature limits, trips, capping and the conditioned inputs
(R459 to R478). -/

namespace Sys2Proof.Machine

def Work.power (w : Work) (f : Power → Power) : Work := w.upd (fun d => { d with power := f d.power })

/-- Everything the compute dies, memories and links held is lost: memory, tasks and what they had in flight, cluster state,
collectives and port states (R437, R466). -/
def Work.loseDies (w : Work) : Work :=
  let w := w.upd (fun d => { d with
    graphs := [], admissions := [], refusals := [], insts := [], lastGraph := [], save := none, clusters := [], fetches := [],
    hubs := [], tree := [], hubSlots := [], abortedTags := [], scat := [], bumps := [], streams := [], migs := [],
    due := d.due.filter (fun x => match x.kind with
      | .slotted _ => true
      | _ => false),
    sync := { d.sync with waits := d.sync.waits.filter (fun x => match x.who with
        | .slot _ => true
        | .task _ _ => false), parked := [], adds := [], cellWaits := [] },
    exch := { d.exch with colls := [], early := [] },
    ports := (d.ports.take 16).map (fun p => if p.state == .down then p else
      { Port.reset with state := .lost, links := p.links.map (fun l => { l with state := if l.state == .miswired then .miswired else .failed }) })
      ++ [.loopback],
    crier := { d.crier with ballasts := [] },
    power := { d.power with thermSkip := [0, 0, 0, 0], capSkip := 0, drawn := [], overSince := none, lowSince := none, tripSince := none } })
  w.emit [.clear 0 (2 ^ 48)]

/-- R466: a trip takes the module from FULL to LOW-POWER and records its cause. -/
def Work.trip (w : Work) (cause unit : Nat) : Work :=
  if w.dev.power.state = .full then
    let w := w.power (fun p => { p with state := .low })
    let w := w.setRf pgPm .pmStat 31 31 1
    let w := w.setReg pgPm .pmTrip (atBit 1 31 ||| atBit (unit % 16) 8 ||| atBit cause 0)
    let w := w.loseDies
    w.raise pgPm .trip ⟨3, none, codeNone, codeNone, []⟩
  else w

/-- The module goes to OFF: all state outside flash is lost, PM_TRIP included (R461, R462, R466). -/
def Work.goOff (w : Work) : Work :=
  let d := w.dev
  let r := Dev.reset w.variant
  let w := w.loseDies
  let w := w.upd (fun _ => { r with
    beat := d.beat, free := d.free, nextId := d.nextId, sent := d.sent, dimms := d.dimms, broken := d.broken,
    boot := { r.boot with
      startNo := d.boot.startNo, journal := d.boot.journal, flash := d.boot.flash, active := d.boot.active,
      floors := d.boot.floors, keyFloor := d.boot.keyFloor },
    power := { r.power with state := .off, modEn := d.power.modEn, modPg := false, perst := d.power.perst } })
  w.whenB d.power.modPg (fun w => w.say (.pin 0 false))

/-! ### MOD_EN, VIN and MOD_PG (R460 to R462) -/

def modEnAssertWork (w : Work) : Work :=
  if w.dev.power.modEn then w else w.power (fun p => { p with modEn := true, enAt := w.dev.beat })

/-- MOD_EN_ASSERT (R460). -/
def execModEnAssert (s : State) : Host.Outcome State Fault Refusal := s.run modEnAssertWork

/-- After 20 ms of MOD_EN with VIN in range, OFF becomes LOW-POWER. -/
def lowpowerEntryWork (w : Work) : Work :=
  if w.dev.power.state = .off ∧ w.dev.power.modEn then
    let w := w.passTo (w.dev.power.enAt + 5000000)
    w.power (fun p => { p with state := .low, lowAt := w.dev.beat })
  else w

/-- LOWPOWER_ENTRY (R460). -/
def execLowpowerEntry (s : State) : Host.Outcome State Fault Refusal := s.run lowpowerEntryWork

def modEnDeassertWork (w : Work) : Work := (w.power (fun p => { p with modEn := false })).goOff

/-- MOD_EN_DEASSERT (R461). -/
def execModEnDeassert (s : State) : Host.Outcome State Fault Refusal := s.run modEnDeassertWork

/-- VIN in units of 10 mV: above 70.0 V for 10 µs, a trip (R462). -/
def vinHighWork (vin : Nat) (w : Work) : Work :=
  let w := w.setRf pgPm .pmVin 31 16 vin
  w.whenB (decide (7000 < vin)) (fun w => w.trip 6 0)

/-- VIN_HIGH (R462). -/
def execVinHigh (vin : Nat) (s : State) : Host.Outcome State Fault Refusal := s.run (vinHighWork vin)

/-- 48.0 to 56.0 V for 10 µs, a trip (R462). -/
def vinLowWork (vin : Nat) (w : Work) : Work :=
  let w := w.setRf pgPm .pmVin 31 16 vin
  w.whenB (decide (4800 ≤ vin) && decide (vin < 5600)) (fun w => w.trip 7 0)

/-- VIN_LOW (R462). -/
def execVinLow (vin : Nat) (s : State) : Host.Outcome State Fault Refusal := s.run (vinLowWork vin)

/-- VIN below 48.0 V: OFF; MOD_EN keeps its level (R460, R462). -/
def vinOffWork (w : Work) : Work := w.goOff

/-- VIN_OFF (R462). -/
def execVinOff (s : State) : Host.Outcome State Fault Refusal := s.run vinOffWork

/-! ### Coolant (R464) -/

/-- One reading of the flow sensor, in units of 0.01 L/min. -/
def flowSampleWork (flow : Nat) (w : Work) : Work :=
  if w.dev.power.state = .off then w
  else
    let wasOk := w.rb pgPm .pmStat 29
    let w := w.setRf pgPm .pmFlow 15 0 (min flow 65535)
    let w := w.setRf pgPm .pmStat 29 29 (b2n (decide (240 ≤ flow)))
    let full : Bool := w.dev.power.state == .full
    let w := w.whenB (decide (240 ≤ flow) && !wasOk) (fun w => w.power (fun p => { p with rampAt := w.dev.beat }))
    w.power (fun p => { p with
      flowCap := full && decide (flow < 240)
      lowFlow := p.lowFlow && decide (flow < 300)
      lowSince := if full && decide (flow < 300) then some (p.lowSince.getD w.dev.beat) else none
      tripSince := if full && decide (flow < 240) then some (p.tripSince.getD w.dev.beat) else none })

/-- FLOW_SAMPLE (R464, R467). -/
def execFlowSample (flow : Nat) (s : State) : Host.Outcome State Fault Refusal := s.run (flowSampleWork flow)

/-- Flow below 3.0 L/min for 1 s in FULL: ERR_FLOW_LOW, once per crossing. -/
def flowLowWork (w : Work) : Work :=
  match w.dev.power.lowSince with
  | some b =>
    if w.dev.power.lowFlow then w
    else
      let w := w.passTo (b + 250000000)
      (w.power (fun p => { p with lowFlow := true })).raise pgPm .flowLow ⟨1, none, codeNone, codeNone, []⟩
  | none => w

/-- FLOW_LOW (R464). -/
def execFlowLow (s : State) : Host.Outcome State Fault Refusal := s.run flowLowWork

/-- Flow below 2.4 L/min for 2 s in FULL: trip, cause FLOW. -/
def flowTripWork (w : Work) : Work :=
  match w.dev.power.tripSince with
  | some b => (w.passTo (b + 500000000)).trip 4 0
  | none => w

/-- FLOW_TRIP (R464). -/
def execFlowTrip (s : State) : Host.Outcome State Fault Refusal := s.run flowTripWork

/-! ### Temperatures (R348, R465) -/

def maxList (l : List Nat) : Nat := l.foldl max 0

/-- Index of the first largest element. -/
def argMax (l : List Nat) : Nat := (l.idxOf (maxList l)) % max 1 l.length

/-- The units of a list at or above a limit. -/
def atLimit (l : List Nat) (lim : Nat) : List Nat := (List.range l.length).filter (fun i => decide (lim ≤ l.getD i 0))

/-- The level that holds a limit which is exceeded is the power manager's own: a free value from 1 to 56 (log 17, DEDUCED). -/
def Work.holdLevel (w : Work) : Nat × Work :=
  let (x, w) := w.draw
  (x % 56 + 1, w)

/-- Readings are reported; limits set skip levels, raise errors once per crossing, or trip. -/
def tempSampleWork (t : Temps) (w : Work) : Work :=
  if w.dev.power.state = .off then w
  else
    let v := w.variant
    let dies := (t.dies.take v.dies).map (fun x => min x 255)
    let hbms := (t.hbms.take v.stacks).map (fun x => min x 255)
    let dimms := (t.dimms.take v.channels).map (fun x => min x 255)
    let w := w.setReg pgPm .pmTemp (BitVec.ofNat 32 (leNat (dies.map (BitVec.ofNat 8))))
    let w := w.setReg pgPm .pmTemp2 (atBit (argMax hbms) 16 ||| atBit (t.vps % 256) 8 ||| atBit (maxList hbms) 0)
    let w := w.setRf pgPm .pmStat 23 16 (t.inlet % 256)
    let w := w.each (List.range hbms.length) (fun i w => w.setRf ⟨.hm, i⟩ .hmStat 15 8 (hbms.getD i 0))
    let w := w.each (List.range dimms.length) (fun i w => w.setRf ⟨.dd, i⟩ .hmStat 15 8 (dimms.getD i 0))
    let p := w.dev.power
    let inlet := if t.inlet % 256 < 128 then t.inlet % 256 else 0
    -- errors, once per crossing
    let w := w.each (atLimit dies 105) (fun i w => w.whenB (!p.hotDies.contains i)
      (fun w => w.raise pgPm .thermal ⟨1, none, codeNone, codeNone, []⟩))
    let w := w.each (atLimit hbms 100) (fun i w => w.whenB (!p.hotStacks.contains i)
      (fun w => w.raise ⟨.hm, i⟩ .memThermal ⟨1, none, codeNone, codeNone, []⟩))
    let w := w.each (atLimit dimms 100) (fun i w => w.whenB (!p.hotDimms.contains i)
      (fun w => w.raise ⟨.dd, i⟩ .memThermal ⟨1, none, codeNone, codeNone, []⟩))
    let w := w.whenB (decide (40 < inlet) && !p.hotInlet) (fun w => w.raise pgPm .coolant ⟨1, none, codeNone, codeNone, []⟩)
    let w := w.power (fun p => { p with
      hotDies := atLimit dies 105, hotStacks := atLimit hbms 100,
      hotDimms := atLimit dimms 100, hotInlet := decide (40 < inlet), inletDrop := 100 * (inlet - 40) })
    if w.dev.power.state = .full then
      -- skip levels
      let w := w.each (List.range v.dies) (fun i w =>
        let stackHot := (List.range 3).any (fun j => decide (100 < hbms.getD (3 * i + j) 0))
        let (lv, w) :=
          if 105 ≤ dies.getD i 0 then (56, w)
          else if 95 < dies.getD i 0 ∨ stackHot then w.holdLevel
          else (0, w)
        w.power (fun p => { p with thermSkip := updAt (fun _ => lv) i p.thermSkip }))
      -- trips
      match atLimit dies 115, atLimit hbms 110 with
      | i :: _, _ => w.trip 1 i
      | [], i :: _ => w.trip 2 i
      | [], [] => if 50 ≤ inlet then w.trip 3 0 else if 110 ≤ t.vps then w.trip 5 0 else w
    else w

/-- TEMP_SAMPLE (R465, R467). -/
def execTempSample (t : Temps) (s : State) : Host.Outcome State Fault Refusal := s.run (tempSampleWork t)

/-! ### Capping (R468, R469) -/

/-- The cap in force, lowered by R464 and R465. -/
def Work.capW (w : Work) : Nat :=
  let c := w.rf pgPm .pmCap 15 0 - w.dev.power.inletDrop
  if w.dev.power.flowCap then min c 1200 else c

/-- Input power at a skip level: a load of `power` W, `engine` W of it in cluster engines (R469). -/
def loadAt (power engine k : Nat) : Nat := power - k * engine / 64

/-- Watt-beats from beat `lo` to beat `hi` under a step function of power, newest step first. -/
def energy (lo hi : Nat) (l : List (Nat × Nat)) : Nat :=
  (l.foldl (fun (x : Nat × Nat) s => (min x.1 (max s.1 lo), x.2 + s.2 * (x.1 - max s.1 lo))) (hi, 0)).2

/-- The three rules of R468 for an input power of p W over the 1 µs (250 beats) from beat `now`: the mean over the window of
`win` beats, at most 10 ms above the cap at a time, never above 3,400 W. Log 38, DESIGN CHOICE: capping (R468, R469). -/
def rulesHold (now win cap : Nat) (since : Option Nat) (drawn : List (Nat × Nat)) (p : Nat) : Bool :=
  decide (p ≤ 3400)
    && (decide (p ≤ cap) || decide (now - since.getD now + 250 ≤ 2500000))
    && decide (energy (now + 250 - win) (now + 250) ((now, p) :: drawn) ≤ cap * win)

/-- The lowest level at which the rules hold for a load; 56 when they hold at none. Log 38, DESIGN CHOICE: capping (R468, R469). -/
def capLevel (now win cap : Nat) (since : Option Nat) (drawn : List (Nat × Nat)) (power engine : Nat) : Nat :=
  ((List.range 57).find? (fun k => rulesHold now win cap since drawn (loadAt power engine k))).getD 56

/-- The level for a load as the power manager finds it now. -/
def Work.capLevel (w : Work) (power engine : Nat) : Nat :=
  Machine.capLevel w.dev.beat (w.rf pgPm .pmCap 23 16 * 250000) w.capW w.dev.power.overSince w.dev.power.drawn power engine

/-- The level is set, and the input power it leaves is drawn from now on. Steps older than the longest window of 100 ms are
forgotten but for the one that holds at its start. -/
def Work.drawAt (w : Work) (power engine k : Nat) : Work :=
  let p := loadAt power engine k
  let cap := w.capW
  w.power (fun x => { x with
    capSkip := k,
    overSince := if cap < p then some (x.overSince.getD w.dev.beat) else none,
    drawn := (w.dev.beat, p) :: (x.drawn.takeWhile (fun s => decide (w.dev.beat < s.1 + 25000000))
      ++ (x.drawn.dropWhile (fun s => decide (w.dev.beat < s.1 + 25000000))).take 1) })

/-- Raise the level at once where a rule would break; lower it by one step after 1 µs where the rules hold with a lower one. -/
def capAdjustWork (power engine : Nat) (w : Work) : Work :=
  if w.dev.power.state = .full then
    let k := w.capLevel power engine
    if k < w.dev.power.capSkip then
      let w := w.drawAt power engine w.dev.power.capSkip
      let w := w.pass 250
      w.drawAt power engine (w.dev.power.capSkip - 1)
    else w.drawAt power engine k
  else w

/-- POWER_W: the mean of the input power over the last 1 ms (R480). -/
def Work.powerW (w : Work) : Nat := energy (w.dev.beat - 250000) w.dev.beat w.dev.power.drawn / 250000

/-- IIN: the present input power over VIN, in units of 10 mA; 0 where VIN has not been measured (R467; log 120, DEDUCED). -/
def Work.iin (w : Work) : Nat :=
  let v := w.rf pgPm .pmVin 31 16
  let p := (w.dev.power.drawn.head?.map (·.2)).getD 0
  if v = 0 then 0 else min 65535 (p * 10000 / v)

/-- CAP_ADJUST (R468, R469). -/
def execCapAdjust (power engine : Nat) (s : State) : Host.Outcome State Fault Refusal := s.run (capAdjustWork power engine)

/-! ### Readout and alert outputs (R474) -/

/-- FLOW_OK is released; it is driven low in OFF. -/
def Work.flowOk (w : Work) : Bool := decide (w.dev.power.state ≠ .off) && w.rb pgPm .pmStat 29

/-- A temperature as PM_STAT.INLET_C holds it, signed. -/
def Work.inletC (w : Work) : Int :=
  let x := w.rf pgPm .pmStat 23 16
  if x < 128 then (x : Int) else (x : Int) - 256

/-- High duty of TEMP_INLET's pulse train, in percent. -/
def Work.inletDuty (w : Work) : Nat := min 100 (w.inletC + 20).toNat

/-- PWR_ALERT_N: low while CAPPED or THROTTLE is set. -/
def Work.pwrAlertN (w : Work) : Bool := !(w.capped || w.throttled)

/-- An inlet, die or stack limit of R465 is exceeded, by the temperatures last measured. -/
def Work.limitExceeded (w : Work) : Bool :=
  decide (40 < w.inletC) || decide (100 < w.rf pgPm .pmTemp2 7 0)
    || (List.range 4).any (fun k => decide (95 < w.rf pgPm .pmTemp (8 * k + 7) (8 * k)))

/-- THERM_ALERT_N: low while a limit is exceeded, and while PM_TRIP.VALID is 1 (log 121, DEDUCED). -/
def Work.thermAlertN (w : Work) : Bool := !(w.limitExceeded || w.rb pgPm .pmTrip 31)

/-- An output that drives pulses is high (R478): 0 EPOCH_OUT, 1 to 4 TRIG_OUT. -/
def Work.outHigh (w : Work) (pin : Nat) : Bool := decide (w.dev.time < w.dev.power.outUntil.getD pin 0)

/-! ### Conditioned inputs (R476, R477) -/

def Work.input (w : Work) (i : Nat) : InputSt := w.dev.power.inputs.getD i .reset
def Work.setInput (w : Work) (i : Nat) (f : InputSt → InputSt) : Work := w.power (fun p => { p with inputs := updAt f i p.inputs })

/-- One more dropped edge, saturating. -/
def dropEdge (x : InputSt) : InputSt := { x with drops := if x.drops = 0xFFFFFFFF then x.drops else x.drops + 1 }

/-- A filtered active edge at a tick: accepted, or dropped as too soon, or dropped while the input is ignored. Log 48, DEDUCED: conditioned inputs (R476, R477). -/
def inputEdgeWork (i tick : Nat) (w : Work) : Work :=
  if i < 5 ∧ w.dev.power.state ≠ .off then
    let w := w.passToTime tick
    let x := w.input i
    let soon : Bool := match x.lastEdge with
      | some t => decide (tick < t + w.rf pgPm .pmInCfg 31 16 i)
      | none => false
    let w := w.setInput i (fun x => { x with level := true, since := tick })
    if x.stuck ∨ soon then w.setInput i dropEdge
    else
      let w := (w.setInput i (fun x => { x with lastEdge := some tick })).count pgPm 4
      if i = 0 then w
      else
        let w := w.whenB (bitOf (w.reg pgSk .skCfg) (23 + i)) (fun w => w.trigger 2)
        w.whenB (w.rf pgPm .pmTrigOut 2 0 (i - 1) == 3) (fun w => w.pulse i)
  else w

/-- INPUT_EDGE (R476, R482). -/
def execInputEdge (input tick : Nat) (s : State) : Host.Outcome State Fault Refusal := s.run (inputEdgeWork input tick)

/-- The active level has lasted STUCK_US: ERR_INPUT_STUCK, and the input is ignored. -/
def inputStuckWork (i : Nat) (w : Work) : Work :=
  if i < 5 ∧ (w.input i).level ∧ (w.input i).stuck = false then
    let w := w.passToTime ((w.input i).since + w.rf pgPm .pmInCfg 14 0 i * 1000)
    (w.setInput i (fun x => { x with stuck := true })).raise pgPm .inputStuck ⟨1, none, i, codeNone, []⟩
  else w

/-- INPUT_STUCK (R477). -/
def execInputStuck (input : Nat) (s : State) : Host.Outcome State Fault Refusal := s.run (inputStuckWork input)

/-- The level has been inactive for 1 µs without a break: the input is heeded again. -/
def inputUnstuckWork (i : Nat) (w : Work) : Work :=
  if i < 5 ∧ (w.input i).stuck then w.setInput i (fun x => { x with stuck := false, level := false }) else w

/-- INPUT_UNSTUCK (R477). -/
def execInputUnstuck (input : Nat) (s : State) : Host.Outcome State Fault Refusal := s.run (inputUnstuckWork input)

end Sys2Proof.Machine
end

