-- ==== Sys2Proof/Machine/Boot.lean ====
section
/-! DEFINITION. Starts, boot steps, the journal and recovery (R437 to R443), images and updates (R444 to R449), floors (R452, R453). -/

namespace Sys2Proof.Machine

def Work.boot (w : Work) (f : Boot → Boot) : Work := w.upd (fun d => { d with boot := f d.boot })

/-! ### The journal (R440, R442) -/

def stepRequired (s : Nat) : Bool := s != 5 && s != 12 && s != 13

/-- Image type of an image step (R438, R445). -/
def typeOfStep (s : Nat) : Option Nat :=
  match s with
  | 1 => some 1 | 4 => some 3 | 5 => some 4 | 6 => some 2 | 13 => some 6
  | _ => none

/-- The 32 bytes of an entry (R442). -/
def JEntry.bytes (e : JEntry) : List Byte :=
  leBytes 4 e.seq ++ leBytes 2 e.start ++ leBytes 1 e.step ++ leBytes 1 e.attempt ++ leBytes 1 e.result ++ leBytes 1 e.method
    ++ leBytes 2 e.code ++ leBytes 4 0 ++ leBytes 4 e.tUs ++ leBytes 4 e.durUs ++ leBytes 8 e.detail

/-- The newest entry of a step, ignoring those older than the newest plan reset. -/
def Boot.newest (b : Boot) (s : Nat) : Option JEntry :=
  (b.journal.takeWhile (fun e => !(e.step == 0 && e.result == 5))).find? (fun e => e.step == s)

def Boot.nextSeq (b : Boot) : Nat := match b.journal with
  | [] => 0
  | e :: _ => (e.seq + 1) % 2 ^ 32

/-- Time since the start began, in µs. -/
def Work.startUs (w : Work) : Nat := (w.dev.beat - w.dev.boot.startBeat) * 4 / 1000

def Work.journalAdd (w : Work) (e : JEntry) : Work := w.boot (fun b => { b with journal := (e :: b.journal).take 64 })

/-- A complete entry written at once. -/
def Work.journalNote (w : Work) (step result : Nat) : Work :=
  w.journalAdd ⟨w.dev.boot.nextSeq, w.dev.boot.startNo, step, 1, result, 0, 0, w.startUs, 0, 0⟩

/-- Slot booted under a method: the active slot, or the other (R438). -/
def Boot.slotFor (b : Boot) (t method : Nat) : Nat := (b2n (bitOf b.active (t - 1)) + method) % 2

/-- Every port with links begins to train (R366, R438). -/
def Work.trainPorts (w : Work) : Work :=
  w.upd (fun d => { d with ports := (d.ports.take 16).map (fun p => if p.links = [] then p else { p with state := .training }) ++ [.loopback] })

/-- An attempt starts: its entry is written with its completion fields erased. -/
def Work.attempt (w : Work) (step attempt method : Nat) : Work :=
  let b := w.dev.boot
  let m := method + (match typeOfStep step with
    | some t => 128 * b.slotFor t method
    | none => 0)
  let e : JEntry := ⟨b.nextSeq, b.startNo, step, attempt, 0xFF, m, 0xFFFF, w.startUs, 0xFFFFFFFF, 2 ^ 64 - 1⟩
  let w := (w.journalAdd e).boot (fun b => { b with running := b.running ++ [e] })
  w.whenB (step == 12) Work.trainPorts

/-- Some link is USED by the loaded manifest (R438). -/
def Dev.usedLinks (d : Dev) : Bool := d.ports.any (fun p => p.links ≠ [])

/-- A step begins under its plan (R440). The flag: it has ended already (skipped, not present, or nothing to do). -/
def Work.beginStep (w : Work) (s : Nat) : Work × Bool :=
  if s = 11 ∧ w.variant.hasDdr = false then (w.journalNote s 4, true)
  else if stepRequired s then
    match w.dev.boot.newest s with
    | some e =>
      if e.result = 1 then (w.attempt s 1 (e.method % 2), false)
      else if e.result = 0xFF ∨ e.result = 2 then
        ((w.boot (fun b => { b with carried := b.carried ++ [(s, e.seq)] })).attempt s 2 (1 - e.method % 2), false)
      else (w.attempt s 1 0, false)
    | none => (w.attempt s 1 0, false)
  else
    let run : Bool := match w.dev.boot.newest s with
      | none => true
      | some e => e.result == 1 || e.result == 4
    if !run then (w.journalNote s 3, true)
    else if s = 12 ∧ w.dev.usedLinks = false then (w.journalNote s 1, true)
    else (w.attempt s 1 0, false)

/-- The steps that begin once a step has ended (R439). -/
def Boot.follow (b : Boot) (s : Nat) : List Nat :=
  if s < 9 then [s + 1]
  else if s = 9 then [10, 11, 12]
  else if s ≤ 12 then (if [10, 11, 12].all (fun k => b.ended.contains k) then [13] else [])
  else if s = 13 then [14]
  else []

/-- LINKS ends: under LINK with no port that brings time, ERR_TIME_UNLOCKED is raised once (R325). -/
def Work.linksEnd (w : Work) : Work :=
  let up := w.rf pgCr .crCfg 11 8
  w.whenB (w.source == 2 && !(w.portUp up && (w.port up).keepsTime))
    (fun w => w.raise pgCr .timeUnlocked ⟨1, none, codeNone, codeNone, leBytes 1 up⟩)

/-- Begin steps in order; a step that ends at once brings on the next. -/
def Work.runSteps : Nat → List Nat → Work → Work
  | 0, _, w => w
  | _ + 1, [], w => w
  | n + 1, s :: rest, w =>
    let (w, done) := w.beginStep s
    if done then
      let w := (w.boot (fun b => { b with ended := b.ended ++ [s] })).whenB (s == 12) Work.linksEnd
      Work.runSteps n (rest ++ w.dev.boot.follow s) w
    else Work.runSteps n rest w

/-! ### Starts (R437, R461) -/

/-- Everything outside flash is lost; the start number rises. PM_TRIP keeps its record (R466). Log 37, DEDUCED: what a start resets (R437). -/
def Work.startReset (w : Work) : Work :=
  let d := w.dev
  let trip := w.reg pgPm .pmTrip
  let r := Dev.reset w.variant
  let w := w.emit [.clear 0 (2 ^ 48)]
  let w := w.upd (fun _ => { r with
    beat := d.beat, free := d.free, nextId := d.nextId, sent := d.sent, dimms := d.dimms, broken := d.broken,
    boot := { r.boot with
      startNo := (d.boot.startNo + 1) % 65536, startBeat := d.beat, journal := d.boot.journal, flash := d.boot.flash,
      active := d.boot.active, floors := d.boot.floors, keyFloor := d.boot.keyFloor },
    power := { r.power with
      modEn := d.power.modEn, modPg := d.power.modPg, perst := d.power.perst, enAt := d.power.enAt, lowAt := d.power.lowAt } })
  w.setReg pgPm .pmTrip trip

/-- A start begins; step 0x01 waits while PERST_N is asserted (R461). -/
def Work.beginStart (w : Work) : Work :=
  if w.dev.power.state = .off ∨ w.dev.power.modPg = false then w
  else
    let w := w.startReset
    if w.dev.power.perst then w.boot (fun b => { b with held := true, begun := true })
    else Work.runSteps 20 [1] w

/-- START (R437). -/
def execStart (s : State) : Host.Outcome State Fault Refusal := s.run Work.beginStart

/-- The hub rails reach regulation 30 ms after LOW-POWER: MOD_PG asserts, and this power-good begins a start. -/
def modPgWork (w : Work) : Work :=
  if w.dev.power.state = .low ∧ w.dev.power.modPg = false then
    let w := w.passTo (w.dev.power.lowAt + 7500000)
    ((w.power (fun p => { p with modPg := true })).say (.pin 0 true)).beginStart
  else w

/-- MOD_PG (R460, R437). -/
def execModPg (s : State) : Host.Outcome State Fault Refusal := s.run modPgWork

/-- PERST_N asserts: the running start ends; the next begins when PERST_N deasserts (R461). -/
def perstAssertWork (w : Work) : Work :=
  if w.dev.power.perst then w
  else
    let w := w.power (fun p => { p with perst := true })
    let w := w.setReg pgPx .pxLink 0
    w.boot (fun b => { b with mode := .booting, running := [], held := true, begun := false })

/-- PERST_ASSERT (R461). -/
def execPerstAssert (s : State) : Host.Outcome State Fault Refusal := s.run perstAssertWork

def perstDeassertWork (w : Work) : Work :=
  if w.dev.power.perst then
    let w := w.power (fun p => { p with perst := false })
    if w.dev.boot.held then
      if w.dev.boot.begun then Work.runSteps 20 [1] ((w.pass 1).boot (fun b => { b with held := false, begun := false }))
      else (w.pass 1).beginStart
    else w
  else w

/-- PERST_DEASSERT (R461). -/
def execPerstDeassert (s : State) : Host.Outcome State Fault Refusal := s.run perstDeassertWork

/-- A running step has held its STARTED entry for 30 s; POWER's counts only the ramp (R437, R438). -/
def bootWatchdogWork (w : Work) : Work :=
  let due (e : JEntry) : Option Nat :=
    let b := w.dev.boot.startBeat + e.tUs * 250
    if e.step = 7 then
      (if w.rb pgPm .pmStat 29 then some (max b w.dev.power.rampAt + 7500000000) else none)
    else some (b + 7500000000)
  match (w.dev.boot.running.filterMap due) with
  | [] => w
  | b :: t => (w.passTo (t.foldl min b)).beginStart

/-- BOOT_WATCHDOG (R437). -/
def execBootWatchdog (s : State) : Host.Outcome State Fault Refusal := s.run bootWatchdogWork

/-- BT_CTL.RESTART: from recovery a plan reset comes first (R443). -/
def Work.restart (w : Work) : Work :=
  (w.whenB (w.dev.boot.mode == .recovery) (fun w => w.journalNote 0 5)).beginStart

/-! ### What a step that passes brings (R438) -/

/-- A link entry of the manifest (R372). -/
def manifestLink (body : List Byte) (l : Nat) : Option (Nat × PLink) :=
  let e := (body.drop (64 + 8 * l)).take 8
  let w0 := bytesAt e 0 2
  if fieldN w0 15 15 = 1 then
    some (byteAt e 2 % 16, ⟨l, w0 % 4096, byteAt e 3, byteAt e 4, byteAt e 5, .down, false, false, 0, false, false, 0, 0⟩)
  else none

/-- Load a topology manifest: device, routes, ports and their links (R365, R372, R373). -/
def Work.loadManifest (w : Work) (body : List Byte) : Work :=
  let ls := (List.range 48).filterMap (manifestLink body)
  w.upd (fun d => { d with
    exch := { d.exch with
      device := bytesAt body 2 2 % 4096, manifestOk := true, secFloor := bytesAt body 4 4, digest := bytesAt body 8 16,
      routes := (List.range (bytesAt body 24 2)).map (fun i =>
        let a := bytesAt body (448 + 4 * i) 2
        let b := bytesAt body (450 + 4 * i) 2
        (a % 4096, b % 4096, b / 4096)) },
    ports := (List.range 16).map (fun p => { Port.reset with links := ((ls.filter (fun x => x.1 == p)).map (·.2)).take 16 }) ++ [.loopback] })

/-- The configuration image's registers (R447). TIME_UNLOCKED is set under RACK and LINK until the source locks (R325; log 22, DEDUCED). -/
def Work.loadConfig (w : Work) (body : List Byte) : Work :=
  let t := byteAt body 1
  let w := w.setReg pgCr .crCfg (atBit (t % 4) 0 ||| atBit (t / 16 % 2) 4 ||| atBit (byteAt body 2 % 16) 8)
  let w := w.whenB (decide (t % 4 ≠ 0)) (fun w => w.setRf pgCr .crStatus 28 28 1)
  let x := byteAt body 3
  w.each (List.range w.variant.channels) (fun c w =>
    w.setReg ⟨.dd, c⟩ .ddCfg (atBit (fieldN x 5 4) 30 ||| atBit (fieldN x 7 6) 4 ||| atBit (fieldN x 3 0) 0))

/-- An image's body goes into a core's private SRAM (R423, R431). Log 91, DESIGN CHOICE: the cores' private SRAM (R423, R431). -/
def Core.place (c : Core) (slot : Nat) (body : List Byte) : Core :=
  { c with sram := (slot, body) :: c.sram.filter (fun x => x.1 != slot) }

/-- System threads of the firmware (R424). Slots and priorities are the model's choice (log 23, DESIGN CHOICE). -/
def Work.loadSystemThreads (w : Work) (imageId : Nat) (body : List Byte) : Work :=
  let put2 (w : Work) (n p0 p1 : Nat) : Work :=
    w.setCore n ((((w.core n).place 0 body).setThread 0 (fun _ => ⟨.blocked, p0, false, imageId % 65536⟩)).setThread 1
      (fun _ => ⟨.blocked, p1, false, imageId % 65536⟩))
  put2 (put2 w 0 30 29) 1 20 25

/-- Fields of an image (R445). -/
def imgType (b : List Byte) : Nat := byteAt b 5
def imgSec (b : List Byte) : Nat := bytesAt b 8 4
def imgBodyLen (b : List Byte) : Nat := bytesAt b 12 4
def imgBody (b : List Byte) : List Byte := (b.drop 6144).take (imgBodyLen b)
def imgDigest (b : List Byte) : List Byte := (b.drop 24).take 48
def imgCore (b : List Byte) : Nat := fieldN (bytesAt b 80 4) 2 0
def imgSlot (b : List Byte) : Nat := fieldN (bytesAt b 80 4) 13 8
def imgPrio (b : List Byte) : Nat := fieldN (bytesAt b 80 4) 20 16

/-- A service thread is loaded: it starts BLOCKED, and measurement 6 is extended (R431, R456). -/
def Work.loadThread (w : Work) (img : List Byte) : Work :=
  let n := imgCore img
  let w := w.setCore n (((w.core n).place (imgSlot img) (imgBody img)).setThread (imgSlot img) (fun _ => ⟨.blocked, imgPrio img, true, bytesAt img 16 2⟩))
  w.boot (fun b => { b with threadDigests := b.threadDigests ++ [imgDigest img], threadSec := max b.threadSec (imgSec img) })

/-- The slot a THREAD image names is a service slot that is EMPTY (R431). -/
def Work.slotOpen (w : Work) (img : List Byte) : Bool :=
  decide (16 ≤ imgSlot img) && decide (((w.core (imgCore img)).thread (imgSlot img)).state = .empty)

/-- The whole images of a SERVICE bundle's body; none when it is no sequence of them. Log 64, DEDUCED: a SERVICE bundle (R444, R445). -/
def splitBundle : Nat → List Byte → Option (List (List Byte))
  | 0, b => if b = [] then some [] else none
  | n + 1, b =>
    if b = [] then some []
    else if b.length < 6144 + imgBodyLen b ∨ imgType b ≠ 5 then none
    else (splitBundle n (b.drop (6144 + imgBodyLen b))).map (fun l => b.take (6144 + imgBodyLen b) :: l)

def Boot.image (b : Boot) (t slot : Nat) : Option FlashImage :=
  (b.flash.find? (fun x => x.1 == t && x.2.1 == slot)).map (·.2.2)

/-- A DIMM of the table of R334. -/
def Dimm.listed (x : Dimm) : Bool :=
  x.ecc && ((x.kind == 1 && x.ranks == 2 && [3, 4].contains x.rate && [64, 128, 192, 256].contains x.gb)
    || (x.kind == 2 && (x.ranks == 1 || x.ranks == 2) && [0, 1, 2].contains x.rate && [32, 64, 96, 128, 192, 256].contains x.gb))

/-- Capacity of a channel in 4 KiB units (R353). -/
def Work.dimmUnits (w : Work) (c : Nat) : Nat := ((w.dev.dimms.getD c []).map (fun x => x.gb * 1000000000 / 4096)).foldl (· + ·) 0

/-- What training finds against a channel (R334, R335, R351): not exactly one DIMM, or one unlike the others, or one unlike
what DD_CFG says, or a rate above its own, 4; a DIMM outside the table, 5; none, 0. Log 44, DEDUCED: which channels fail. -/
def Work.dimmReason (w : Work) (c : Nat) : Nat :=
  match w.dev.dimms.getD c [] with
  | [x] =>
    let cfg := w.reg ⟨.dd, c⟩ .ddCfg
    let alike (l : List Dimm) : Bool := l.all (fun y =>
      y.kind == x.kind && y.ranks == x.ranks && y.gb == x.gb && y.organisation == x.organisation)
    if x.listed = false then 5
    else if x.kind = fld cfg 31 30 ∧ x.ranks = fld cfg 7 4 ∧ fld cfg 3 0 ≤ x.rate ∧ (w.dev.dimms.take w.variant.channels).all alike = true then 0
    else 4
  | _ => 4

/-- Why a unit cannot train: none, 0. One that failed in service does not train again, for a reason the spec leaves open (R349; log 117,
DESIGN CHOICE). -/
def Work.unitReason (w : Work) (p : Page) : Nat :=
  let own := if p.block = .dd then w.dimmReason p.num else 0
  if own = 0 ∧ w.dev.broken.contains p then Config.trainingReason w.dev.beat p.base % 6 + 1 else own

/-- The units that a training step finds bad, with their reasons. -/
def Work.badUnits (w : Work) (s : Nat) : List (Nat × Nat) :=
  let units (b : Block) (n : Nat) : List (Nat × Nat) := ((List.range n).map (fun i => (i, w.unitReason ⟨b, i⟩))).filter (fun x => x.2 != 0)
  if s = 10 then units .hm w.variant.stacks else if s = 11 then units .dd w.variant.channels else []

/-- How an attempt of a step ends: a training with a bad unit does not pass (R334, R335, R349). -/
def Work.stepResult (w : Work) (s : Nat) (r : StepEnd) : StepEnd :=
  match w.badUnits s with
  | [] => r
  | l@((_, code) :: _) =>
    let mask := l.foldl (fun a x => a + 2 ^ x.1) 0
    { r with pass := false, code := if r.pass then code else r.code, detail := if r.pass then mask else r.detail ||| mask }

/-- Every controller of a tier reports its training; the failed units are those of the mask (R343, R351). -/
def Work.trained (w : Work) (b : Block) (n method failed reason : Nat) : Work :=
  w.each (List.range n) (fun i w =>
    let bad := failed / 2 ^ i % 2
    let own := w.unitReason ⟨b, i⟩
    w.setReg ⟨b, i⟩ .hmStat (atBit (1 + bad) 30 ||| atBit method 29 ||| atBit (if bad = 0 then 0 else if own ≠ 0 then own else reason % 256) 0))

/-- Effects of a step that passes, by method. -/
def Work.passStep (w : Work) (s method slot : Nat) : Work :=
  let w := match typeOfStep s with
    | some t =>
      match w.dev.boot.image t slot with
      | some img => w.boot (fun b => { b with booted := b.booted ++ [(t, slot, img)] })
      | none => w
    | none => w
  let img := (typeOfStep s).bind (fun t => w.dev.boot.image t slot)
  let body := (img.map (·.body)).getD []
  match s with
  | 4 => w.loadConfig body
  | 5 => w.loadManifest body
  | 6 => w.loadSystemThreads ((img.map (·.imageId)).getD 0) body
  | 7 => (w.power (fun p => { p with state := .full })).setRf pgPm .pmStat 31 31 0
  | 8 =>
    let w := w.upd (fun d => { d with counting := true, time := 0 })
    w.whenB (w.source == 0) (fun w => w.setRf pgCr .crStatus 31 31 1)
  | 10 => (w.trained .hm w.variant.stacks method 0 0).emit [.clear 0 0xC000000000]
  | 11 =>
    let w := w.trained .dd w.variant.channels method 0 0
    let w := w.each (List.range w.variant.channels) (fun c w => w.setReg ⟨.dd, c⟩ .hmCap (BitVec.ofNat 32 (w.dimmUnits c)))
    w.emit [.clear 0x40000000000 0x80000000000]
  | 13 => w.each ((splitBundle 64 body).getD []) (fun img w => w.whenB (w.slotOpen img) (fun w => w.loadThread img))
  | _ => w

/-- The device enters service: ERR_BOOT_STEP for each step that had a failed attempt counted in the start (R439, R458). -/
def Work.enterService (w : Work) : Work :=
  let w := w.boot (fun b => { b with mode := .service })
  w.each w.dev.boot.carried (fun (s, q) w => w.raise pgBt .bootStep ⟨1, none, s, codeNone, leBytes 4 q⟩)

/-- An attempt of a step ends (R438 to R443). POWER cannot ramp while the flow interlock holds it (R464). -/
def bootStepEndWork (s : Nat) (r : StepEnd) (w : Work) : Work :=
  match w.dev.boot.running.find? (fun e => e.step == s) with
  | none => w
  | some e =>
    if s = 7 ∧ w.rb pgPm .pmStat 29 = false then w
    else
      let w := w.passTo (w.dev.boot.startBeat + (e.tUs + r.durUs) * 250)
      let r := w.stepResult s r
      let sec := match typeOfStep s with
        | some t => ((w.dev.boot.image t (e.method / 128)).map (·.sec)).getD 0
        | none => r.detail % 2 ^ 64
      let e' := { e with
        result := if r.pass then 1 else 2, code := if r.pass then 0 else r.code % 65536, durUs := r.durUs % 2 ^ 32, detail := sec }
      let w := w.boot (fun b => { b with
        running := b.running.filter (fun x => x.step != s), journal := updFirst (fun x => x.seq == e.seq) (fun _ => e') b.journal })
      let w := w.whenB (s == 12) (fun w => w.upd (fun d => { d with ports := d.ports.map (fun p =>
        ({ p with links := updAll (fun l => r.detail / 2 ^ l.num % 2 == 1) (fun l => { l with state := .failed }) p.links } : Port).settled) }))
      let w := w.whenB (s == 12) Work.linksEnd
      if r.pass then
        let w := w.passStep s (e.method % 2) (e.method / 128)
        let w := w.boot (fun b => { b with ended := b.ended ++ [s] })
        if s = 14 then w.enterService else Work.runSteps 20 (w.dev.boot.follow s) w
      else if stepRequired s = false then
        let w := w.boot (fun b => { b with carried := b.carried ++ [(s, e.seq)], ended := b.ended ++ [s] })
        Work.runSteps 20 (w.dev.boot.follow s) w
      else
        let w := w.boot (fun b => { b with carried := b.carried ++ [(s, e.seq)] })
        let w := w.whenB (s == 10) (fun w => w.trained .hm w.variant.stacks (e.method % 2) r.detail r.code)
        let w := w.whenB (s == 11) (fun w => w.trained .dd w.variant.channels (e.method % 2) r.detail r.code)
        if e.attempt = 1 then w.attempt s 2 (1 - e.method % 2)
        else w.boot (fun b => { b with mode := .recovery, failStep := s, failCode := r.code % 256, running := [] })

/-- BOOT_STEP_END (R438 to R443). -/
def execBootStepEnd (step : Nat) (r : StepEnd) (s : State) : Host.Outcome State Fault Refusal := s.run (bootStepEndWork step r)

/-! ### Images and updates (R446, R447, R449) -/

/-- Slot size of an image type in flash (R444). -/
def slotBytes (t : Nat) : Nat :=
  match t with
  | 1 => 4 * 2 ^ 20 | 2 => 16 * 2 ^ 20 | 3 => 256 * 2 ^ 10 | 4 => 256 * 2 ^ 10
  | _ => 32 * 2 ^ 20

/-- R447, R372, R365: a body that keeps its type's rules. -/
def bodyOk (v : Variant) (t : Nat) (b : List Byte) : Bool :=
  match t with
  | 3 =>
    let x := byteAt b 3
    byteAt b 0 == 1 && decide (byteAt b 1 % 4 ≤ 2) && byteAt b 1 / 4 % 4 == 0 && byteAt b 1 / 32 == 0 && decide (byteAt b 2 ≤ 15)
      && zeroBytes b 4 60
      && (if v.hasDdr then decide (x % 16 ≤ 4) && (x / 16 % 4 == 1 || x / 16 % 4 == 2) && (x / 64 == 1 || x / 64 == 2) else x == 0)
  | 4 =>
    byteAt b 0 == 1 && decide (1 ≤ byteAt b 1) && decide (byteAt b 1 ≤ 16) && decide (bytesAt b 2 2 < 4096)
      && decide (bytesAt b 24 2 ≤ 4096) && zeroBytes b 26 38
      && (List.range 48).all (fun l => (manifestLink b l).isNone || v.hasLink l)
      && (List.range 16).all (fun p =>
        let ls := ((List.range 48).filterMap (manifestLink b)).filter (fun x => x.1 == p)
        decide (ls.length ≤ 16)
          && ls.all (fun x => ls.all (fun y => x.2.partnerDevice == y.2.partnerDevice && x.2.partnerPort == y.2.partnerPort)))
  | 6 => (splitBundle 64 b).isSome
  | _ => true

/-- R446: the first check that fails, in the table's order; none accepts. `thread`: TARGET is THREAD. -/
def Work.imageCode (w : Work) (img : List Byte) (thread flashError : Bool) : Option Nat :=
  let b := w.dev.boot
  let t := imgType img
  let key := byteAt img 6
  let head := img.take 2112
  let types : List Nat := if thread then [5] else [1, 2, 3, 4, 6]
  let ti := bytesAt img 80 4
  let tiOk : Bool := if t = 5 then ti == imgCore img + imgSlot img * 2 ^ 8 + imgPrio img * 2 ^ 16 else ti == 0
  if bytesAt img 0 4 ≠ 0x4D494E46 ∨ byteAt img 4 ≠ 1 ∨ types.contains t = false ∨ zeroBytes img 7 1 = false
      ∨ zeroBytes img 84 44 = false ∨ zeroBytes img 5485 659 = false ∨ tiOk = false then some 2
  else if 3 < key ∨ key < b.keyFloor ∨ Config.sha384 ((img.drop 128).take 1984) ≠ Config.romKeyDigest key then some 3
  else if Config.ed25519Verify ((img.drop 128).take 32) head ((img.drop 2112).take 64) = false
      ∨ Config.mldsaVerify ((img.drop 160).take 1952) head ((img.drop 2176).take 3309) = false then some 4
  else if imgSec img < b.floors.getD (t - 1) 0 then some 5
  else if bytesAt img 72 8 ≠ 0 ∧ (img.drop 72).take 8 ≠ Config.deviceBind then some 6
  else if slotBytes t < 6144 + imgBodyLen img ∨ img.length < 6144 + imgBodyLen img
      ∨ Config.sha384 (imgBody img) ≠ imgDigest img then some 7
  else if flashError ∧ thread = false then some 8
  else
    if thread then (if w.slotOpen img then none else some 9)
    else if bodyOk w.variant t (imgBody img) = false then some 9
    else none

/-- Flash slot an update of a type writes: the one not booted (R449); with none booted, the inactive one. Log 49, DEDUCED: updates and floors (R449, R453). -/
def Boot.updateSlot (b : Boot) (t : Nat) : Nat :=
  match b.booted.find? (fun x => x.1 == t) with
  | some x => 1 - x.2.1
  | none => 1 - b2n (bitOf b.active (t - 1))

/-- The image has been read over PCI Express: it is checked, then written to flash or loaded, or refused. -/
def updateImageCheckWork (flashError : Bool) (w : Work) : Work :=
  match w.dev.boot.updTarget with
  | none => w
  | some target =>
    match w.readHost w.dev.boot.updAddr w.dev.boot.updLen with
    | (none, w) => w
    | (some l, w) =>
      let img := l.map (·.1)
      match w.imageCode img (target == 1) flashError with
      | some code =>
        let w := w.boot (fun b => { b with updTarget := none, updResult := code })
        w.raise pgBt .imageRefused ⟨1, none, codeNone, codeNone, leBytes 1 code⟩
      | none =>
        let w := w.boot (fun b => { b with updTarget := none, updResult := 1 })
        if target = 1 then w.loadThread img
        else
          let t := imgType img
          let f : FlashImage := ⟨imgSec img, byteAt img 6, bytesAt img 16 8, imgBody img⟩
          w.boot (fun b =>
            let sl := b.updateSlot t
            { b with flash := (b.flash.filter (fun x => !(x.1 == t && x.2.1 == sl))) ++ [(t, sl, f)] })

/-- UPDATE_IMAGE_CHECK (R446, R449). -/
def execUpdateImageCheck (flashError : Bool) (s : State) : Host.Outcome State Fault Refusal := s.run (updateImageCheckWork flashError)

/-- SEC_VERSION of the image booted for type index t; THREAD: the highest loaded (R457). None when there is none. -/
def Boot.secOf (b : Boot) (t : Nat) : Option Nat :=
  if t = 4 then (if b.threadDigests = [] then none else some b.threadSec)
  else (b.booted.find? (fun x => x.1 == t + 1)).map (fun x => x.2.2.sec)

/-- BT_FLOOR_CTL: raise floors, never lower them; a failed flash write raises ERR_GUARD and changes none (R453). -/
def Work.raiseFloors (w : Work) (key : Bool) (types : Nat) (flashError : Bool) : Work :=
  if flashError then w.raise pgBt .guard ⟨1, none, codeNone, codeNone, []⟩
  else w.boot (fun b => { b with
    floors := (List.range 6).map (fun t =>
      let f := b.floors.getD t 0
      if types / 2 ^ t % 2 = 1 then max f ((b.secOf t).getD 0) else f),
    keyFloor := if key then max b.keyFloor (((b.booted.find? (fun x => x.1 == 1)).map (fun x => x.2.2.key)).getD 0) else b.keyFloor })

/-- The test access port leaves bypass: measurement 10 is 1 for the rest of the start (R456). -/
def tapWork (w : Work) : Work := w.boot (fun b => { b with tap := true })

/-- TAP_LEAVE_BYPASS (R456). -/
def execTapLeaveBypass (s : State) : Host.Outcome State Fault Refusal := s.run tapWork

end Sys2Proof.Machine
end

