-- ==== Sys2Proof/Machine/Cores.lean ====
section
/-! DEFINITION. Control cores: the operations of the scheduler port and the wake-ups (R425 to R429). A switch that a wake-up
causes completes within 24 KCLK (R426); here it completes when the next beat passes or the next operation of the port comes. -/

namespace Sys2Proof.Machine

/-- Store a core after an operation and report its status. -/
def Work.portDone (w : Work) (n : Nat) (ok : Bool) : Work := w.say (.status n ok)

/-- An operation of core n's scheduler port: refused operations change nothing and return a status (R427). -/
def Work.schedOp (w : Work) (n : Nat) (f : Core → Option Core) : Work :=
  if n < 8 then
    let w := w.settle
    match f (w.core n) with
    | some c => (w.setCore n c).portDone n true
    | none => w.portDone n false
  else w

/-- The caller of BLOCK, YIELD and DELAY is the running thread; with none running there is no caller and no operation. -/
def Work.callerOp (w : Work) (n : Nat) (f : Nat → Work → Work) : Work :=
  if n < 8 then
    let w := w.settle
    match (w.core n).running with
    | some t => (f t w).settle
    | none => w
  else w

def schedReadyWork (n t : Nat) (w : Work) : Work :=
  w.schedOp n (fun c => match (c.thread t).state with
    | .empty | .ready => none
    | _ => some (c.makeReady t))

/-- SCHED_READY (R427). -/
def execSchedReady (core t : Nat) (s : State) : Host.Outcome State Fault Refusal := s.run (schedReadyWork core t)

/-- The caller blocks (R427, R429). -/
def schedBlockWork (n : Nat) (w : Work) : Work :=
  w.callerOp n (fun t w =>
    let (c, again) := (w.core n).blockNow t
    ((w.setCore n c).whenB again (fun w => w.count ⟨.cc, n⟩ 2)).portDone n true)

/-- SCHED_BLOCK (R427, R429). -/
def execSchedBlock (core : Nat) (s : State) : Host.Outcome State Fault Refusal := s.run (schedBlockWork core)

def schedYieldWork (n : Nat) (w : Work) : Work :=
  w.callerOp n (fun t w =>
    let c := w.core n
    (w.setCore n { c with ready := c.ready.filter (· != t) ++ [t] }).portDone n true)

/-- SCHED_YIELD (R427). -/
def execSchedYield (core : Nat) (s : State) : Host.Outcome State Fault Refusal := s.run (schedYieldWork core)

def schedDelayWork (n k : Nat) (w : Work) : Work :=
  if k = 0 ∨ 1048575 < k then (if n < 8 then w.portDone n false else w)
  else w.callerOp n (fun t w =>
    let c := (w.core n).unready t .delayed
    (w.setCore n { c with delays := insertDelay t (w.dev.crier.tickNo + k) c.delays }).portDone n true)

/-- SCHED_DELAY (R427, R428). -/
def execSchedDelay (core n : Nat) (s : State) : Host.Outcome State Fault Refusal := s.run (schedDelayWork core n)

/-- CANCEL: a DELAYED slot becomes BLOCKED, or READY when an interrupt is pending for it (R427, R429). -/
def schedCancelWork (n t : Nat) (w : Work) : Work :=
  if n < 8 then
    let w := w.settle
    if ((w.core n).thread t).state = .delayed then
      let (c, again) := (w.core n).blockNow t
      ((w.setCore n c).whenB again (fun w => w.count ⟨.cc, n⟩ 2)).portDone n true
    else w.portDone n false
  else w

/-- SCHED_CANCEL (R427). -/
def execSchedCancel (core t : Nat) (s : State) : Host.Outcome State Fault Refusal := s.run (schedCancelWork core t)

def schedSetprioWork (n t p : Nat) (w : Work) : Work :=
  w.schedOp n (fun c =>
    if 31 < p then none
    else
      let c := c.setThread t (fun x => { x with prio := p })
      some (if (c.thread t).state = .ready then { c with ready := c.ready.filter (· != t) ++ [t] } else c))

/-- SCHED_SETPRIO (R427). -/
def execSchedSetprio (core t p : Nat) (s : State) : Host.Outcome State Fault Refusal := s.run (schedSetprioWork core t p)

def schedBindWork (n src t : Nat) (w : Work) : Work :=
  w.schedOp n (fun c =>
    if (c.thread t).state = .empty then none else some { c with binds := updAt (fun _ => some t) src c.binds })

/-- SCHED_BIND (R427). -/
def execSchedBind (core s t : Nat) (st : State) : Host.Outcome State Fault Refusal := st.run (schedBindWork core s t)

/-- Every delay whose tick has been issued ends, in list order (R428). -/
def delayExpireWork (n : Nat) (w : Work) : Work :=
  if n < 8 then
    let c := w.core n
    let due := c.delays.filter (fun d => decide (d.2 ≤ w.dev.crier.tickNo))
    w.setCore n (due.foldl (fun c d => c.makeReady d.1) c)
  else w

/-- DELAY_EXPIRE (R428). -/
def execDelayExpire (core : Nat) (s : State) : Host.Outcome State Fault Refusal := s.run (delayExpireWork core)

def coreInterruptWork (n src : Nat) (w : Work) : Work := if n < 8 then w.coreInt n src else w

/-- CORE_INTERRUPT (R429). -/
def execCoreInterrupt (core source : Nat) (s : State) : Host.Outcome State Fault Refusal := s.run (coreInterruptWork core source)

end Sys2Proof.Machine
end

