-- ==== Sys2Proof/Machine/CrierEvents.lean ====
section
/-! DEFINITION. Crier epochs and timed launches (R105, R106, R327 to R329, R471), and the memory controllers' own events (R345 to
R349). -/

namespace Sys2Proof.Machine

/-! ### Epochs (R106, R327) -/

/-- An epoch closes for the hot entries of an instance: used ones are to be fetched again, the others are dropped. -/
def Inst.closeEpoch (i : Inst) (single : Bool) : Inst :=
  if i.hots = [] then i
  else Inst.sweep { i with
    hots := (i.hots.filter (·.served)).map (fun h => { h with served := false, refresh := true }) } single

/-- A boundary: the number rises, the epoch that ended is closed, and the new length takes effect. -/
def epochBoundaryWork (w : Work) : Work :=
  if w.dev.counting then
    let w := w.passToTime w.dev.crier.nextEpoch
    let n := w.reg pgCr .crEpochNum
    let w := w.setReg pgCr .crEpochNum (n + 1)
    let len := (w.reg pgCr .crEpochLen).toNat
    let d := w.dev
    let w := w.upd (fun d => { d with
      closedEpoch := some n
      crier := { d.crier with epochLen := len, nextEpoch := (d.crier.nextEpoch / len + 1) * len } })
    let w := w.upd (fun e => { e with insts := e.insts.map (fun i =>
      i.closeEpoch (((i.task? d).map (fun t => t.gather.noCoalesce)).getD false)) })
    let w := w.each (List.range 8) (fun c w => w.coreInt c 1)
    w.pulseSource 4
  else w

/-- EPOCH_BOUNDARY (R327). -/
def execEpochBoundary (s : State) : Host.Outcome State Fault Refusal := s.run epochBoundaryWork

/-! ### Timed launches (R328, R329, R471) -/

/-- A launch entry is in use. -/
def Task.inLaunch (t : Task) : Bool := t.launchTaken && !t.launched && t.state.live
def Dev.launchEntries (d : Dev) : Nat := (d.graphs.flatMap (fun g => g.tasks.filter Task.inLaunch)).length

/-- A RELEASED timed task takes an entry, and its order is on its way. -/
def launchEntryTakeWork (r : TaskRef) (w : Work) : Work :=
  match w.dev.task? r.gid r.task with
  | none => w
  | some t =>
    if t.timed ∧ t.state = .released ∧ t.launchTaken = false ∧ t.kind ≠ some .signal ∧ w.dev.launchEntries < 512 then
      (w.setTask r.gid r.task (fun t => { t with launchTaken := true, orderAt := w.dev.beat + 16 })).say (.launchOrder r.gid r.task)
    else w

/-- LAUNCH_ENTRY_TAKE (R328). -/
def execLaunchEntryTake (t : TaskRef) (s : State) : Host.Outcome State Fault Refusal := s.run (launchEntryTakeWork t)

/-- Predicted step of an instance, in tenths of a watt (R471). -/
def stepOf (k : Option Kind) : Nat :=
  match k with
  | some .transform => 44
  | some .vector => 16
  | some .gather | some .embedBag | some .matchT => 12
  | _ => 0

/-- The launches of one launch beat: those under way, and those already made. -/
def Dev.launchesAt (d : Dev) (time : Nat) : List (Nat × Nat × Task) :=
  d.graphs.flatMap (fun g => (g.tasks.zipIdx).filterMap (fun (t, k) =>
    if t.timed && t.launchTaken && t.state.live && t.launchTime == time then some (g.gid, k, t) else none))

/-- What the power manager decides for a launch beat. -/
structure Flatten where
  span : Nat
  ballast : Bool
  deriving DecidableEq, Repr

/-- R471: span and ballast for a launch time, over every instance of its launches. Log 56, DEDUCED: the launch step of R471. -/
def Work.flatten (w : Work) (time : Nat) : Flatten :=
  let ls := w.dev.launchesAt time
  let delta := ls.foldl (fun s (gid, k, t) =>
    s + stepOf t.kind * (w.dev.insts.filter (fun i => i.gid == gid && i.ti == k && !i.isLane)).length) 0
  let lim := w.rf pgPm .pmStep 11 0 * 10
  if delta ≤ lim then ⟨0, false⟩
  else if ls.any (fun (_, _, t) => t.noStagger) then ⟨0, true⟩
  else ⟨min 16 (ceilDiv delta lim - 1), false⟩

/-- Instances of a task, row-major. -/
def Dev.instsOf (d : Dev) (gid ti : Nat) : List Inst := d.insts.filter (fun i => i.gid == gid && i.ti == ti && !i.isLane)

/-- The ballast kept for a launch time. -/
def Dev.ballast? (d : Dev) (time : Nat) : Option Ballast := d.crier.ballasts.find? (fun b => b.time == time)

/-- CR_LAUNCH and CR_LAUNCH_INFO record a launch (R331). -/
def Work.recordLaunch (w : Work) (time outcome : Nat) (f : Flatten) (late : Nat) : Work :=
  let t := w.dev.time
  let w := w.setReg pgCr .crLaunchLo (BitVec.ofNat 32 t)
  let w := w.setReg pgCr .crLaunchHi (BitVec.ofNat 32 (t / 2 ^ 32))
  w.setReg pgCr .crLaunchInfo (atBit (b2n (decide (f.span ≠ 0))) 31 ||| atBit (b2n ((w.dev.ballast? time).any Ballast.runs)) 30
    ||| atBit outcome 28 ||| atBit f.span 16 ||| atBit (min late 65535) 0)

/-- A launch that fails starts no instance (R328). -/
def Work.launchFails (w : Work) (r : TaskRef) (time : Nat) (e : Err) (f : Flatten) (late waiter : Nat) : Work :=
  ((w.recordLaunch time 3 f late).count pgCr 2).failTask r.gid r.task pgCr e waiter []

/-- The launch beat of a task: checks in the order of R328's table, then the starts of that beat; the staggered and the late
ones follow on their beats (`startDue`). -/
def Work.launchTask (w : Work) (r : TaskRef) (t : Task) : Work :=
  let f := w.flatten t.launchTime
  let w := w.whenB (decide (f.span ≠ 0) || f.ballast) (fun w =>
    w.whenB (!(w.dev.launchesAt t.launchTime).any (fun (_, _, u) => u.launched)) (fun w => w.count pgPm 3))
  let ordered := decide (t.orderAt ≤ w.dev.beat)
  let all := w.dev.instsOf r.gid r.task
  let bad := all.filter (fun i => i.slot.isNone || !ordered)
  let late := bad.length
  let unlocked := w.unlocked && decide (w.source ≠ 0)
  if unlocked ∧ t.lateFail then w.launchFails r t.launchTime .timeUnlocked f late codeNone
  else if bad ≠ [] ∧ t.lateFail then
    w.launchFails r t.launchTime .launchLate f late ((bad.head?.map (fun i => codeInst 0 i.cluster)).getD codeNone)
  else
    let w := w.whenB unlocked (fun w => w.count pgCr 8)
    let w := (w.recordLaunch t.launchTime (if bad = [] then 1 else 2) f late).count pgCr 0
    let w := w.whenB (decide (f.span ≠ 0)) (fun w => w.count pgCr 3)
    let w := w.crier (fun c => { c with ballasts := c.ballasts.filter (fun b => b.time != t.launchTime) })
    let w := w.each bad (fun i w => w.setInst i.iid (fun i => { i with late := true }))
    let w := w.setTask r.gid r.task (fun t => { t with
      launched := true, launchBeat := w.dev.beat, span := f.span
      state := if t.kind = some .collective then .active else t.state })
    w.startTask r.gid r.task

/-- The launch beat comes: the first beat on which the time base has reached LAUNCH_TIME (R315). -/
def launchWork (r : TaskRef) (w : Work) : Work :=
  match w.dev.task? r.gid r.task with
  | none => w
  | some t =>
    if t.inLaunch = false ∨ t.state ≠ .released then w
    else (w.passToTime t.launchTime).launchTask r t

/-- LAUNCH (R328, R329). -/
def execLaunch (t : TaskRef) (s : State) : Host.Outcome State Fault Refusal := s.run (launchWork t)

/-- Launch times to come for which ballast is chosen. -/
def Work.ballastTimes (w : Work) : List Nat :=
  ((w.dev.graphs.flatMap (fun g => (g.tasks.filter (fun t => t.inLaunch && decide (w.dev.time < t.launchTime))).map (·.launchTime))).eraseDups).filter
    (fun t => (w.flatten t).ballast)

/-- Ballast steps that may come: the beat of each and the ballast after it. Up, one every 16 beats from 256 beats before the
launch to 16 before it; down, where no launch needs the ballast any more, 16 steps over 256 beats. -/
def Work.ballastSteps (w : Work) (up : Bool) : List (Nat × Ballast) :=
  let on := w.ballastTimes
  if up then
    on.filterMap (fun t =>
      let x := (w.dev.ballast? t).getD ⟨t, 0, 0, 0⟩
      let l := w.dev.beat + w.beatsTo t
      let b := max (max x.due (l - 256)) w.dev.beat
      if 16 ≤ x.ups ∨ x.downs ≠ 0 ∨ l < b + 16 then none else some (b, { x with ups := x.ups + 1, due := b + 16 }))
  else
    (w.dev.crier.ballasts.filter (fun x => !on.contains x.time)).map (fun x =>
      let b := max x.due (if x.downs = 0 then w.dev.beat + 16 else w.dev.beat)
      (b, { x with downs := x.downs + 1, due := b + 16 }))

/-- The ballast step that is due first. -/
def ballastStepWork (up : Bool) (w : Work) : Work :=
  match (w.ballastSteps up).foldl (fun (m : Option (Nat × Ballast)) x => match m with
      | some y => if x.1 < y.1 then some x else m
      | none => some x) none with
  | none => w
  | some (b, x) => (w.passTo b).crier (fun c => { c with
      ballasts := c.ballasts.filter (fun y => y.time != x.time) ++ (if x.downs < 16 then [x] else []) })

/-- BALLAST_STEP (R329). -/
def execBallastStep (up : Bool) (s : State) : Host.Outcome State Fault Refusal := s.run (ballastStepWork up)

/-! ### Memory controllers (R345 to R347, R349) -/

/-- Cell address of an offset in a stack or channel: granules of 4 KiB are interleaved over the units (R339, R340). -/
def Work.unitKey (w : Work) (block : Bool) (unit offset : Nat) : Nat :=
  let g := offset / 4096
  if block then 0x40000000000 + (g * w.variant.channels + unit) * 4096 + offset % 4096
  else (g * w.variant.stacks + unit) * 4096 + offset % 4096

/-- HM page of a stack, or DD page of a channel. -/
def memPage (block : Bool) (unit : Nat) : Page := if block then ⟨.dd, unit⟩ else ⟨.hm, unit⟩

/-- The unit exists. -/
def Work.hasMem (w : Work) (block : Bool) (unit : Nat) : Bool :=
  decide (unit < if block then w.variant.channels else w.variant.stacks)

/-- The scrubber reads a granule: a corrected one is counted and written back; an uncorrectable one is rewritten as poison. -/
def scrubWork (block : Bool) (unit offset : Nat) (error : Option CellError) (w : Work) : Work :=
  let ctl := memPage block unit
  if w.hasMem block unit = false ∨ w.rb ctl .hmScrub 31 = false ∨ w.memFailed ctl
      ∨ (w.reg ctl .hmCap).toNat * 4096 ≤ offset then w
  else
    let w := w.count ctl 3
    let key := w.unitKey block unit offset
    let g := key / 64
    let ue := match error with
      | some (.uncorrectable _) => true
      | _ => w.deadAt g
    if ue then (w.raiseUe ctl key {}).emit [.dead g false, .poison false g true]
    else match error with
      | some (.corrected _) => w.correctedError ctl
      | _ => w

/-- SCRUB (R346, R347). -/
def execScrub (block : Bool) (unit offset : Nat) (error : Option CellError) (s : State) : Host.Outcome State Fault Refusal :=
  s.run (scrubWork block unit offset error)

/-- A stack or channel fails in service. -/
def memFailedWork (block : Bool) (unit : Nat) (w : Work) : Work :=
  let ctl := memPage block unit
  if w.hasMem block unit = false ∨ w.memFailed ctl then w
  else w.failMem ctl

/-- MEM_FAILED (R349). -/
def execMemFailed (block : Bool) (unit : Nat) (s : State) : Host.Outcome State Fault Refusal := s.run (memFailedWork block unit)

end Sys2Proof.Machine
end

