-- ==== Sys2Proof/Machine/Sync.lean ====
section
/-! DEFINITION. Synchronisation: the store's operations (R284 to R290), waits and their timeouts (R286, R297 to R299), cells
(R291, R296), signals of tasks and of other devices (R290, R302 to R306), operation slots (R308, R310), and a stopped thread (R432, R433). -/

namespace Sys2Proof.Machine

/-! ### Entries -/

def SyEnt.kind (e : SyEnt) : Nat := fld e.cfg 31 30
def SyEnt.ring (e : SyEnt) : Bool := bitOf e.cfg 29
def SyEnt.limit (e : SyEnt) : Nat := fld e.cfg 15 0
def SyEnt.timeoutUs (e : SyEnt) : Nat := fld e.cfg 27 16
def Work.syEnt (w : Work) (phys : Nat) : SyEnt := look .zero phys w.dev.sync.store
def Work.updSync (w : Work) (f : Sync → Sync) : Work := w.upd (fun d => { d with sync := f d.sync })
def Work.setEnt (w : Work) (phys : Nat) (e : SyEnt) : Work := w.updSync (fun y => { y with store := put .zero phys e y.store })

/-- What an operation on an entry gives: the entry after it and whether a Bell rang; or why it is not applied. -/
inductive SyRes where
  | ok (e : SyEnt) (rang : Bool)
  | err (e : Err)
  | rej (r : Rej)
  deriving DecidableEq, Repr

/-- ADD (R286, R288). An entry of KIND UNUSED does not translate (R283). -/
def SyEnt.add (e : SyEnt) (n : Nat) : SyRes :=
  match e.kind with
  | 1 =>
    let v : Word := e.value + BitVec.ofNat 32 n
    if e.ring ∧ (e.limit : Int) < serialDiff v.toNat e.aux.toNat then .err .tallyOverrun else .ok { e with value := v } false
  | 2 =>
    let a := fld e.aux 15 0 + n
    if e.limit < a then .err .bellOverrun
    else if a = e.limit then .ok { e with value := e.value + 1, aux := 0 } true
    else .ok { e with aux := atBit a 0 } false
  | 3 =>
    if n = 0 ∨ 32 < n ∨ bitOf e.mask (n - 1) = false ∨ bitOf e.aux (n - 1) then .err .bellOverrun
    else
      let a := e.aux ||| atBit 1 (n - 1)
      if a = e.mask then .ok { e with value := e.value + 1, aux := 0 } true else .ok { e with aux := a } false
  | _ => .err .syncXlate

/-- TAKE (R286). -/
def SyEnt.take (e : SyEnt) (n : Nat) : SyRes :=
  if e.kind = 0 then .err .syncXlate
  else if e.kind ≠ 1 ∨ e.ring = false then .rej .range
  else if serialDiff e.value.toNat e.aux.toNat < (n : Int) then .err .tallyUnderrun
  else .ok { e with aux := e.aux + BitVec.ofNat 32 n } false

/-- How far ahead of VALUE a wait may be registered (R286, R288). -/
def SyEnt.reachLimit (e : SyEnt) : Nat := if e.kind = 1 then e.limit else 65535

/-! ### Waits (R286, R298) -/

def Waiter.code (w : Waiter) (d : Dev) : Nat :=
  match w with
  | .task g t => d.codeOf g t
  | .slot s => codeSlot s

/-- A slot's own registers. -/
def Work.sySlot (w : Work) (s : Nat) : SySlot := w.dev.sync.slots.getD s .idle
def Work.setSySlot (w : Work) (s : Nat) (f : SySlot → SySlot) : Work := w.updSync (fun y => { y with slots := updAt f s y.slots })

/-- What follows when a wait is satisfied: a task's condition is met, a slot signals SY_OP_VEC (R308, R429). -/
def Work.satisfy (w : Work) (phys : Nat) (who : Waiter) : Work :=
  let w := w.count pgSy 1
  match who with
  | .task g t =>
    (w.setTask g t (fun x => { x with waitMet := true, waitRegistered := false, waitPhys := phys })).recheck
  | .slot s =>
    let w := w.setSySlot s (fun x => { x with waiting := false, outcome := 3, code := 0 })
    let v := w.rf pgSy .syOpVec 15 0 s
    if v = 0xFFFF then w
    else if s < 32 then w.message s v
    else w.coreInt (s - 32) 0

/-- Waits on an entry are tested after every operation on it (R290). -/
def Work.testWaits (w : Work) (phys : Nat) : Work :=
  let e := w.syEnt phys
  let due := w.dev.sync.waits.filter (fun x => x.phys == phys && !x.never && decide (0 ≤ serialDiff e.value.toNat x.target.toNat))
  let w := w.updSync (fun y => { y with waits := y.waits.filter (fun x => !due.contains x) })
  w.each due (fun x w => w.satisfy phys x.who)

/-- Register a wait, an operation of the store (R311): satisfied at once where the target is reached; beyond the limit it is not
applied, and never satisfied (R286). The flag: ERR_TALLY_RANGE. -/
def Work.registerWait (w : Work) (phys ctx id : Nat) (target : Word) (who : Waiter) : Bool × Work :=
  let e := w.syEnt phys
  let never := decide ((e.reachLimit : Int) < serialDiff target.toNat e.value.toNat)
  let x : SyWait := { phys := phys, ctx := ctx, id := id, target := target, who := who, since := w.dev.time, never := never,
                      reported := false, marked := false }
  let w := w.updSync (fun y => { y with waits := y.waits ++ [x] })
  if never then (true, w.raise pgSy .tallyRange ⟨1, some ctx, id, who.code w.dev, []⟩)
  else (false, (w.count pgSy 0).testWaits phys)

/-- Apply an operation's result to an entry: counted, its Bell counted, its waits tested; or its error raised (R311). -/
def Work.applyRes (w : Work) (phys ctx id sender : Nat) (r : SyRes) : Work :=
  match r with
  | .ok e rang => (((w.setEnt phys e).count pgSy 0).count pgSy 2 (b2n rang)).testWaits phys
  | .err c => w.raise pgSy c ⟨1, some ctx, id, sender, []⟩
  | .rej _ => w

/-! ### Tasks (R67, R283, R290) -/

/-- A task that waits on an object registers its wait once every other release condition holds. -/
def taskWaitRegisterWork (r : TaskRef) (w : Work) : Work :=
  match w.dev.graph? r.gid with
  | none => w
  | some g =>
    match g.task? r.task with
    | none => w
    | some t =>
      if t.state ≠ .waiting ∨ t.waitsObject = false ∨ t.waitRegistered ∨ t.waitMet ∨ w.dev.edgesMet g r.task = false then w
      else
        let ctx := g.ctx
        let code := w.dev.codeOf r.gid r.task
        let bad (w : Work) : Work :=
          (w.raise pgSy .syncXlate ⟨2, some ctx, t.waitObj, code, []⟩).failOnly r.gid r.task Err.syncXlate.code
        match w.object ctx t.waitObj with
        | (.here p _, w) =>
          if (w.syEnt p).kind = 0 then bad w
          else
            let w := w.setTask r.gid r.task (fun t => { t with waitRegistered := true, waitPhys := p })
            (w.registerWait p ctx t.waitObj (BitVec.ofNat 32 t.waitValue) (.task r.gid r.task)).2
        | (_, w) => bad w

/-- TASK_WAIT_REGISTER (R298). -/
def execTaskWaitRegister (t : TaskRef) (s : State) : Host.Outcome State Fault Refusal := s.run (taskWaitRegisterWork t)

/-- A task's signal reaches the store, or leaves for another device fenced (R290, R301). -/
def taskSignalWork (r : TaskRef) (w : Work) : Work :=
  match w.dev.anyTask? r.gid r.task with
  | none => w
  | some t =>
    match t.signalDue with
    | none => w
    | some b =>
      let w := w.passTo b
      let w := w.setTask r.gid r.task (fun t => { t with signalDue := none })
      let ctx := w.dev.ctxOf r.gid
      let code := w.dev.codeOf r.gid r.task
      match w.object ctx t.signalObj with
      | (.bad, w) => w.raise pgSy .syncXlate ⟨1, some ctx, t.signalObj, code, []⟩
      | (.here p _, w) => w.applyRes p ctx t.signalObj code ((w.syEnt p).add t.signalAdd)
      | (.remote d rctx rid, w) =>
        match w.reach d none with
        | .ok p => w.sendSignal p rctx d rid 1 t.signalAdd true []
        | .error n => w.raise pgEx .linkLost ⟨2, some ctx, code, codeNone, leBytes 1 n⟩

/-- TASK_SIGNAL (R290). -/
def execTaskSignal (t : TaskRef) (s : State) : Host.Outcome State Fault Refusal := s.run (taskSignalWork t)

/-! ### Operation slots (R285, R308) -/

/-- A CFG, MASK and VALUE that INIT may write (R284, R285). -/
def initOk (cfg mask value : Word) : Bool :=
  let ring := bitOf cfg 29
  let lim := fld cfg 15 0
  !bitOf cfg 28 && (match fld cfg 31 30 with
    | 0 => cfg == 0 && mask == 0 && value == 0
    | 1 => decide (1 ≤ lim) && mask == 0
    | 2 => !ring && decide (1 ≤ lim) && mask == 0
    | _ => !ring && lim == 0)

/-- Record an operation's outcome in a slot; `e`: the entry's VALUE after it (R310). -/
def Work.syEnd (w : Work) (s outcome code : Nat) (e : Option SyEnt) : Work :=
  w.setSySlot s (fun x => { x with outcome := outcome, code := code, value := (e.map (·.value)).getD x.value })

/-- End an operation by its result, applied already. -/
def Work.syDone (w : Work) (s phys : Nat) (r : SyRes) : Work :=
  let e := some (w.syEnt phys)
  match r with
  | .ok _ _ => w.syEnd s 1 0 e
  | .err c => w.syEnd s 2 c.code e
  | .rej c => w.syEnd s 4 c.code e

/-- Remove a slot's wait. -/
def Work.syUnwait (w : Work) (s : Nat) : Work :=
  (w.updSync (fun y => { y with waits := y.waits.filter (fun x => x.who != .slot s) })).setSySlot s (fun x => { x with waiting := false })

/-- An operation on a local entry. Log 70, DEDUCED: counting of slot operations (R310, R311). Log 71, DEDUCED: a WAIT that fails (R283, R308). -/
def Work.syLocal (w : Work) (s op ctx id phys thread : Nat) : Work :=
  let arg := w.reg pgSy .syOpArg s
  let e := w.syEnt phys
  let code := codeSlot s
  if e.kind = 0 ∧ op ≠ 3 then (w.raise pgSy .syncXlate ⟨1, some ctx, id, code, []⟩).syEnd s 2 Err.syncXlate.code none
  else match op with
    | 1 => let r := e.add (fld arg 15 0); (w.applyRes phys ctx id code r).syDone s phys r
    | 2 => let r := e.take (fld arg 15 0); (w.applyRes phys ctx id code r).syDone s phys r
    | 3 =>
      let cfg := w.reg pgSy .syOpInit s
      let mask := w.reg pgSy .syOpMask s
      if w.dev.sync.waits.any (fun x => x.phys == phys) then w.syEnd s 4 Rej.state.code (some e)
      else if initOk cfg mask arg = false then w.syEnd s 4 Rej.range.code (some e)
      else
        let ring : Bool := fld cfg 31 30 == 1 && bitOf cfg 29
        let n : SyEnt := ⟨arg, if ring then arg else 0, cfg, mask⟩
        ((w.setEnt phys n).count pgSy 0).syEnd s 1 0 (some n)
    | 4 => ((w.count pgSy 0).syEnd s 1 0 (some e)).setSySlot s (fun x => { x with aux := e.aux })
    | 5 =>
      let w := (w.syUnwait s).setSySlot s (fun x => { x with
        waiting := true, outcome := 1, code := 0, value := e.value, thread := thread })
      let (bad, w) := w.registerWait phys ctx id arg (.slot s)
      if bad then w.syEnd s 2 Err.tallyRange.code none else w
    | _ => (w.syUnwait s).syEnd s 1 0 none

/-- The operation that a write of SY_OP_CTL starts; it completes with the write (R308). -/
def Work.syOp (w : Work) (s op thread : Nat) (fence : Bool) : Except Rej Work :=
  let obj := w.reg pgSy .syOpObj s
  let ctx := if s < 32 then s else fld obj 28 24
  let id := fld obj 19 0
  let n := fld (w.reg pgSy .syOpArg s) 15 0
  if op = 0 ∨ 6 < op then .error .range
  else if isCellId id then .error .range
  else if (op = 1 ∨ op = 2) ∧ n = 0 then .error .range
  else if (w.sySlot s).busy then .error .state
  else
    let w := if op = 5 then w else w.setSySlot s (fun x => { x with thread := if x.waiting then x.thread else thread })
    match w.object ctx id with
      | (.bad, w) => .ok ((w.raise pgSy .syncXlate ⟨1, some ctx, id, codeSlot s, []⟩).syEnd s 2 Err.syncXlate.code none)
      | (.remote d rctx rid, w) =>
        if op = 6 then .ok ((w.syUnwait s).syEnd s 1 0 none)
        else if 3 ≤ op then .ok (w.syEnd s 4 Rej.range.code none)
        else match w.reach d none with
          | .ok p => .ok ((w.sendSignal p rctx d rid op n fence []).syEnd s 1 0 none)
          | .error _ => .ok (w.syEnd s 2 Err.linkLost.code none)
      | (.here p _, w) => .ok (w.syLocal s op ctx id p thread)

/-! ### Timeouts (R298, R299) -/

/-- Object and cell waits whose ERR_SYNC_TIMEOUT is due, with the time of it: on the first 1 µs tick that is late enough. -/
def SyWait.dueAt (x : SyWait) (w : Work) : Option Nat :=
  let t := (w.syEnt x.phys).timeoutUs
  if t = 0 ∨ x.reported then none else some (roundUp (x.since + t * 1000) 1000)
def CellWait.dueAt (x : CellWait) (w : Work) : Option Nat :=
  let t := w.cellWs x.cluster x.cell % 128
  if t = 0 ∨ x.reported ∨ x.wakeAt.isSome then none else some (roundUp (x.since + t * 1000) 1000)

def Work.reportWait (w : Work) (x : SyWait) : Work :=
  let w := w.updSync (fun y => { y with waits := y.waits.map (fun z => if z = x then { z with reported := true } else z) })
  (w.count pgSy 6).raise pgSy .syncTimeout ⟨1, some x.ctx, x.id, x.who.code w.dev, []⟩
def Work.reportCell (w : Work) (x : CellWait) : Work :=
  let w := w.updSync (fun y => { y with cellWaits := y.cellWaits.map (fun z => if z = x then { z with reported := true } else z) })
  let slot := ((w.dev.inst? x.iid).bind (·.slot)).getD 0
  let ctx := (w.dev.inst? x.iid).map (fun i => w.dev.ctxOf i.gid)
  w.raise ⟨.sy, x.at_⟩ .syncTimeout ⟨1, ctx, x.id, codeInst slot x.at_, leBytes 2 x.cluster⟩

/-- The earliest timeouts expire. Under the watchdog there are none. Log 88, DEDUCED: cell and object waits that are reported (R298, R299). -/
def syncTimeoutWork (w : Work) : Work :=
  if w.rb pgSy .syCfg 31 then w
  else
    let dues := w.dev.sync.waits.filterMap (fun x => x.dueAt w) ++ w.dev.sync.cellWaits.filterMap (fun x => x.dueAt w)
    match dues with
    | [] => w
    | d :: ds =>
      let w := w.passToTime (ds.foldl min d)
      let past (o : Option Nat) : Bool := match o with
        | some t => decide (t ≤ w.dev.time)
        | none => false
      let a := w.dev.sync.waits.filter (fun x => past (x.dueAt w))
      let b := w.dev.sync.cellWaits.filter (fun x => past (x.dueAt w))
      (w.each a (fun x w => w.reportWait x)).each b (fun x w => w.reportCell x)

/-- SYNC_TIMEOUT (R298). -/
def execSyncTimeout (s : State) : Host.Outcome State Fault Refusal := s.run syncTimeoutWork

/-- A watchdog tick: waits marked at the tick before are reported, the others are marked. -/
def watchdogTickWork (w : Work) : Work :=
  let P := w.rf pgSy .syCfg 15 0 * 1000
  if w.rb pgSy .syCfg 31 = false ∨ P = 0 then w
  else
    let t := max P (roundUp (max w.dev.time (w.dev.crier.lastWatch + 1)) P)
    let w := (w.passToTime t).upd (fun d => { d with crier := { d.crier with lastWatch := t } })
    let a := w.dev.sync.waits.filter (fun x => x.marked && !x.reported)
    let b := w.dev.sync.cellWaits.filter (fun x => x.marked && !x.reported && x.wakeAt.isNone)
    let w := (w.each a (fun x w => w.reportWait x)).each b (fun x w => w.reportCell x)
    w.updSync (fun y => { y with
      waits := y.waits.map (fun x => { x with marked := true }), cellWaits := y.cellWaits.map (fun x => { x with marked := true }) })

/-- WATCHDOG_TICK (R299). -/
def execWatchdogTick (s : State) : Host.Outcome State Fault Refusal := s.run watchdogTickWork

/-! ### Cells (R291, R296, R297, R312) -/

/-- Waits on a cell are tested after its value changes: those whose target it has reached are satisfied, and their instances' first
steps may issue 2 beats later under SLEEP and 1 under STALL. -/
def Work.testCell (w : Work) (c k : Nat) : Work :=
  let v := w.reg ⟨.sy, c⟩ .syCell k
  let lag := if w.cellWs c k / 128 = 1 then 1 else 2
  let due := w.dev.sync.cellWaits.filter (fun x => x.cluster == c && x.cell == k && x.wakeAt.isNone && !x.never
    && decide (0 ≤ serialDiff v.toNat x.target.toNat))
  let w := w.updSync (fun y => { y with
    cellWaits := y.cellWaits.map (fun x => if due.contains x then { x with wakeAt := some (w.dev.beat + lag) } else x) })
  w.each due (fun x w => (w.count ⟨.sy, x.at_⟩ 1).startInst x.iid)

/-- An add to a cell. -/
def Work.cellAdd (w : Work) (c k n : Nat) : Work :=
  ((w.setReg ⟨.sy, c⟩ .syCell (w.reg ⟨.sy, c⟩ .syCell k + BitVec.ofNat 32 n) k).count ⟨.sy, c⟩ 0).testCell c k

/-- The add that is due first lands; one that arrives in no pitch is dropped. -/
def cellAddLandWork (w : Work) : Work :=
  match w.dev.sync.adds.foldl (fun (b : Option CellAdd) a => match b with
    | none => some a
    | some x => if a.due < x.due then some a else some x) none with
  | none => w
  | some a =>
    let rec drop1 : List CellAdd → List CellAdd
      | [] => []
      | x :: t => if x = a then t else x :: drop1 t
    let w := (w.passTo a.due).updSync (fun y => { y with adds := drop1 y.adds })
    if (w.pitchAt a.cluster).isNone then w else w.cellAdd a.cluster a.cell a.n

/-- CELL_ADD_LAND (R296). -/
def execCellAddLand (s : State) : Host.Outcome State Fault Refusal := s.run cellAddLandWork

/-! ### Signals from other devices (R304 to R306) -/

def Parked.sent (p : Parked) : Nat := 2 ^ 31 + p.sender

/-- A remote ADD or TAKE reaches the store, or is refused. Log 94, DESIGN CHOICE: a signal's 10 beats from the receiving port to the store (R306). -/
def Work.remoteSignal (w : Work) (p : Parked) : Work :=
  let refuse (w : Work) : Work := (w.count pgSy 5).raise pgSy .signalRefused ⟨1, some p.ctx, p.rid, p.sent, []⟩
  if w.rb pgTt .ttCtxCfg 31 p.ctx = false then refuse w
  else match w.object p.ctx p.rid with
    | (.here ph true, w) =>
      let e := w.syEnt ph
      if e.kind = 0 then refuse w
      else if p.op = 2 then
        (if e.kind ≠ 1 ∨ e.ring = false then refuse w else w.applyRes ph p.ctx p.rid p.sent (e.take p.n))
      else w.applyRes ph p.ctx p.rid p.sent (e.add p.n)
    | (_, w) => refuse w

/-- The waiter registered longest on an object, as an error record names it. -/
def Work.oldestWaiter (w : Work) (ctx id : Nat) : Nat :=
  match w.object ctx id with
  | (.here ph _, w) => ((w.dev.sync.waits.find? (fun x => x.phys == ph)).map (fun x => x.who.code w.dev)).getD codeNone
  | _ => codeNone

/-- Signals of a port that are parked. -/
def Dev.parkedAt (d : Dev) (port : Nat) : List Parked := d.sync.parked.filter (fun p => p.port == port)

/-- Credit withheld from signals is owed again once a park entry is free (R303). -/
def Work.returnCredit (w : Work) (port : Nat) : Work :=
  w.whenB (decide ((w.dev.parkedAt port).length < 256)) (fun w => w.setPort port (fun q => { q with
    owed := updAt (· + q.withheld) 4 q.owed, withheld := 0 }))

/-- Discard a parked signal with an error (R305). -/
def Work.discardParked (w : Work) (p : Parked) (e : Err) : Work :=
  let rec drop1 : List Parked → List Parked
    | [] => []
    | x :: t => if x = p then t else x :: drop1 t
  let w := (w.updSync (fun y => { y with parked := drop1 y.parked })).returnCredit p.port
  w.raise pgSy e ⟨1, some p.ctx, p.rid, w.oldestWaiter p.ctx p.rid, leBytes 2 p.sender ++ [0, 0] ++ leBytes 4 p.fence⟩

/-- The signal parked longest in a port has waited SY_PARK_TO. -/
def parkTimeoutWork (port : Nat) (w : Work) : Work :=
  match w.dev.sync.parked.find? (fun p => p.port == port) with
  | none => w
  | some p => (w.passTo (p.since + w.rf pgSy .syParkTo 15 0 * 250)).discardParked p .signalParkTimeout

/-- PARK_TIMEOUT (R305). -/
def execParkTimeout (port : Nat) (s : State) : Host.Outcome State Fault Refusal := s.run (parkTimeoutWork port)

/-! ### Invalidation (R283) -/

def syXlateInvDoneWork (w : Work) : Work :=
  match w.dev.sync.invDue with
  | none => w
  | some ctx => w.updSync (fun y => { y with invDue := none, held := dropRange (ctx * 2 ^ 48) ((ctx + 1) * 2 ^ 48) y.held })

/-- SY_XLATE_INV_DONE (R283). -/
def execSyXlateInvDone (s : State) : Host.Outcome State Fault Refusal := s.run syXlateInvDoneWork

/-! ### A stopped thread (R432, R433) -/

/-- Log 86, DEDUCED: a thread stopped by a fault (R432). -/
def threadFaultWork (n slot addr : Nat) (w : Work) : Work :=
  let c := w.core n
  if (c.thread slot).state = .empty then w
  else
    let w := w.setCore n (c.unready slot .blocked)
    let s := 32 + n
    let deal : Bool := (w.deal_ s).state == .opened && (w.deal_ s).thread == slot
    let wait : Bool := (w.sySlot s).waiting && (w.sySlot s).thread == slot
    let w := if deal then w.abandonDeal s else w
    let w := if wait then w.syUnwait s else w
    w.raise ⟨.cc, n⟩ .ccFault ⟨1, none, slot, 0xFFFFFFFF, leBytes 6 addr ++ leBytes 1 (b2n deal + 2 * b2n wait)⟩

/-- THREAD_FAULT (R432, R433). -/
def execThreadFault (core slot addr : Nat) (s : State) : Host.Outcome State Fault Refusal := s.run (threadFaultWork core slot addr)

end Sys2Proof.Machine
end

