-- ==== Sys2Proof/Machine/Links.lean ====
section
/-! DEFINITION. Tlagiur links and ports: flits received and resent (R357 to R360, R363), failures of links and loss of ports (R367,
R368), and bringing a link up (R365, R366, R369, R370). What a lost port does to the Exchange is in Exchange.lean. -/

namespace Sys2Proof.Machine

/-! ### Links of a port -/

def Port.link? (q : Port) (l : Nat) : Option PLink := q.links.find? (fun x => x.num == l)
def Work.setLink (w : Work) (p l : Nat) (f : PLink → PLink) : Work :=
  w.setPort p (fun q => { q with links := updFirst (fun x => x.num == l) f q.links })

/-- The partner device of a port, as its links name it. -/
def Port.partner (q : Port) : Nat := (q.links.head?.map (·.partnerDevice)).getD 0

/-- An error of a TP page: link or port as object, partner device as requester, a reason in detail byte 24 (R387). -/
def Work.tpError (w : Work) (p : Nat) (e : Err) (obj reason : Nat) : Work :=
  w.raise ⟨.tp, p⟩ e ⟨1, none, obj, (w.port p).partner, leBytes 1 reason⟩

/-! ### Resending (R358, R359) -/

/-- Resend a flit of the replay buffer on the live link whose turn it is. -/
def Work.resend (w : Work) (p : Nat) (r : Replay) : Work :=
  let q := w.port p
  let link := q.turnLink
  let w := w.setPort p (fun q => { q with
    rotate := q.rotate + 1, replay := updFirst (fun x => x.fseq == r.fseq) (fun x => { x with link := link }) q.replay })
  (w.count ⟨.tp, p⟩ 3).sendFlit p link r.fseq 1 r.slots

/-- Send a NAK for the lowest missing FSEQ. -/
def Work.sendNak (w : Work) (p : Nat) : Work :=
  let q := w.port p
  w.sendFlit p q.turnLink q.fseq 2 (leBytes 2 q.rxNext)

/-- Serial difference of two 16-bit numbers. -/
def diff16 (a b : Nat) : Int :=
  let d : Nat := (a + 65536 - b % 65536) % 65536
  if d < 32768 then (d : Int) else (d : Int) - 65536

/-! ### Packets out of slots (R360) -/

/-- Header slots of a packet type; a packet of an unknown type is taken to have one (log 33, DEDUCED). -/
def headSlots (ptype : Nat) : Nat :=
  match ptype with
  | 1 | 2 | 4 | 5 | 7 => 2
  | 9 => 4
  | _ => 1

/-- Take whole packets off delivered slots; an all-zero header slot carries no packet. The rest is kept. -/
def takePackets : Nat → List Byte → List (List Byte) × List Byte
  | 0, b => ([], b)
  | n + 1, b =>
    if b.length < 16 then ([], b)
    else if zeroBytes b 0 16 then takePackets n (b.drop 16)
    else
      let need := 16 * (headSlots (byteAt b 0) + byteAt b 2)
      if b.length < need then ([], b)
      else
        let (ps, rest) := takePackets n (b.drop need)
        (b.take need :: ps, rest)

/-- Deliver DATA flits in FSEQ order, and reassemble their packets. Packets of unknown type are dropped and counted. -/
def Work.deliver (w : Work) (p : Nat) : Nat → Work
  | 0 => w
  | n + 1 =>
    let q := w.port p
    match q.reorder.find? (fun x => x.1 == q.rxNext) with
    | none => w
    | some (f, slots) =>
      let (ps, rest) := takePackets 4096 (q.rxBytes ++ slots)
      let known := ps.filter (fun b => (classOf (byteAt b 0)).isSome || byteAt b 0 == 9)
      let w := w.setPort p (fun q => { q with
        reorder := q.reorder.filter (fun x => x.1 != f), rxNext := (q.rxNext + 1) % 65536, rxBytes := rest
        packets := q.packets ++ known })
      ((w.count ⟨.tp, p⟩ 1).count ⟨.tp, p⟩ 8 (ps.length - known.length)).deliver p n

/-! ### Losing links and ports (R305, R366 to R368) -/

/-- A port is lost: what it held is discarded. Reads, parked signals and collectives through it end after this (R368). -/
def Work.dropPort (w : Work) (p : Nat) : Work :=
  let n := (w.port p).replay.length
  let w := w.setPort p (fun q => { q with
    state := .lost, replay := [], queued := [], reorder := [], rxBytes := [], packets := [], gapSince := none
    links := q.links.map (fun l => if l.state == .live then { l with state := .failed } else l) })
  let w := w.count ⟨.tp, p⟩ 6 n
  w.tpError p .linkLost p 0

/-- Remote reads in flight through a lost port (R114). -/
def Work.loseReads (w : Work) (p : Nat) : Work :=
  let fs := w.dev.fetches.filter (fun f => match f.remote with
    | some (d, _) => w.dev.route d == some p
    | none => false)
  w.each fs (fun f w =>
    let stale := w.stale f
    let w := w.dropFetch f.id
    match w.dev.inst? f.iid with
    | some i => if stale then w else w.failInst i ⟨.gu, f.cluster⟩ .linkLost (leBytes 1 0)
    | none => w)

/-- Parked signals of a lost port are discarded, each with ERR_LINK_LOST. -/
def Work.loseParked (w : Work) (p : Nat) : Work :=
  w.each (w.dev.sync.parked.filter (fun x => x.port == p)) (fun x w => w.discardParked x .linkLost)

/-! ### Flits in (R357, R359) -/

/-- The ACK and the credit that every good flit carries. -/
def Work.takeAck (w : Work) (p : Nat) (b : List Byte) : Work :=
  let ack := bytesAt b 2 2
  let cls := byteAt b 5 % 8
  let n := bytesAt b 6 2
  let q := w.port p
  let left := q.replay.filter (fun r => decide (0 < diff16 r.fseq ack))
  let w := w.setPort p (fun q => { q with
    ackAt := if left.length < q.replay.length then w.dev.beat else q.ackAt, replay := left
    credits := updAt (· + n) cls q.credits })
  w.drainQueue p

/-- A good flit by its type. Log 81, DEDUCED: links (R356 to R373). -/
def Work.takeFlit (w : Work) (p : Nat) (b : List Byte) : Work :=
  let fseq := bytesAt b 0 2
  let q := w.port p
  match byteAt b 4 with
  | 1 =>
    let w := if diff16 fseq q.rxNext < 0 ∨ q.reorder.any (fun x => x.1 == fseq) then w
      else w.setPort p (fun q => { q with reorder := q.reorder ++ [(fseq, (b.drop 8).take 240)] })
    let w := w.deliver p ((w.port p).reorder.length + 1)
    w.setPort p (fun q => { q with gapSince := if q.reorder = [] then none else some (q.gapSince.getD w.dev.beat) })
  | t =>
    let w := match q.replay.find? (fun r => decide (t = 2) && r.fseq == bytesAt b 8 2) with
      | some r => w.resend p r
      | none => w
    if 0 < diff16 fseq q.rxNext then w.setPort p (fun q => { q with gapSince := some (q.gapSince.getD w.dev.beat) }) else w

/-! ### Coming up (R364, R366, R369, R370) -/

/-- Features this device offers (R369). -/
def ownFeatures : Nat := 0x1D

/-- The SEC_VERSION of HELLO: the lower of the booted BT_FW and CC_FW security versions (R448). -/
def Boot.helloSec (b : Boot) : Nat := min ((b.secOf 0).getD 0) ((b.secOf 1).getD 0)

/-- HELLO as this device sends it on a link. -/
def Work.helloBytes (w : Work) (p link : Nat) : List Byte :=
  let sec := w.dev.boot.helloSec
  let b := leBytes 1 9 ++ leBytes 1 2 ++ leBytes 1 3 ++ leBytes 1 1 ++ leBytes 2 ownFeatures ++ leBytes 2 w.self ++ leBytes 1 p
    ++ leBytes 1 link ++ leBytes 2 (w.rf pgEx .exFabricGen 15 0) ++ leBytes 4 sec ++ leBytes 16 w.dev.exch.digest
    ++ leBytes 4 (w.reg pgCr .crEpochNum).toNat ++ leBytes 5 (w.dev.time % 2 ^ 40) ++ leBytes 1 (b2n w.unlocked)
  padTo 64 b

/-- Send HELLO on a link. -/
def Work.sendHello (w : Work) (p link : Nat) : Work :=
  (w.setLink p link (fun l => { l with helloSentAt := w.dev.beat })).say (.hello p link (w.helloBytes p link))

/-- A link that is down and belongs to a port that trains or runs completes training, and sends HELLO. -/
def linkTrainedWork (p link : Nat) (alternate : Bool) (w : Work) : Work :=
  let q := w.port p
  match q.link? link with
  | some l =>
    if l.state = .down ∧ l.trained = false ∧ p < 16 ∧ (q.state = .training ∨ q.state.open) then
      (w.setLink p link (fun l => { l with trained := true, method := alternate, helloSeen := false, heard := false, crcRun := 0 })).sendHello p link
    else w
  | none => w

/-- LINK_TRAINED (R369). -/
def execLinkTrained (port link : Nat) (alternate : Bool) (s : State) : Host.Outcome State Fault Refusal :=
  s.run (linkTrainedWork port link alternate)

/-- HELLO is repeated every 256 beats until each side has received the other's; a flit shows that the partner has. -/
def helloRepeatWork (p link : Nat) (w : Work) : Work :=
  match (w.port p).link? link with
  | some l =>
    if l.trained ∧ (l.helloSeen = false ∨ l.heard = false) then (w.passTo (l.helloSentAt + 256)).sendHello p link else w
  | none => w

/-- HELLO_REPEAT (R369). -/
def execHelloRepeat (port link : Nat) (s : State) : Host.Outcome State Fault Refusal := s.run (helloRepeatWork port link)

/-- The outcome of R370's checks, in the order of the table. -/
inductive Hello where
  | miswired | noVersion | quarantined (reason : Nat) | up (version features : Nat)
  deriving DecidableEq, Repr

def Work.helloOutcome (w : Work) (l : PLink) (m : HelloMsg) : Hello :=
  if m.device % 4096 ≠ l.partnerDevice ∨ m.port ≠ l.partnerPort ∨ m.link ≠ l.partnerLink ∨ m.kind ≠ l.partnerKind then .miswired
  else
    let lo := max 2 m.vmin
    let hi := min 3 m.vmax
    if hi < lo then .noVersion
    else if m.digest ≠ w.dev.exch.digest then .quarantined 3
    else if m.secVersion < w.dev.exch.secFloor then .quarantined 4
    else .up hi (Nat.land ownFeatures m.features)

/-- A port that joins its first link starts its numbering and its credit afresh (R362, R364). -/
def freshPort (q : Port) (st : PortState) (version features beat : Nat) : Port :=
  { q with
    state := st, version := version, features := features, fseq := 0, replay := [], ackAt := beat, rxNext := 0, reorder := []
    gapSince := none, rxBytes := [], packets := [], owed := [0, 0, 0, 0, 0, 0], withheld := 0, crNext := 0, rotate := 0, queued := []
    watermark := [], pwtx := [], ackSent := 65535
    credits := if st = .quarantined then [1024, 0, 0, 0, 0, 10240] else creditDivision }

/-- A link joins its port, which the first one brings up; a later one whose outcome differs joins only if it would be UP. -/
def Work.joinLink (w : Work) (p link : Nat) (o : Hello) : Work :=
  let q := w.port p
  let live (w : Work) : Work := (w.setLink p link (fun l => { l with state := .live, lastRx := w.dev.beat, crcRun := 0 })).setPort p Port.settled
  let wrong (w : Work) : Work := (w.setLink p link (fun l => { l with state := .miswired })).setPort p Port.settled
  match o with
  | .up v f =>
    if q.state = .training then
      let w := w.setPort p (fun q => freshPort q .up v f w.dev.beat)
      live (w.setReg pgCr .crPortOfs 0 p)
    else live w
  | .quarantined n =>
    let w := w.tpError p .linkHandshake link n
    if q.state = .training then live (w.setPort p (fun q => freshPort q .quarantined 0 0 w.dev.beat))
    else if q.state = .quarantined then live w
    else wrong w
  | .miswired => wrong (w.tpError p .linkHandshake link 1)
  | .noVersion =>
    let w := w.tpError p .linkHandshake link 2
    if q.state = .training then w.setPort p Port.settled else wrong w

/-- The partner's state as last received (R386). -/
def Work.peer (w : Work) (p : Nat) (m : HelloMsg) : Work :=
  let pg : Page := ⟨.tp, p⟩
  let w := w.setReg pg .tpPeerSec (BitVec.ofNat 32 m.secVersion)
  let w := w.setReg pg .tpPeerEpoch (BitVec.ofNat 32 m.epoch)
  let w := w.setReg pg .tpPeerGen (atBit (m.fabricGen % 65536) 0)
  let w := w.setPort p (fun q => { q with offers := m.features % 65536 })
  w.each (List.range 4) (fun k w => w.setReg pg .tpPeerDigest (BitVec.ofNat 32 (m.digest / 2 ^ (32 * k))) k)

/-- A partner's offset against the bound: a disagreement sets TIME_UNLOCKED (R324). -/
def Work.judgePartner (w : Work) (p : Nat) (offset : Int) : Work :=
  let bad := decide (w.rf pgCr .crLock 15 0 < offset.natAbs)
  let w := w.crier (fun c => { c with disagree := c.disagree.filter (· != p) ++ (if bad then [p] else []) })
  if bad then w.setUnlocked (some p) else w

/-- A HELLO arrives on a trained link. -/
def helloWork (p link : Nat) (m : HelloMsg) (w : Work) : Work :=
  let q := w.port p
  match q.link? link with
  | some l =>
    if p < 16 ∧ l.trained ∧ l.state = .down ∧ (q.state = .training ∨ q.state.open) then
      let w := (w.peer p m).setLink p link (fun l => { l with helloSeen := true })
      let o := w.helloOutcome l m
      let w := match o with
        | .up _ f => w.whenB (f % 2 == 1 || m.features / 2 % 2 == 1) (fun w => w.judgePartner p (d40 m.time w.dev.time))
        | _ => w
      w.joinLink p link o
    else w
  | none => w

/-- HELLO (R370). -/
def execHello (port link : Nat) (m : HelloMsg) (s : State) : Host.Outcome State Fault Refusal := s.run (helloWork port link m)

/-! ### TP_CTL (R366, R367, R386) -/

/-- RETRAIN of the whole port: rejected in UP, DEGRADED and TRAINING. -/
def Work.retrain (w : Work) (p : Nat) : Except Rej Work :=
  match (w.port p).state with
  | .up | .degraded | .training => .error .state
  | _ => .ok (w.setPort p (fun q => { q with
      state := .training
      links := q.links.map (fun l => { l with state := .down, trained := false, helloSeen := false, crcRun := 0 }) }))

/-- REJOIN of member links, which must have FAILED. -/
def Work.rejoin (w : Work) (p mask : Nat) : Except Rej Work :=
  let q := w.port p
  let named (i : Nat) : Bool := mask / 2 ^ i % 2 == 1
  if (List.range 16).any (fun i => named i && ((q.links[i]?).map (·.state)) != some .failed) then .error .state
  else .ok (w.setPort p (fun q => { q with links := q.links.mapIdx (fun i l =>
    if named i then { l with state := .down, trained := false, helloSeen := false, crcRun := 0 } else l) }))

end Sys2Proof.Machine
end

