-- ==== Sys2Proof/Machine/Exchange.lean ====
section
/-! DEFINITION. The Exchange: groups (R374), collectives (R377 to R382), and what a failed link or port ends (R367, R368). A collective
moves on as its steps arrive: at each event the member reads, announces, sends and applies all that has become possible. -/

namespace Sys2Proof.Machine

def Work.exch (w : Work) (f : Exchange → Exchange) : Work := w.upd (fun d => { d with exch := f d.exch })
def Dev.coll? (d : Dev) (gid ti : Nat) : Option Coll := d.exch.colls.find? (fun c => c.gid == gid && c.ti == ti)
def Work.setColl (w : Work) (gid ti : Nat) (f : Coll → Coll) : Work :=
  w.exch (fun x => { x with colls := updFirst (fun c => c.gid == gid && c.ti == ti) f x.colls })

/-- The valid group with a fabric group ID. -/
def Work.groupOf (w : Work) (fabricId : Nat) : Option Nat :=
  (List.range 256).find? (fun g => w.grpValid g && w.grpId g == fabricId)

/-- Member r of a group: device, context, pitch (R374). -/
def Dev.member (d : Dev) (g r : Nat) : Option (Nat × Nat × Nat) :=
  ((d.exch.members.find? (fun m => m.group == g)).bind (fun m => m.entries[r]?)).map (fun e => (fld e 11 0, fld e 16 12, fld e 21 17))

/-! ### The parameters of a collective (R375, R377, R378) -/

structure CollPar where
  p : Nat
  r : Nat
  cop : Nat
  rop : Nat
  fmt : Fmt
  u32 : Bool
  els : Nat
  src : Nat
  dst : Nat
  root : Nat
  deriving DecidableEq, Repr

def Work.collPar (w : Work) (t : Task) : CollPar :=
  let g := t.f 64 1
  ⟨w.grpSize g, w.grpRank g, t.f 65 1, t.f 66 1, if t.f 67 1 = 2 then .bf16 else .fp32, fieldN (t.f 68 1) 0 0 == 1, t.f 88 4, t.f 72 8,
   t.f 80 8, t.f 70 2⟩

/-- Bytes of an element. -/
def CollPar.es (x : CollPar) : Nat := x.fmt.bits / 8
/-- Bytes of DST. -/
def CollPar.dstBytes (x : CollPar) : Nat := if x.cop = 5 then 0 else (if x.cop = 3 then x.p else 1) * x.els * x.es

/-- Chunk c of ALLREDUCE: byte offset and length (R378). -/
def CollPar.cut (x : CollPar) (c : Nat) : Nat × Nat :=
  let q := x.els / 32
  (32 * (c * (q / x.p) + min c (q % x.p)) * x.es, 32 * (q / x.p + b2n (decide (c < q % x.p))) * x.es)

/-- Place in the chain from the root. -/
def CollPar.place (x : CollPar) : Nat := (x.r + x.p - x.root % x.p) % x.p

/-- Steps this member sends, and receives. -/
def CollPar.sends (x : CollPar) : Nat :=
  match x.cop with
  | 1 => 2 * (x.p - 1)
  | 2 | 3 => x.p - 1
  | 4 => b2n (decide (x.place + 1 < x.p))
  | _ => 0
def CollPar.recvs (x : CollPar) : Nat :=
  match x.cop with
  | 4 => b2n (decide (x.place ≠ 0))
  | _ => x.sends

/-- Steps that must have been applied before step s can be sent. -/
def CollPar.needs (x : CollPar) (s : Nat) : Nat := if x.cop = 4 then x.recvs else s

/-- A piece of a step: from SRC or not, byte offset at this member, length, byte offset in the receiver's DST. -/
structure Piece where
  fromSrc : Bool
  off : Nat
  len : Nat
  dest : Nat
  deriving DecidableEq, Repr

/-- What step s sends. The manual fixes which chunk each member ends with; the order of the chunks is the model's (log 34, DEDUCED). -/
def CollPar.sendPiece (x : CollPar) (s : Nat) : Piece :=
  let n := x.els * x.es
  match x.cop with
  | 1 =>
    if s + 1 < x.p then
      let (o, l) := x.cut ((x.r + x.p - 1 - s) % x.p)
      ⟨s == 0, o, l, o⟩
    else
      let (o, l) := x.cut ((x.r + x.p - (s + 1 - x.p)) % x.p)
      ⟨false, o, l, o⟩
  | 2 => if s = 0 then ⟨true, (x.r + x.p - 1) % x.p * n, n, 0⟩ else ⟨false, 0, n, 0⟩
  | 3 => let c := (x.r + x.p - s) % x.p; ⟨false, c * n, n, c * n⟩
  | _ => ⟨x.place == 0, 0, n, 0⟩

/-- What step s receives: its range of DST, the range of SRC combined with it, and whether its values are final. -/
structure Arrival where
  off : Nat
  len : Nat
  combine : Option Nat
  final : Bool
  deriving DecidableEq, Repr

def CollPar.arrival (x : CollPar) (s : Nat) : Arrival :=
  let n := x.els * x.es
  match x.cop with
  | 1 =>
    if s + 1 < x.p then
      let (o, l) := x.cut ((x.r + 2 * x.p - 2 - s) % x.p)
      ⟨o, l, some o, s + 2 == x.p⟩
    else
      let (o, l) := x.cut ((x.r + x.p - 1 - (s + 1 - x.p)) % x.p)
      ⟨o, l, none, true⟩
  | 2 => ⟨0, n, some ((x.r + 2 * x.p - 2 - s) % x.p * n), s + 2 == x.p⟩
  | 3 => let c := (x.r + x.p - 1 - s) % x.p; ⟨c * n, n, none, true⟩
  | _ => ⟨0, n, none, true⟩

def ropOf (rop : Nat) : Scatter := if rop = 2 then .max else if rop = 3 then .min else .add

/-- Combine two rows of elements (R377): in FP32 or in 32 bits, rounded to FORMAT when written. -/
def combineBytes (rop : Nat) (u32 : Bool) (f : Fmt) (a b : List PByte) : List PByte :=
  let n := b.length / (f.bits / 8)
  encodeElems u32 f (((rowElems u32 f n a).zip (rowElems u32 f n b)).map (fun (x, y) => scatterElem (ropOf rop) u32 x y))

/-! ### Failure (R381, R382) -/

/-- The Exchange as reader: the task, and no cluster. -/
def Work.exReader (w : Work) (gid ti : Nat) : Reader := ⟨some (w.dev.ctxOf gid), w.dev.codeOf gid ti, 0xFFFFFFFF⟩

/-- An error of a COLLECTIVE task: the group's fabric ID as requester (R389). -/
def Work.exFail (w : Work) (gid ti g : Nat) (e : Err) (detail : List Byte) : Work :=
  w.failTask gid ti pgEx e (w.grpId g) detail

/-- Mark a granule poisoned; its bits carry no meaning and are left (R51). -/
def Work.poisonVa (w : Work) (ctx va : Nat) (r : Reader) : Work :=
  match w.translate ctx va true r with
  | (some (.dev a), w) =>
    match w.phys a with
    | .cell key ctl => (w.whenB (isMemCtl ctl) (fun w => w.count ctl 2)).emit [.dead (key / 64) false, .poison false (key / 64) true]
    | _ => w
  | (some (.host a), w) => if w.linkUp then w.emit [.poison true (a / 64) true] else w
  | (none, w) => w

/-- Every granule of DST without final values is written poisoned, and counted. -/
def Work.poisonDst (w : Work) (c : Coll) (t : Task) : Work :=
  let x := w.collPar t
  let ks := (List.range (x.dstBytes / 64)).filter (fun k => !c.finalBytes.any (fun (o, l) => decide (o ≤ 64 * k) && decide (64 * k + 64 ≤ o + l)))
  let w := w.poisonWrote c.gid ks.length
  let ctx := w.dev.ctxOf c.gid
  let r := w.exReader c.gid c.ti
  w.each ks (fun k w => w.poisonVa ctx (x.dst + 64 * k) r)

/-- ABORT to every other member that a port reaches, once for a group and GEN. -/
def Work.abortOthers (w : Work) (g gen code origin : Nat) : Work :=
  let w := w.exch (fun x => { x with aborts := x.aborts ++ [(g, gen)] })
  w.each ((w.dev.groupDevices g).eraseDups.filter (· != w.self)) (fun d w => w.sendAbort d (w.grpId g) gen code origin)

/-- A participant ends with its unfinished DST poisoned (R382). -/
def Work.endParticipant (w : Work) (c : Coll) (e : Err) (detail : List Byte) : Work :=
  match w.dev.anyTask? c.gid c.ti with
  | some t => (w.poisonDst c t).exFail c.gid c.ti c.group e detail
  | none => w

/-- A port or route a collective sends through is gone: the task fails, and the other members are told. -/
def Work.collLost (w : Work) (c : Coll) (reason : Nat) : Work :=
  (w.endParticipant c .linkLost (leBytes 1 reason)).abortOthers c.group c.gen Err.linkLost.code w.self

/-- A collective whose members disagree (R378): it fails, and the others are told. -/
def Work.collRefuse (w : Work) (c : Coll) : Work :=
  (w.exFail c.gid c.ti c.group .collRefused []).abortOthers c.group c.gen Err.collRefused.code w.self

/-! ### Sending -/

/-- WRITE packets of a string to an address of another member (R361, R364). -/
def Work.sendWrites (w : Work) (p dst ctx va g gen step : Nat) (l : List PByte) : Work :=
  let gid := w.grpId g
  let w := w.count pgEx 1 l.length
  w.each ((chunksOf 256 l).zipIdx) (fun (ch, k) w =>
    let (pw, w) := w.nextPw p dst
    w.sendPacket p (mkPacket 1 (poisonMap ch) ctx dst w.self (leBytes 6 (va + 256 * k) ++ leBytes 2 gen)
      (some (leBytes 4 pw ++ leBytes 2 gid ++ leBytes 2 step)) (ch.map (·.1))))

/-- STEP or READY to a member. -/
def Work.sendStep (w : Work) (c : Coll) (t : Task) (p dst ctx op step : Nat) : Work :=
  w.sendSignal p ctx dst 0 op 0 (op == 3) (leBytes 2 (w.grpId c.group) ++ leBytes 2 step ++ leBytes 2 c.gen ++ leBytes 1 (t.f 65 1)
    ++ leBytes 1 (t.f 67 1) ++ leBytes 4 (t.f 88 4))

/-- The ranks a member sends to and receives from. -/
def CollPar.next (x : CollPar) : Nat := (x.r + 1) % x.p
def CollPar.prev (x : CollPar) : Nat := (x.r + x.p - 1) % x.p

/-- Read bytes of the task's memory, with its poison count and its policy (R57, R269). -/
def Work.collRead (w : Work) (c : Coll) (va n : Nat) : Option (List PByte) × Work :=
  match w.readVa (w.dev.ctxOf c.gid) va n (w.exReader c.gid c.ti) with
  | (.error e, w) => (none, w.exFail c.gid c.ti c.group .xlate (leBytes 8 e))
  | (.ok l, w) =>
    let w := w.poisonRead c.gid (poisonGranules va l)
    if c.stopPolicy && l.any (·.2) then
      (none, w.exFail c.gid c.ti c.group .poisonStop (leBytes 6 (firstPoison va l)))
    else (some l, w)

/-- Write bytes of the task's memory. -/
def Work.collWrite (w : Work) (c : Coll) (va : Nat) (l : List PByte) : Work :=
  match w.writeVa (w.dev.ctxOf c.gid) va l (w.exReader c.gid c.ti) with
  | (.error e, w) => w.exFail c.gid c.ti c.group .xlate (leBytes 8 e)
  | (.ok _, w) => w.poisonWrote c.gid (poisonGranules va l)

/-- Copy SRC into a range of DST, whose values are then final. -/
def Work.collCopy (w : Work) (c : Coll) (src dst off n : Nat) : Work :=
  match w.collRead c src n with
  | (some l, w) => (w.collWrite c (dst + off) l).setColl c.gid c.ti (fun c => { c with finalBytes := c.finalBytes ++ [(off, n)] })
  | (none, w) => w

/-! ### Moving on (R378) -/

/-- The chunk of the next step to be sent is read once the step it waits for has been applied. -/
def Work.collLoad (w : Work) (c : Coll) (x : CollPar) : Work :=
  let s := x.sendPiece c.sent
  match (if s.len = 0 then (some [], w) else w.collRead c ((if s.fromSrc then x.src else x.dst) + s.off) s.len) with
  | (some l, w) => w.setColl c.gid c.ti (fun c => { c with buf := some l })
  | (none, w) => w

/-- READY for the next step: the range of DST it writes has been read, or was never used. -/
def Work.collReady (w : Work) (c : Coll) (t : Task) (x : CollPar) : Work :=
  match w.dev.member c.group x.prev with
  | none => w
  | some (d, ctx, _) =>
    match w.reach d none with
    | .error n => w.collLost c n
    | .ok p => (w.setColl c.gid c.ti (fun c => { c with readySent := c.readySent + 1 })).sendStep c t p d ctx 4 c.readySent

/-- Send the chunk that is read, and STEP after it. The receiver's DST is taken to lie where this member's does (log 34, DEDUCED). -/
def Work.collSend (w : Work) (c : Coll) (t : Task) (x : CollPar) (l : List PByte) : Work :=
  match w.dev.member c.group x.next with
  | none => w
  | some (d, ctx, _) =>
    match w.reach d none with
    | .error n => w.collLost c n
    | .ok p =>
      let w := w.sendWrites p d ctx (x.dst + (x.sendPiece c.sent).dest) c.group c.gen c.sent l
      (w.sendStep c t p d ctx 3 c.sent).setColl c.gid c.ti (fun c => { c with sent := c.sent + 1, buf := none })

/-- The collective completes. -/
def Work.collDone (w : Work) (c : Coll) : Work := (w.count pgEx 0).doneTask c.gid c.ti

/-- Do what has become possible, one thing at a time. -/
def Work.collMove (gid ti : Nat) : Nat → Work → Work
  | 0, w => w
  | n + 1, w =>
    match w.dev.coll? gid ti, w.dev.anyTask? gid ti with
    | some c, some t =>
      let x := w.collPar t
      if c.buf.isNone ∧ c.sent < x.sends ∧ x.needs c.sent ≤ c.applied then Work.collMove gid ti n (w.collLoad c x)
      else if c.readySent < x.recvs ∧ c.readySent ≤ c.applied
          ∧ (x.cop = 4 ∨ c.readySent < c.sent ∨ (c.readySent = c.sent ∧ c.buf.isSome)) then
        Work.collMove gid ti n (w.collReady c t x)
      else
        match c.buf with
        | some l =>
          if c.readySeen.contains c.sent then Work.collMove gid ti n (w.collSend c t x l) else w
        | none => if c.sent = x.sends ∧ c.applied = x.recvs ∧ x.cop ≠ 5 then w.collDone c else w
    | _, _ => w

/-- Enough turns for every step of the collective. -/
def Work.collGo (w : Work) (gid ti : Nat) : Work :=
  match w.dev.anyTask? gid ti with
  | some t => Work.collMove gid ti (4 * (w.collPar t).sends + 8) w
  | none => w

/-- The next step is released: its chunk is combined where the step reduces. -/
def Work.collApply (w : Work) (c : Coll) (t : Task) : Work :=
  let x := w.collPar t
  let a := x.arrival c.applied
  let fin (w : Work) : Work :=
    (w.setColl c.gid c.ti (fun c => { c with
      applied := c.applied + 1, finalBytes := if a.final then c.finalBytes ++ [(a.off, a.len)] else c.finalBytes })).collGo c.gid c.ti
  match a.combine with
  | none => fin w
  | some so =>
    if a.len = 0 then fin w
    else match w.collRead c (x.src + so) a.len with
      | (none, w) => w
      | (some own, w) =>
        match w.collRead c (x.dst + a.off) a.len with
        | (none, w) => w
        | (some got, w) => fin (w.collWrite c (x.dst + a.off) (combineBytes x.rop x.u32 x.fmt got own))

/-! ### HALO (R380) -/

/-- A halo entry's fields. -/
structure Halo where
  rank : Nat
  rows : Nat
  src : Nat
  dst : Nat
  rowBytes : Nat
  stride : Nat
  deriving DecidableEq, Repr

def haloOf (b : List PByte) : Halo := ⟨pbNat b 0 2, pbNat b 4 4, pbNat b 8 8, pbNat b 16 8, pbNat b 24 4, pbNat b 28 4⟩

/-- An entry that breaks a field rule. -/
def Halo.bad (h : Halo) (b : List PByte) (x : CollPar) : Bool :=
  b.any (·.2) || decide (h.rank = x.r) || decide (x.p ≤ h.rank) || decide (pbNat b 2 2 ≠ 0) || decide (h.rows = 0) || decide (65536 < h.rows)
    || decide (h.src % 4 ≠ 0) || decide (h.dst % 4 ≠ 0) || decide (h.rowBytes % 4 ≠ 0) || decide (h.rowBytes % x.es ≠ 0)
    || decide (h.rowBytes < 4) || decide (65536 < h.rowBytes)
    || (if h.rows = 1 then decide (h.stride ≠ 0) else decide (h.stride < h.rowBytes))

/-- Rows of an entry, from row k on. -/
def Work.haloRows (w : Work) (c : Coll) (h : Halo) (p d ctx : Nat) (k : Nat) : Nat → Work
  | 0 => w
  | n + 1 =>
    match w.collRead c (h.src + k * h.stride) h.rowBytes with
    | (none, w) => w
    | (some l, w) => (w.sendWrites p d ctx (h.dst + k * h.stride) c.group c.gen 0 l).haloRows c h p d ctx (k + 1) n

/-- The collective still runs. -/
def Work.collLive (w : Work) (c : Coll) : Bool := (w.dev.coll? c.gid c.ti).isSome

/-- Send entry k of the list; the device it goes to is noted. -/
def Work.haloEntry (w : Work) (c : Coll) (t : Task) (k : Nat) : Work :=
  let x := w.collPar t
  match w.readVa (w.dev.ctxOf c.gid) (t.f 92 8 + 32 * k) 32 (w.exReader c.gid c.ti) with
  | (.error e, w) => w.exFail c.gid c.ti c.group .xlate (leBytes 8 e)
  | (.ok b, w) =>
    let h := haloOf b
    match (if h.bad b x then none else w.dev.member c.group h.rank) with
    | none => w.exFail c.gid c.ti c.group .collRefused []
    | some (d, ctx, _) =>
      match w.reach d none with
      | .error n => w.collLost c n
      | .ok p =>
        (w.setColl c.gid c.ti (fun c => { c with dests := c.dests ++ [d + 4096 * ctx] })).haloRows c h p d ctx 0 h.rows

def Work.haloEntries (w : Work) (c : Coll) (t : Task) (k : Nat) : Nat → Work
  | 0 => w
  | n + 1 => if w.collLive c then (w.haloEntry c t k).haloEntries c t (k + 1) n else w

/-- All entries are sent and enough members have sent theirs. -/
def Work.haloCheck (w : Work) (gid ti : Nat) : Work :=
  match w.dev.coll? gid ti, w.dev.anyTask? gid ti with
  | some c, some t => if c.sent = 1 ∧ t.f 104 2 ≤ c.haloFrom.length then w.collDone c else w
  | _, _ => w

/-- Send every entry in list order, then a fenced STEP to each destination. -/
def Work.haloRun (w : Work) (c : Coll) (t : Task) : Work :=
  let w := w.haloEntries c t 0 (t.f 100 4)
  match w.dev.coll? c.gid c.ti with
  | none => w
  | some c =>
    let w := w.each c.dests.eraseDups (fun x w =>
      match w.reach (x % 4096) none with
      | .ok p => if w.collLive c then w.sendStep c t p (x % 4096) (x / 4096) 3 0 else w
      | .error n => if w.collLive c then w.collLost c n else w)
    (w.setColl c.gid c.ti (fun c => { c with sent := 1, dests := c.dests.map (· % 4096) })).haloCheck c.gid c.ti

/-! ### Starting (R378) -/

/-- READY and STEP as they reach a collective. A READY whose fields differ from the task's is refused. Log 82, DEDUCED: the Exchange (R374 to R384). -/
def Work.collEvent (w : Work) (c : Coll) (t : Task) (e : EarlyStep) : Work :=
  if e.ready then
    if e.cop ≠ t.f 65 1 ∨ e.format ≠ t.f 67 1 ∨ e.elements ≠ t.f 88 4 then w.collRefuse c
    else (w.setColl c.gid c.ti (fun c => { c with readySeen := c.readySeen ++ [e.step] })).collGo c.gid c.ti
  else if t.f 65 1 = 5 then
    (w.setColl c.gid c.ti (fun c => { c with haloFrom := if c.haloFrom.contains e.src then c.haloFrom else c.haloFrom ++ [e.src] })).haloCheck
      c.gid c.ti
  else if e.step = c.applied ∧ c.applied < (w.collPar t).recvs then w.collApply c t
  else w

/-- Deliver an event to the group's collective, or keep it for one that has not started. -/
def Work.exEvent (w : Work) (e : EarlyStep) : Work :=
  match w.dev.exch.colls.find? (fun c => c.group == e.group && c.gen == e.gen) with
  | some c =>
    match w.dev.anyTask? c.gid c.ti with
    | some t => w.collEvent c t e
    | none => w
  | none => w.exch (fun x => { x with early := x.early ++ [e] })

/-- The task may start: RELEASED, or launched where it is timed (R328). -/
def collMay (t : Task) : Bool :=
  t.kind == some .collective && (if t.timed then t.launched && t.state == .active else t.state == .released)

/-- A COLLECTIVE task starts when its group is free and fewer than 64 run. -/
def collectiveStartWork (r : TaskRef) (w : Work) : Work :=
  match w.dev.task? r.gid r.task with
  | none => w
  | some t =>
    let g := t.f 64 1
    if collMay t = false ∨ (w.dev.coll? r.gid r.task).isSome ∨ w.grpValid g = false
        ∨ w.dev.exch.colls.any (fun c => c.group == g) ∨ 64 ≤ w.dev.exch.colls.length then w
    else
      let x := w.collPar t
      let gen := w.grpGen g
      let ds := if x.sends = 0 then [] else ((w.dev.member g x.next).map (fun m => [m.1])).getD []
      let c : Coll := { gid := r.gid, ti := r.task, group := g, gen := gen, dests := ds, applied := 0, sent := 0, buf := none,
                        readySeen := [], readySent := 0, haloFrom := [], finalBytes := [],
                        stopPolicy := w.rf pgTt .ttCtxCfg 29 28 (w.dev.ctxOf r.gid) == 1 }
      let early := w.dev.exch.early.filter (fun e => e.group == g && e.gen == gen)
      let w := w.exch (fun y => { y with colls := y.colls ++ [c], early := y.early.filter (fun e => e.group != g) })
      let w := w.setTask r.gid r.task (fun t => { t with state := .active })
      let n := x.els * x.es
      let w :=
        if x.cop = 3 then w.collCopy c x.src x.dst (x.r * n) n
        else if (x.cop = 4 ∧ x.place = 0) ∨ (x.p = 1 ∧ x.cop ≤ 2) then w.collCopy c x.src x.dst 0 n
        else w
      let w := if x.cop = 5 then w.haloRun c t else w.collGo r.gid r.task
      w.each early (fun e w => w.exEvent e)

/-- COLLECTIVE_START (R378, R380). -/
def execCollectiveStart (t : TaskRef) (s : State) : Host.Outcome State Fault Refusal := s.run (collectiveStartWork t)

/-! ### Groups (R374, R388) -/

def Work.setGrp (w : Work) (g k : Nat) (x : Word) : Work := w.exch (fun e => { e with groupRegs := put 0 (g * 8 + k) x e.groupRegs })
def Work.grpBusy (w : Work) (g : Nat) : Bool := w.dev.exch.colls.any (fun c => c.group == g)

/-- Setting VALID: the ranges, the fabric ID, and the member list, which is read and kept. A list that cannot be read is refused as
one that does not name this device (log 35, DEDUCED). -/
def Work.validateGroup (w : Work) (g : Nat) (cfg : Word) : Except Rej Work :=
  let size := w.grpSize g
  let rank := w.grpRank g
  let owner := fld cfg 28 24
  let va := fld (w.grp g 3) 31 2 * 4 + fld (w.grp g 4) 11 0 * 2 ^ 32
  if size = 0 ∨ 4096 < size ∨ size ≤ rank
      ∨ (List.range 256).any (fun h => decide (h ≠ g) && w.grpValid h && w.grpId h == w.grpId g) then .error .range
  else
    match w.readClean owner va (4 * size) ⟨some owner, 0xFFFFFFFF, 0xFFFFFFFF⟩ with
    | (none, _) => .error .range
    | (some b, w) =>
      let es := (List.range size).map (fun k => BitVec.ofNat 32 (bytesAt b (4 * k) 4))
      let me : Word := es.getD rank 0
      if fld me 11 0 ≠ w.self ∨ fld me 16 12 ≠ owner then .error .range
      else .ok ((w.setGrp g 0 cfg).exch (fun x => { x with
        members := x.members.filter (fun m => m.group != g) ++ [⟨g, es⟩]
        early := x.early.filter (fun e => e.group != g || e.gen == fld cfg 15 0) }))

/-! ### Lost links and ports (R367, R368, R382) -/

/-- A port is lost, with everything that follows. -/
def Work.losePort (w : Work) (p : Nat) : Work :=
  let w := ((w.dropPort p).loseReads p).loseParked p
  w.each (w.dev.exch.colls.filter (fun c => c.dests.any (fun d => w.dev.route d == some p))) (fun c w => w.collLost c 0)

/-- A live link fails: its flits are resent on the others, or its port is lost with it. -/
def Work.failLink (w : Work) (p link : Nat) : Work :=
  let q := w.port p
  let w := w.setLink p link (fun l => { l with state := .failed })
  if (w.port p).live ≠ [] then
    if q.state = .quarantined then w
    else
      let w := w.setPort p (fun q => { q with state := .degraded })
      let w := (w.count ⟨.tp, p⟩ 5).tpError p .linkDegrade link 0
      w.each (q.replay.filter (fun r => r.link == link)) (fun r w => w.resend p r)
  else if q.state = .quarantined then w.setPort p (fun q => { q with state := .down })
  else w.losePort p

/-- A live link of a port that runs. -/
def Work.liveLink (w : Work) (p link : Nat) : Option PLink :=
  if (w.port p).state.open && decide (p < 16) then ((w.port p).link? link).filter (fun l => l.state == .live) else none

/-- A link loses block lock, or has failed 16 CRCs in a row. -/
def linkFailWork (p link : Nat) (w : Work) : Work :=
  match w.liveLink p link with
  | some _ => w.failLink p link
  | none => w

/-- LINK_FAIL (R367). -/
def execLinkFail (port link : Nat) (s : State) : Host.Outcome State Fault Refusal := s.run (linkFailWork port link)

/-- No flit has arrived on a link for 256 beats. -/
def linkSilenceTimeoutWork (p link : Nat) (w : Work) : Work :=
  match w.liveLink p link with
  | some l => (w.passTo (l.lastRx + 256)).failLink p link
  | none => w

/-- LINK_SILENCE_TIMEOUT (R367). -/
def execLinkSilenceTimeout (port link : Nat) (s : State) : Host.Outcome State Fault Refusal := s.run (linkSilenceTimeoutWork port link)

/-- The oldest unacknowledged flit has waited LOST_US. -/
def portLostTimeoutWork (p : Nat) (w : Work) : Work :=
  match (w.port p).replay with
  | r :: _ => if w.portUp p ∧ p < 16 then (w.passTo (r.sentAt + w.rf ⟨.tp, p⟩ .tpLoss 15 0 * 250)).losePort p else w
  | [] => w

/-- PORT_LOST_TIMEOUT (R368). -/
def execPortLostTimeout (port : Nat) (s : State) : Host.Outcome State Fault Refusal := s.run (portLostTimeoutWork port)

/-! ### Flits (R357 to R360) -/

/-- A flit arrives on a live link: dropped when its CRC fails or its type is unknown, with a NAK; taken otherwise. The sixteenth
failure in a row fails the link. -/
def flitReceiveWork (p link : Nat) (b : List Byte) (w : Work) : Work :=
  match w.liveLink p link with
  | none => w
  | some l =>
    let w := w.setLink p link (fun l => { l with lastRx := w.dev.beat })
    if b.length ≠ 256 ∨ bytesAt b 248 8 ≠ crc64 (b.take 248) ∨ 2 < byteAt b 4 then
      let w := ((w.count ⟨.tp, p⟩ 2).setLink p link (fun l => { l with crcRun := l.crcRun + 1 })).sendNak p
      if 16 ≤ l.crcRun + 1 then w.failLink p link else w
    else ((w.setLink p link (fun l => { l with crcRun := 0, heard := true })).takeAck p b).takeFlit p b

/-- FLIT_RECEIVE (R359). -/
def execFlitReceive (port link : Nat) (bytes : List Byte) (s : State) : Host.Outcome State Fault Refusal :=
  s.run (flitReceiveWork port link bytes)

/-- A gap in FSEQ has been open for 64 beats. -/
def nakGapTimeoutWork (p : Nat) (w : Work) : Work :=
  match (w.port p).gapSince with
  | some b =>
    if (w.port p).state.open then
      let w := (w.passTo (b + 64)).sendNak p
      w.setPort p (fun q => { q with gapSince := some w.dev.beat })
    else w
  | none => w

/-- NAK_GAP_TIMEOUT (R359). -/
def execNakGapTimeout (port : Nat) (s : State) : Host.Outcome State Fault Refusal := s.run (nakGapTimeoutWork port)

/-- No ACK has advanced for 256 beats while flits are outstanding: the oldest one is sent again. -/
def replayTimeoutWork (p : Nat) (w : Work) : Work :=
  let q := w.port p
  match q.replay with
  | r :: _ =>
    if q.state.open then
      let w := (w.passTo (max q.ackAt r.sentAt + 256)).resend p r
      w.setPort p (fun q => { q with ackAt := w.dev.beat })
    else w
  | [] => w

/-- REPLAY_TIMEOUT (R359). -/
def execReplayTimeout (port : Nat) (s : State) : Host.Outcome State Fault Refusal := s.run (replayTimeoutWork port)

end Sys2Proof.Machine
end

