-- ==== Sys2Proof/Machine/Packets.lean ====
section
/-! DEFINITION. What each packet does when it is taken from a port's receive buffer (R302 to R306, R323, R324, R361 to R364, R371, R374,
R381 to R384). A packet command carries the packet; where the port has reassembled the same packet from flits, that one is used up. -/

namespace Sys2Proof.Machine

/-! ### Taking a packet -/

/-- Remove the first element equal to x. -/
def dropOne {α : Type} [DecidableEq α] (x : α) : List α → List α
  | [] => []
  | y :: t => if y = x then t else y :: dropOne x t

/-- A packet leaves the receive buffer: its credit is owed to the partner (R363). Log 16, DEDUCED: packets. -/
def Work.takePacket (w : Work) (p : Nat) (b : List Byte) : Work :=
  let cls := (classOf (byteAt b 0)).getD 5
  if p = loopPort then w
  else w.setPort p (fun q => { q with packets := dropOne b q.packets, owed := updAt (· + b.length / 16) cls q.owed })

/-- The port carries the packet's class, and the packet is for this device (R366, R373). -/
def Work.heeds (w : Work) (h : PktHdr) (ctrl : Bool) : Bool :=
  h.dst == w.self && (w.portUp h.port || (ctrl && (w.port h.port).state == .quarantined))

/-- FABRIC_GEN of the two sides agrees (R371). -/
def Work.genAgrees (w : Work) (p : Nat) : Bool :=
  p == loopPort || w.rf ⟨.tp, p⟩ .tpPeerGen 15 0 == w.rf pgEx .exFabricGen 15 0

/-- The index of the valid group that a packet names with the right GEN; none rejects the packet, counted (R371, R374). -/
def Work.pktGroup (w : Work) (p fabricId gen : Nat) : Option Nat × Work :=
  if w.genAgrees p = false then (none, w.count ⟨.tp, p⟩ 7)
  else
    match w.groupOf fabricId with
    | some g => if w.grpGen g = gen then (some g, w) else (none, w.count pgEx 3)
    | none => (none, w.count pgEx 3)

/-- A posted packet has been dealt with: the sender's watermark takes in its number (R302, R364). -/
def Work.posted (w : Work) (h : PktHdr) (pwseq : Nat) : Work :=
  w.setPort h.port (fun q =>
    let at_ := look 0 (h.src * 2) q.watermark
    let seen : Bool := look 0 (h.src * 2 + 1) q.watermark != 0
    if !seen || at_ + 1 = BitVec.ofNat 32 pwseq then
      { q with watermark := put 0 (h.src * 2 + 1) 1 (put 0 (h.src * 2) (BitVec.ofNat 32 pwseq) q.watermark) }
    else q)

/-- The sender's watermark has reached a fence; 0 always has. -/
def Work.fenceReached (w : Work) (port src fence : Nat) : Bool :=
  let q := w.port port
  decide (fence = 0) || (look 0 (src * 2 + 1) q.watermark != 0
    && decide (0 ≤ serialDiff (look 0 (src * 2) q.watermark).toNat fence))

/-- Data bytes with the marks of POISON_MAP (R360). -/
def marked (map : Nat) (data : List Byte) : List PByte := data.mapIdx (fun k b => (b, map / 2 ^ (k / 64) % 2 == 1))

/-- The receiver refuses posted data: ABORT with ERR_COLL_REFUSED goes to the sender (R381). -/
def Work.refusePosted (w : Work) (h : PktHdr) (group gen : Nat) : Work := w.sendAbort h.src group gen Err.collRefused.code w.self

/-! ### WRITE (R377, R380, R381) -/

/-- The HALO task of a group that combines what it receives: running, or admitted and not yet started (log 36, DEDUCED). -/
def Dev.haloTask (d : Dev) (g : Nat) : Option (Nat × Nat × Task) :=
  (d.graphs.flatMap (fun x => (x.tasks.zipIdx).filterMap (fun (t, k) =>
    if t.kind == some .collective && t.f 64 1 == g && t.f 65 1 == 5 && t.state.live then some (x.gid, k, t) else none))).head?

/-- Data of a WRITE at its address: written, or combined under a HALO with a ROP. -/
def Work.landWrite (w : Work) (h : PktHdr) (g addr : Nat) (group gen : Nat) (l : List PByte) : Work :=
  let r : Reader := ⟨some h.ctx, 0xFFFFFFFF, 0xFFFFFFFF⟩
  let coll := w.dev.exch.colls.find? (fun c => c.group == g)
  let note (w : Work) (out : List PByte) : Work := match coll with
    | some c => w.poisonWrote c.gid (poisonGranules addr out)
    | none => w
  let put_ (w : Work) (out : List PByte) : Work :=
    match w.writeVa h.ctx addr out r with
    | (.ok _, w) => note (w.count pgEx 2 l.length) out
    | (.error _, w) => w.refusePosted h group gen
  match w.dev.haloTask g with
  | some (gid, ti, t) =>
    if t.f 66 1 = 0 then put_ w l
    else
      match w.readToWrite h.ctx addr l.length r with
      | (.error _, w) => w.refusePosted h group gen
      | (.ok old, w) =>
        let x := w.collPar t
        let stop : Bool := w.rf pgTt .ttCtxCfg 29 28 (w.dev.ctxOf gid) == 1
        if stop ∧ (old.any (·.2) ∨ l.any (·.2)) then
          w.exFail gid ti g .poisonStop (leBytes 6 (firstPoison addr (if l.any (·.2) then l else old)))
        else put_ w (combineBytes x.rop x.u32 x.fmt old l)
  | none => put_ w l

def writePktWork (h : PktHdr) (addr gen pwseq group step : Nat) (data : List Byte) (w : Work) : Work :=
  if w.heeds h false then
    let b := mkPacket 1 h.poison h.ctx h.dst h.src (leBytes 6 addr ++ leBytes 2 gen)
      (some (leBytes 4 pwseq ++ leBytes 2 group ++ leBytes 2 step)) data
    let w := w.takePacket h.port b
    let (g, w) := w.pktGroup h.port group gen
    let w := match g with
      | none => w
      | some g =>
        if w.rb pgTt .ttCtxCfg 31 h.ctx = false then w.refusePosted h group gen
        else w.landWrite h g addr group gen (marked h.poison data)
    w.posted h pwseq
  else w

/-- WRITE (R381). -/
def execWrite (h : PktHdr) (addr gen pwseq group step : Nat) (data : List Byte) (s : State) : Host.Outcome State Fault Refusal :=
  s.run (writePktWork h addr gen pwseq group step data)

/-! ### READ and RESP (R112 to R114, R383) -/

/-- The row that a READ names: none where the request is refused. ELEMENTS and FORMAT of the requester do not reach this device: the
bytes of a row stand for them (R114; log 114, DEDUCED). -/
def Work.exported (w : Work) (exportId row rowBytes : Nat) : Option (List PByte) × Work :=
  let base := (w.reg pgEx .exExportLo).toNat / 64 * 64 + w.rf pgEx .exExportHi 15 0 * 2 ^ 32
  let a := base + 16 * exportId
  if w.rb pgEx .exExportLo 0 = false ∨ w.backed a 16 = false ∨ 4096 ≤ exportId then (none, w)
  else
    let (e, w) := w.readPhys a 16 {}
    let ctx := pbNat e 8 1 % 32
    if e.any (·.2) ∨ pbNat e 9 1 % 2 = 0 then (none, w)
    else
      match w.readClean ctx (pbNat e 0 8) 64 ⟨some ctx, 0xFFFFFFFF, 0xFFFFFFFF⟩ with
      | (none, w) => (none, w)
      | (some d, w) =>
        let T := tableOf d
        if T.rowBytes ≠ rowBytes ∨ T.rows ≤ row then (none, w)
        else
          match w.readVa ctx (T.rowVa row) rowBytes ⟨some ctx, 0xFFFFFFFF, 0xFFFFFFFF⟩ with
          | (.ok l, w) => (some l, w)
          | (.error _, w) => (none, w)

/-- A RESP packet back to the requester. -/
def Work.sendResp (w : Work) (h : PktHdr) (tag chunk status : Nat) (l : List PByte) : Work :=
  match w.reach h.src none with
  | .ok p => w.sendPacket p (mkPacket 3 (poisonMap l) h.ctx h.src w.self (leBytes 4 tag ++ leBytes 2 chunk ++ leBytes 1 status) none (l.map (·.1)))
  | .error _ => w

def readPktWork (h : PktHdr) (tag exportId row rowBytes : Nat) (w : Work) : Work :=
  if w.heeds h false then
    let w := w.takePacket h.port (mkPacket 2 0 h.ctx h.dst h.src (leBytes 4 tag ++ leBytes 2 exportId)
      (some (leBytes 8 row ++ leBytes 4 rowBytes)) [])
    match w.exported exportId row rowBytes with
    | (none, w) => (w.count pgEx 7).sendResp h tag 0 1 []
    | (some l, w) => (w.count pgEx 6).each ((chunksOf 256 l).zipIdx) (fun (ch, k) w => w.sendResp h tag k 0 ch)
  else w

/-- READ (R383). -/
def execRead (h : PktHdr) (tag exportId row rowBytes : Nat) (s : State) : Host.Outcome State Fault Refusal :=
  s.run (readPktWork h tag exportId row rowBytes)

/-- The last chunk of a remote row has come: it lands as any other row, or is dropped when stale. -/
def Work.landRemote (w : Work) (f : Fetch) (l : List PByte) : Work :=
  let stale := w.stale f
  let w := w.dropFetch f.id
  if stale then w.countStale f l.length
  else
    let n := poisonGranules 0 l
    let w := (w.count ⟨.hk, f.cluster⟩ 7 n).poisonRead f.gid n
    match f.dest with
    | .row ref => w.landRow f.iid ref l
    | _ => w

/-- Log 87, DEDUCED: remote fetches and losses (R112 to R114, R368). Log 104, DESIGN CHOICE: the detail of ERR_REMOTE_REFUSED and ERR_REMOTE_TIMEOUT (R114). -/
def respWork (h : PktHdr) (tag chunk : Nat) (refused : Bool) (data : List Byte) (w : Work) : Work :=
  if w.heeds h false then
    let w := w.takePacket h.port (mkPacket 3 h.poison h.ctx h.dst h.src (leBytes 4 tag ++ leBytes 2 chunk ++ leBytes 1 (b2n refused)) none data)
    match w.dev.fetches.find? (fun f => f.id % 2 ^ 32 == tag && (match f.remote with
        | some (d, _) => d == h.src
        | none => false)) with
    | none => w
    | some f =>
      if refused then
        let stale := w.stale f
        let w := w.dropFetch f.id
        match w.dev.inst? f.iid, f.remote with
        | some i, some (d, row) =>
          if stale then w else w.failInst i ⟨.gu, f.cluster⟩ .remoteRefused (leBytes 2 d ++ leBytes 6 row)
        | _, _ => w
      else
        let n := f.pieces.foldl (fun a x => a + x.2) 0
        if chunk * 256 ≠ f.copy.length then w
        else
          let l := f.copy ++ (marked h.poison data).take (n - f.copy.length)
          if n ≤ l.length then w.landRemote f l
          else w.upd (fun d => { d with fetches := updFirst (fun x => x.id == f.id) (fun x => { x with copy := l }) d.fetches })
  else w

/-- RESP (R112, R114). -/
def execResp (h : PktHdr) (tag chunk : Nat) (refused : Bool) (data : List Byte) (s : State) : Host.Outcome State Fault Refusal :=
  s.run (respWork h tag chunk refused data)

/-! ### SIGNAL (R302 to R306, R378, R380) -/

/-- A signal that may take effect: to the store, or to the Exchange. -/
def Work.applySignal (w : Work) (p : Parked) : Work :=
  if p.op ≤ 2 then w.remoteSignal p
  else
    match w.groupOf p.group with
    | some g => if w.grpGen g = p.gen then
        w.exEvent { group := g, gen := p.gen, src := p.sender, ready := p.op == 4, step := p.step, cop := p.cop, format := p.format,
                    elements := p.elements }
      else w.count pgEx 3
    | none => w.count pgEx 3

/-- The first parked signal of a port that may go: its fence is reached, and none of its sender's waits before it. -/
def Work.releasable (w : Work) (port : Nat) : Option Parked :=
  let l := w.dev.parkedAt port
  (l.zipIdx.find? (fun (p, k) => w.fenceReached port p.sender p.fence && !(l.take k).any (fun q => q.sender == p.sender))).map (·.1)

/-- A parked signal leaves its entry for the store. -/
def Work.releaseParked (w : Work) (p : Parked) : Work :=
  ((w.updSync (fun y => { y with parked := dropOne p y.parked })).returnCredit p.port).applySignal p

/-- A sender's parked signals whose fences are reached go before its next fenced one (R300, R302). -/
def Work.releaseBefore (w : Work) (port sender : Nat) : Work :=
  w.each ((w.dev.parkedAt port).filter (fun p => p.sender == sender)) (fun p w =>
    w.whenB (w.releasable port == some p || ((w.dev.parkedAt port).find? (fun q => q.sender == sender) == some p
      && w.fenceReached port sender p.fence)) (fun w => w.releaseParked p))

/-- With 256 signals parked in a port, the credit of a further one is withheld (R303). -/
def Work.takeSignal (w : Work) (port : Nat) (b : List Byte) : Work :=
  let full := decide (256 ≤ (w.dev.parkedAt port).length) && decide (port ≠ loopPort)
  let w := w.takePacket port b
  w.whenB full (fun w => w.setPort port (fun q => { q with
    owed := updAt (fun c => c - b.length / 16) 4 q.owed, withheld := q.withheld + b.length / 16 }))

def signalWork (h : PktHdr) (m : SignalMsg) (w : Work) : Work :=
  if w.heeds h false ∧ 1 ≤ m.op ∧ m.op ≤ 4 then
    let p : Parked := { port := h.port, sender := h.src, ctx := h.ctx, rid := m.rid, op := m.op, n := m.n, fence := m.fence,
                        since := w.dev.beat, group := m.group, step := m.step, gen := m.gen, cop := m.cop, format := m.format,
                        elements := m.elements }
    let holds := m.fenced && !w.fenceReached h.port h.src m.fence
    if holds ∧ 256 ≤ (w.dev.parkedAt h.port).length then w
    else
      let w := w.takeSignal h.port (mkPacket 4 0 h.ctx h.dst h.src
        (leBytes 4 (m.rid % 2 ^ 20 + m.op * 2 ^ 24 + b2n m.fenced * 2 ^ 31) ++ leBytes 2 m.n)
        (some (leBytes 4 m.fence ++ leBytes 2 m.group ++ leBytes 2 m.step ++ leBytes 2 m.gen ++ leBytes 1 m.cop ++ leBytes 1 m.format
          ++ leBytes 4 m.elements)) [])
      let ok := if 3 ≤ m.op then w.pktGroup h.port m.group m.gen else (some 0, w)
      match ok with
      | (none, w) => w
      | (some _, w) =>
        if holds then (w.updSync (fun y => { y with parked := y.parked ++ [p] })).count pgSy 3
        else
          let w := if m.fenced then w.releaseBefore h.port h.src else w.count pgSy 4
          w.applySignal p
  else w

/-- SIGNAL (R302, R304, R306). -/
def execSignal (h : PktHdr) (m : SignalMsg) (s : State) : Host.Outcome State Fault Refusal := s.run (signalWork h m)

def parkedSignalReleaseWork (port : Nat) (w : Work) : Work :=
  match w.releasable port with
  | some p => w.releaseParked p
  | none => w

/-- PARKED_SIGNAL_RELEASE (R302). -/
def execParkedSignalRelease (port : Nat) (s : State) : Host.Outcome State Fault Refusal := s.run (parkedSignalReleaseWork port)

/-! ### TIME (R323 to R325) -/

/-- A time t ticks away from now, never below 0, rounded up to a multiple of 4 (R10). -/
def Work.timeAt (w : Work) (offset : Int) : Nat := roundUp (((w.dev.time : Int) + offset).toNat) 4

/-- The upstream partner of a LINK device says in every exchange whether it is unlocked (R324). -/
def Work.upstreamSays (w : Work) (p : Nat) (unlocked : Bool) : Work :=
  if w.source = 2 ∧ p = w.rf pgCr .crCfg 11 8 then
    (w.crier (fun c => { c with upUnlocked := unlocked })).whenB unlocked (fun w => w.setUnlocked (some p))
  else w

/-- The upstream partner's offset: adopted while the time base is not set or a load is armed, otherwise steered by. -/
def Work.upstream (w : Work) (offset : Int) : Work :=
  let w := w.setRf pgCr .crStatus 15 0 (sat16 offset)
  if !w.timeValid || w.dev.crier.armed then w.loadTime (w.timeAt offset)
    else
      let hist := (offset :: w.dev.crier.history).take 8
      let m := meanOf hist
      let w := w.crier (fun c => { c with history := hist, upMean := some m })
      if 4 ≤ m.natAbs then (w.steer (decide (0 < m))).crier (fun c => { c with history := [] }) else w

def timePktWork (h : PktHdr) (reply unlocked : Bool) (tSend fabricGen tEchoRx tEchoTx tRx : Nat) (w : Work) : Work :=
  if w.heeds h false ∧ h.port < 16 ∧ (w.port h.port).keepsTime then
    let p := h.port
    let w := w.takePacket p (mkPacket 5 0 h.ctx h.dst h.src
      (leBytes 1 (b2n reply + 2 * b2n unlocked) ++ leBytes 5 tSend ++ leBytes 2 fabricGen) (some (leBytes 5 tEchoRx ++ leBytes 5 tEchoTx)) [])
    let w := w.setReg ⟨.tp, p⟩ .tpPeerGen (atBit (fabricGen % 65536) 0)
    let w := w.upstreamSays p unlocked
    if reply = false then w.tryLock.sendTime p true (tRx % 2 ^ 40) (tSend % 2 ^ 40)
    else if look 0 p w.dev.crier.echo ≠ tEchoTx % 2 ^ 40 + 1 then w
    else
      let w := w.crier (fun c => { c with echo := put 0 p 0 c.echo })
      let offset := xferOffset tEchoTx tEchoRx tSend tRx
      let w := w.setReg pgCr .crPortOfs (atBit 1 31 ||| atBit (sat16 offset) 0) p
      let w := w.judgePartner p offset
      let w := if w.source = 2 ∧ p = w.rf pgCr .crCfg 11 8 ∧ w.dev.counting then w.upstream offset else w
      w.tryLock
  else w

/-- TIME (R323, R324). -/
def execTime (h : PktHdr) (reply unlocked : Bool) (tSend fabricGen tEchoRx tEchoTx tRx : Nat) (s : State) :
    Host.Outcome State Fault Refusal :=
  s.run (timePktWork h reply unlocked tSend fabricGen tEchoRx tEchoTx tRx)

/-! ### ABORT (R381, R382) -/

/-- COPY tasks whose multicast stream goes to a group's devices. -/
def Dev.streamsTo (d : Dev) (g : Nat) : List (McStream × Task) :=
  d.streams.filterMap (fun m => match d.task? m.gid m.ti with
    | some t => if t.stream.remote && t.stream.group == g then some (m, t) else none
    | none => none)

/-- The error that an ABORT's CODE stands for. -/
def abortErr (code : Nat) : Err := if code = Err.collRefused.code then .collRefused else .linkLost

def abortWork (h : PktHdr) (group gen code origin : Nat) (w : Work) : Work :=
  if w.heeds h true then
    let w := w.takePacket h.port (mkPacket 6 0 h.ctx h.dst h.src (leBytes 2 group ++ leBytes 2 gen ++ leBytes 2 code ++ leBytes 2 origin) none [])
    match w.pktGroup h.port group gen with
    | (none, w) => w
    | (some g, w) =>
      let w := w.count pgEx 5
      if w.dev.exch.aborts.contains (g, gen) then w
      else
        let w := w.abortOthers g gen code origin
        let w := match w.dev.exch.colls.find? (fun c => c.group == g && c.gen == gen) with
          | some c => w.endParticipant c (abortErr code) (leBytes 2 origin)
          | none => w
        if abortErr code = .collRefused then
          w.each (w.dev.streamsTo g) (fun (m, t) w => w.failTask m.gid m.ti pgEx .collRefused group (leBytes 2 origin ++ leBytes 2 t.stream.id))
        else w
  else w

/-- ABORT (R382). -/
def execAbort (h : PktHdr) (group gen code origin : Nat) (s : State) : Host.Outcome State Fault Refusal :=
  s.run (abortWork h group gen code origin)

/-! ### MCAST and MCREDIT (R147, R384) -/

/-- MCREDIT for a row. -/
def Work.sendCredit (w : Work) (dst streamId group row : Nat) : Work :=
  match w.reach dst none with
  | .ok p => w.sendPacket p (mkPacket 8 0 0 dst w.self (leBytes 2 streamId ++ leBytes 2 group ++ leBytes 4 row) none [])
  | .error _ => w

/-- A row is in every slice: rows are credited in order, up to the last before which none is missing. A row
that is held already begins a stream anew (log 115, DEDUCED). -/
def McIn.gain (m : McIn) (row : Nat) : McIn :=
  let m : McIn := if row < m.next ∨ row ∈ m.later then { m with next := 0, later := [] } else m
  let held := row :: m.later
  let next := m.next + ((List.range (held.length + 1)).takeWhile (fun k => held.contains (m.next + k))).length
  { m with next := next, later := held.eraseDups.filter (fun r => decide (next ≤ r)) }

/-- Note a row that is in every slice, and credit what that completes (R147). -/
def Work.creditMcast (w : Work) (src streamId group row : Nat) : Work :=
  let mine (m : McIn) : Bool := m.src == src && m.stream == streamId && m.group == group
  let old := (w.dev.exch.mcIn.find? mine).getD ⟨src, streamId, group, 0, []⟩
  let m := old.gain row
  let w := w.exch (fun x => { x with mcIn := x.mcIn.filter (fun y => !mine y) ++ [m] })
  w.whenB (decide (row < m.next)) (fun w => w.sendCredit src streamId group (m.next - 1))

/-- A whole row, of S bytes, is written into the slices of the pitch that this device's entry names, and credited with those before it. -/
def Work.landMcast (w : Work) (h : PktHdr) (g : Nat) (streamId group gen row destOffset : Nat) (l : List PByte) : Work :=
  match w.dev.member g (w.grpRank g) with
  | none => w
  | some (_, ctx, pitch) =>
    match w.pitchFor ctx pitch with
    | none => w.refusePosted h group gen
    | some p =>
      let off := destOffset + row * (64 * ceilDiv l.length 64)
      if 3145728 < off + l.length then w.refusePosted h group gen
      else
        let w := w.each p.clusters (fun c w => (w.writePhys (slicePhys c off) l).count ⟨.wh, c⟩ 7)
        w.creditMcast h.src streamId group row

def mcastWork (h : PktHdr) (streamId group gen row destOffset pwseq chunk : Nat) (last : Bool) (data : List Byte) (w : Work) : Work :=
  if w.heeds h false then
    let w := w.takePacket h.port (mkPacket 7 h.poison h.ctx h.dst h.src (leBytes 2 streamId ++ leBytes 2 group ++ leBytes 2 gen)
      (some (leBytes 4 row ++ leBytes 4 destOffset ++ leBytes 4 pwseq ++ leBytes 2 chunk)) data)
    let (g, w) := w.pktGroup h.port group gen
    let w := match g with
      | none => w
      | some g =>
        if w.rb pgTt .ttCtxCfg 31 h.ctx = false then w.refusePosted h group gen
        else
          let w := w.count pgEx 2 data.length
          let mine (x : McRow) : Bool := x.src == h.src && x.stream == streamId && x.group == g && x.row == row
          let before : List PByte := if chunk = 0 then [] else ((w.dev.exch.mcRx.find? mine).map McRow.data).getD []
          let l := before ++ marked h.poison data
          let w := w.exch (fun x => { x with mcRx := x.mcRx.filter (fun y => !mine y) })
          if last then w.landMcast h g streamId group gen row destOffset l
          else w.exch (fun x => { x with mcRx := x.mcRx ++ [(⟨h.src, streamId, g, row, l⟩ : McRow)] })
    w.posted h pwseq
  else w

/-- MCAST (R384). -/
def execMcast (h : PktHdr) (streamId group gen row destOffset pwseq chunk : Nat) (last : Bool) (data : List Byte) (s : State) :
    Host.Outcome State Fault Refusal :=
  s.run (mcastWork h streamId group gen row destOffset pwseq chunk last data)

/-- A remote receiver has credited a row, and all before it. -/
def mcreditWork (h : PktHdr) (streamId group row : Nat) (w : Work) : Work :=
  if w.heeds h true then
    let w := w.takePacket h.port (mkPacket 8 0 h.ctx h.dst h.src (leBytes 2 streamId ++ leBytes 2 group ++ leBytes 4 row) none [])
    match (w.dev.streams.filter (fun m => match w.dev.task? m.gid m.ti with
        | some t => t.stream.id == streamId && w.grpId t.stream.group == group
        | none => false)).head? with
    | none => w
    | some m =>
      let gain (x : McRecv) : McRecv := { x with landed := max x.landed (row + 1), credited := max x.credited (row + 1) }
      let w := w.setStream m.cluster (fun m => { m with
        recvs := m.recvs.map (fun x => if x.remote && x.who == h.src && !x.detached then gain x else x) })
      w.sweepStream m.cluster
  else w

/-- MCREDIT (R147, R384). -/
def execMcredit (h : PktHdr) (streamId group row : Nat) (s : State) : Host.Outcome State Fault Refusal :=
  s.run (mcreditWork h streamId group row)

end Sys2Proof.Machine
end

