-- ==== Sys2Proof/Machine/RegRead.lean ====
section
/-! DEFINITION. Reads of registers: the value of every register of BAR0 as it stands, the filter of R393, and the latches that a
read of a LO word takes (R317, R488). -/

namespace Sys2Proof.Machine

/-- A writer's number in REJ_INFO and in the HI latches: 0 to 31 the functions, 32 to 39 the control cores (R406). -/
def writerOf (who : Agent) : Nat := Agent.slot who

/-- Key of a page's REJ_INFO for a writer. -/
def rejKey (p : Page) (who : Agent) : Nat := p.base * 64 + writerOf who

/-- PAGE_STAT as the reader sees it (R404). -/
def Work.pageStatFor (w : Work) (p : Page) (who : Agent) : Word :=
  w.pageStat p ||| atBit (b2n (bitOf (look 0 (rejKey p who) w.dev.rejs) 31)) 28

/-- DEAL_STAT (R84). -/
def Work.dealStat (w : Work) (p : Page) : Word :=
  let here (d : DealSlot) : Nat := (d.staged.filter (fun e => e.1 / 0x1000 == p.base / 0x1000)).length
  let ns := w.dev.deals.map here
  match ns.findIdx? (fun n => n != 0) with
  | none => 0
  | some k => atBit 1 31 ||| atBit k 24 ||| atBit (ns.foldl (fun a n => a + n) 0) 0

/-- LO and HI words of a counter. -/
def ctrLo (c : Nat × Bool) : Word := BitVec.ofNat 32 c.1
def ctrHi (c : Nat × Bool) : Word := atBit (b2n c.2) 31 ||| atBit (c.1 / 2 ^ 32) 0

/-- Word k of a page's snapshot area (R485). -/
def Work.snapWord (w : Work) (p : Page) (k : Nat) : Word :=
  match w.dev.stock.snap with
  | none => 0
  | some x =>
    match k with
    | 0 => x.seq
    | 1 => BitVec.ofNat 32 x.time
    | 2 => BitVec.ofNat 32 (x.time / 2 ^ 32)
    | 3 => look 0x80000000 p.base x.stats
    | _ =>
      if x.gated.contains p.base ∨ p.block.counters.2.1 ≤ (k - 4) / 2 then 0
      else
        let c := look (0, false) (p.base + p.block.counters.1 + 8 * ((k - 4) / 2)) x.ctrs
        if k % 2 = 0 then ctrLo c else ctrHi c

/-- DL_STATUS and DL_COUNT of a slot (R84). -/
def DealSlot.status (d : DealSlot) : Word :=
  atBit (match d.state with
    | .idle => 0
    | .opened => 1
    | .committing => 2) 30 ||| atBit d.outcome 27 ||| atBit d.code 16 ||| atBit d.index 9
def DealSlot.count (d : DealSlot) : Word := atBit d.staged.length 8 ||| atBit d.words.length 0

/-- Resident instances of a kind in a cluster. -/
def Dev.kindCount (d : Dev) (c : Nat) (k : Kind) : Nat :=
  ((d.resident c).filter (fun i => !i.isLane && ((i.task? d).bind Task.kind) == some k)).length

/-- A TRANSFORM instance is within a phase: a step of its N-panel has issued, or tiles that it completed are not yet with the compressor. -/
def Dev.phaseRuns (d : Dev) (c : Nat) : Bool :=
  (d.resident c).any (fun i => !i.isLane && i.started && !i.ended && !i.stopOrdered && (decide (0 < i.sub) || !i.outTiles.isEmpty)
    && ((i.task? d).bind Task.kind) == some .transform)

/-- An engine whose last step issued on beat b has issued in the last beat. -/
def Work.lastBeat (w : Work) (b : Nat) : Bool := decide (b ≠ 0) && decide (w.dev.beat ≤ b + 1)

/-- GU_STATUS (R121). -/
def Work.guStatus (w : Work) (c : Nat) : Word :=
  let l := w.dev.resident c
  let busy : Bool := l.any (fun i => !i.occs.isEmpty) || w.dev.fetches.any (fun f => f.unit == 1 && f.cluster == c)
  atBit (b2n busy) 31 ||| atBit (w.dev.kindCount c .gather) 24
    ||| atBit (l.foldl (fun a i => a + i.hots.length) 0) 15 ||| atBit (w.cluster c).winLast 0

/-- WH_STATUS (R152). -/
def Work.whStatus (w : Work) (c : Nat) : Word :=
  atBit (b2n (w.dev.streams.any (fun m => m.cluster == c && !w.dev.streamOver m))) 31 ||| atBit (w.dev.lanes c).length 24
    ||| atBit (w.dev.hubs.filter (fun h => h.cluster == c && h.tag.isSome)).length 16

/-- CH_STAT of a die node, and of the root (R154). -/
def Work.chStat (w : Work) (node : Nat) : Word :=
  let held := if node = 4 then w.dev.abortedTags.length else (w.dev.scat.filter (fun e => e.node == node && e.held)).length
  atBit held 16 ||| atBit (w.dev.hubSlots.filter (fun h => h.1 == node)).length 0

/-- EB_DRAINED of a context: the newest closed epoch that no started, incomplete GATHER or EMBED_BAG instance holds open (R178). -/
def Work.drained (w : Work) (ctx : Nat) : Word :=
  match w.dev.closedEpoch with
  | none => 0xFFFFFFFF
  | some e =>
    let es := (w.dev.insts.filter (fun i => i.started && w.dev.ctxOf i.gid == ctx && match (i.task? w.dev).bind Task.kind with
      | some .gather => true
      | some .embedBag => true
      | _ => false)).map (·.startEpoch)
    BitVec.ofNat 32 (es.foldl (fun b x => if serialDiff x b ≤ 0 then (x + 2 ^ 32 - 1) % 2 ^ 32 else b) e.toNat)

/-- The table slot that EB_TBL_SEL selects, and EB_TBL_CTL as it reads (R184): 0 for a local table at or
above COUNT, which the context does not have (log 40, DEDUCED). -/
def Work.selSlot (w : Work) (ctx : Nat) : Nat := w.tableSlot ctx (w.rf pgEb .ebTblSel 13 0 ctx)
def Work.tblCtlWord (w : Work) (ctx : Nat) : Word :=
  let s := w.selSlot ctx
  if w.rf pgEb .ebTables 30 16 ctx ≤ w.rf pgEb .ebTblSel 13 0 ctx then 0
  else
  let n := (w.dev.insts.filter (fun i => i.started && i.tblSlot == s && !i.isLane
    && ((i.task? w.dev).bind Task.kind) == some .embedBag)).length
  (look 0 s w.dev.tblCtl &&& 0xC0000000) ||| atBit n 0

/-- HK_STATUS (R276). -/
def Work.hkStatus (w : Work) (c : Nat) : Word :=
  let fs := w.dev.fetches.filter (fun f => f.cluster == c)
  let runs (i : Inst) : Bool := (w.nextReq i).isSome || fs.any (fun f => f.unit == 0 && f.iid == i.iid)
  atBit (b2n (fs.any (fun f => f.unit == 0))) 31 ||| atBit ((w.dev.resident c).filter (fun i => !i.isLane && runs i)).length 24
    ||| atBit fs.length 0

/-- Rows of a stream are still to be read, or are on their way to the reservation. -/
def Work.streamReads (w : Work) (m : McStream) : Bool :=
  let more : Bool := match w.dev.task? m.gid m.ti with
    | some t => !m.stopped && decide (m.read < t.stream.rows)
    | none => false
  more || w.dev.fetches.any (fun f => f.iid == m.iid && f.dest.porter)

/-- Rows of a stream that have been read and are not in every slice of the pitch. -/
def McStream.writes (m : McStream) : Bool :=
  !m.staged.isEmpty || m.recvs.any (fun r => !r.remote && !r.detached && decide (r.landed < m.rows.length))

/-- PT_STATUS (R278). -/
def Work.ptStatus (w : Work) (c : Nat) : Word :=
  let ms := w.dev.streams.filter (fun m => m.cluster == c)
  let busy : Bool := w.dev.fetches.any (fun f => f.cluster == c && f.dest.porter) || ms.any McStream.writes
  atBit (b2n busy) 31 ||| atBit (b2n (ms.any w.streamReads)) 30 ||| atBit (w.dev.kindCount c .copy) 24

/-- SY_OP_STAT (R310). -/
def SySlot.status (x : SySlot) : Word := atBit (b2n x.busy) 31 ||| atBit (b2n x.waiting) 30 ||| atBit x.outcome 27 ||| atBit x.code 0

/-- TP_CFG, TP_STATE, TP_LINK (R386). -/
def Port.cfgWord (q : Port) : Word :=
  match q.links with
  | [] => 0
  | l :: _ => atBit 1 31 ||| atBit l.partnerDevice 16 ||| atBit (l.partnerPort % 256) 8 ||| atBit (l.partnerKind % 4) 6 ||| atBit q.links.length 0
def PortState.code : PortState → Nat
  | .down => 0 | .training => 1 | .up => 2 | .degraded => 3 | .quarantined => 4 | .lost => 5
def Port.stateWord (q : Port) : Word :=
  atBit q.state.code 29 ||| atBit q.live.length 24 ||| atBit (q.version % 256) 16 ||| atBit (q.features % 65536) 0
def LinkState.code : LinkState → Nat
  | .down => 0 | .live => 1 | .failed => 2 | .miswired => 3
def Port.linkWord (q : Port) (i : Nat) : Word :=
  match q.links[i]? with
  | none => 0
  | some l => atBit l.state.code 30 ||| atBit (b2n l.method) 29 ||| atBit l.num 0

/-- Group registers as a function sees them through its EX_GRP_SEL (R388). -/
def Work.grpSel (w : Work) (fn : Nat) : Nat := look 0 fn w.dev.exch.sel
def Work.grpWord (w : Work) (fn k : Nat) : Word :=
  let g := w.grpSel fn
  if k = 0 then setFld (w.grp g 0) 30 30 (b2n (w.grpBusy g)) else w.grp g k

/-- EX_ROUTE_Q (R373, R388). -/
def Work.routeWord (w : Work) : Word :=
  let dst := w.rf pgEx .exRouteQ 11 0
  let self : Bool := dst == w.self
  match w.dev.route dst with
  | some p => atBit 1 31 ||| atBit (b2n self) 30 ||| atBit (if self then 0 else p % 16) 16 ||| atBit dst 0
  | none => atBit (b2n self) 30 ||| atBit dst 0

/-- BT_STATE (R457): the running step that began first, or the failed step, with the CODE of its newest entry. -/
def Work.btState (w : Work) : Word :=
  let b := w.dev.boot
  let step := match b.mode with
    | .booting => (b.running.head?.map (·.step)).getD 0
    | .service => 0
    | .recovery => b.failStep
  let code := if step = 0 then 0 else ((b.journal.find? (fun e => e.step == step)).map (·.code)).getD 0
  atBit (match b.mode with
    | .booting => 0
    | .service => 1
    | .recovery => 2) 30 ||| atBit step 8 ||| atBit (code % 256) 0

/-- BT_SLOT (R457). -/
def Boot.bootedMask (b : Boot) : Nat :=
  (List.range 6).foldl (fun a t => a + (if b.booted.any (fun x => x.1 == t + 1 && x.2.1 == 1) ∧ t ≠ 4 then 2 ^ t else 0)) 0

/-- A word of the selected journal entry; a slot never written is erased, all ones (R442). Log 60, DESIGN CHOICE: journal entries that were never written (R442, R457). -/
def Work.journalWord (w : Work) (k : Nat) : Word :=
  match w.dev.boot.journal[w.rf pgBt .btJournalSel 5 0]? with
  | some e => BitVec.ofNat 32 (bytesAt e.bytes (4 * k) 4)
  | none => 0xFFFFFFFF

/-- PM_IN_STAT (R480). -/
def InputSt.word (x : InputSt) : Word := atBit (b2n x.stuck) 31 ||| atBit (b2n x.level) 30

/-- CC_STATUS and CC_THREAD (R435). -/
def Core.statusWord (c : Core) : Word :=
  match c.running with
  | some t => atBit 1 31 ||| atBit t 0
  | none => 0
def Core.threadWord (c : Core) (t : Nat) : Word :=
  let x := c.thread t
  atBit (b2n (x.state != .empty)) 31 ||| atBit (b2n x.user) 30 ||| atBit (x.prio % 32) 16 ||| atBit (x.image % 65536) 0

/-- The value of copy i of a register of a page, as the PF reads it; `who` selects the copies a reader has to itself. -/
def Work.value (w : Work) (p : Page) (id : RegId) (i : Nat) (who : Agent) : Word :=
  let d := w.dev
  let c := p.num
  let stored := w.reg p id i
  let port := w.port c
  let pf := writerOf who
  match id with
  | .pageId => p.id
  | .pageVer => 0x100
  | .pageCaps => p.caps w.variant
  | .pageCtl => if p.block.hasPageCtl then stored else 1
  | .pageStat => w.pageStatFor p who
  | .rejInfo => look 0 (rejKey p who) d.rejs
  | .hubRejAddr => look 0 (writerOf who) d.hubRej
  | .dealStat => w.dealStat p
  | .snapWord => w.snapWord p i
  | .cntLo => ctrLo (look (0, false) (p.base + p.block.counters.1 + 8 * i) d.ctrs)
  | .cntHi => ctrHi (look (0, false) (p.base + p.block.counters.1 + 8 * i) d.ctrs)
  -- Task Tracker
  | .ttXlateInv => atBit (b2n d.ttInvDue.isSome) 31
  | .ttSaveCtl => setFld stored 31 31 (b2n d.save.isSome)
  | .ttFree => atBit d.freeEntries 0
  | .ttCancelTag => look 0 pf d.cancelTags
  -- Deals
  | .dlStatus => (w.deal_ i).status
  | .dlCount => (w.deal_ i).count
  | .dlDoneLo => BitVec.ofNat 32 (w.deal_ i).doneTime
  | .dlDoneHi => BitVec.ofNat 32 ((w.deal_ i).doneTime / 2 ^ 32)
  -- cluster units
  | .guStatus => w.guStatus c
  | .whStatus => w.whStatus c
  | .chStat => w.chStat (if p.block = .chRoot then 4 else c)
  | .taStatus => atBit (b2n (d.phaseRuns c)) 31 ||| atBit (d.kindCount c .transform) 24 ||| atBit (w.cluster c).taLast 0
  | .veStatus => atBit (b2n (w.lastBeat (w.cluster c).veBusyAt)) 31 ||| atBit (d.kindCount c .vector) 24 ||| atBit ((w.cluster c).opIndex % 256) 0
  | .veOpcStat => atBit (w.cluster c).zeroing 16 ||| atBit (w.opcFree c) 0
  | .spStatus => atBit (b2n (w.cluster c).matchHolder.isSome) 31 ||| atBit (b2n (w.lastBeat (w.cluster c).mergeAt)) 30
      ||| atBit (d.kindCount c .matchT) 24 ||| atBit (min 4 (w.cluster c).tiles.length) 18 ||| atBit (w.cluster c).keys 0
  | .hkStatus => w.hkStatus c
  | .hkSlotGen => w.gen c i
  | .ptStatus => w.ptStatus c
  -- embedding
  | .ebDrained => w.drained i
  | .ebTblCtl => w.tblCtlWord i
  -- synchronisation
  | .syXlateInv => atBit (b2n d.sync.invDue.isSome) 31
  | .syStatus => atBit d.sync.parked.length 19 ||| atBit d.sync.waits.length 0
  | .syOpStat => (w.sySlot i).status
  | .syOpValue => (w.sySlot i).value
  | .syOpAux => (w.sySlot i).aux
  | .syCellStatus => atBit (d.sync.cellWaits.filter (fun x => x.at_ == c && x.wakeAt.isNone)).length 24
  -- Crier
  | .crTimeLo => BitVec.ofNat 32 d.time
  | .crTimeHi => BitVec.ofNat 32 (d.time / 2 ^ 32)
  | .crPend => atBit d.launchEntries 0
  -- links
  | .tpCfg => port.cfgWord
  | .tpState => port.stateWord
  | .tpLink => port.linkWord i
  | .exDevice => atBit (b2n d.exch.manifestOk) 31 ||| atBit d.exch.device 0
  | .exRouteQ => w.routeWord
  | .exStatus => atBit d.exch.colls.length 16
  | .exGrpSel => atBit (w.grpSel pf) 0
  | .exGrpCfg => w.grpWord pf 0
  | .exGrpId => w.grpWord pf 1
  | .exGrpSize => w.grpWord pf 2
  | .exGrpMemLo => w.grpWord pf 3
  | .exGrpMemHi => w.grpWord pf 4
  -- PCI Express
  | .pxFnStat => atBit (b2n (d.flrBusy.contains i)) 31 ||| atBit (b2n (look false i d.atsEn)) 30 ||| atBit (vectorsOf i) 0
  -- control cores
  | .ccStatus => (w.core c).statusWord
  | .ccThread => (w.core c).threadWord (w.rf p .ccThreadSel 5 0)
  -- boot
  | .btState => w.btState
  | .btStart => atBit d.boot.startNo 0
  | .btSlot => atBit d.boot.bootedMask 8 ||| (d.boot.active &&& 0x2F)
  | .btUpdStat => atBit (b2n d.boot.updTarget.isSome) 31 ||| atBit (d.boot.updResult % 256) 0
  | .btSec => atBit ((d.boot.secOf i).getD 0) 0
  | .btFloor => atBit (d.boot.floors.getD i 0) 0
  | .btKey => atBit (((d.boot.booted.find? (fun x => x.1 == 1)).map (fun x => x.2.2.key)).getD 0 % 4) 8 ||| atBit (d.boot.keyFloor % 4) 0
  | .btJournal => w.journalWord i
  -- power
  | .pmStat => ((stored ||| atBit (b2n w.throttled) 30) ||| atBit (b2n w.capped) 28) ||| atBit (w.powerW % 65536) 0
  | .pmVin => stored ||| atBit w.iin 0
  | .pmSkip => BitVec.ofNat 32 (leNat ((List.range 4).map (fun k => BitVec.ofNat 8 (w.skipOf k))))
  | .pmInStat => (w.input i).word
  | .pmInDrop => (w.input i).drops
  -- Stocktake
  | .skStat => (stored ||| atBit (b2n (d.stock.pending ≠ [])) 31) ||| atBit (b2n d.stock.armed.isSome) 29
  | .skLogData => BitVec.ofNat 32 (bytesAt (look [] (w.rf pgSk .skLogSel 11 0) d.stock.log) (4 * i) 4)
  -- write-only registers and fields read 0 (R12); the rest as stored
  | .ttCancel | .dlCtl | .dlDirCtl | .syOpCtl | .syCellAdd | .btFloorCtl | .pmInClr | .skCtl | .btCtl | .tpCtl => 0
  | _ => stored

/-! ### What a reader sees (R393) -/

/-- Whether a function or core may write a register, or a group of one (the chapters' writer rules; R421, R388). -/
def Work.mayWrite (w : Work) (p : Page) (r : Reg) (i : Nat) (who : Agent) : Bool :=
  match who with
  | .fn 0 =>
    (match r.who with
      | .slot => i == 0
      | .fnOnly => i == 0
      | _ => true)
  | .fn n =>
    (match r.who with
      | .owner => w.ownerOf p.num == some n
      | .ctx | .skCtx => i == n
      | .fnOnly => i == n
      | .slot => i == n
      | .anyFn | .anyWriter => true
      | .rwdPf => false
      | .exGroup => w.grpOwner (w.grpSel n) == n
      | .pf | .pfCores => false)
  | .core n _ =>
    (match r.who with
      | .slot => i == 32 + n
      | .pfCores | .skCtx | .anyWriter | .rwdPf => true
      | _ => false)

/-- Whether a reader sees a register, or reads 0 from it. A control core sees what the PF sees but for slots (R81, R309, R423). -/
def Work.maySee (w : Work) (p : Page) (r : Reg) (i : Nat) (who : Agent) : Bool :=
  match who with
  | .fn 0 => true
  | .core n _ => decide (r.who ≠ .slot) || i == 32 + n
  | .fn n =>
    if r.id = .pageId ∨ r.id = .pageVer ∨ r.id = .pageCaps ∨ r.id = .rejInfo then true
    else if p.block = .cr ∨ p.block = .pm ∨ r.id = .ebDrained then true
    else if p.block.isCluster then w.ownerOf p.num == some n
    else if r.id = .ttCtxCfg then i == n
    else (r.writable || r.who == .slot) && w.mayWrite p r i who

/-- A DWORD of BAR0 as a reader sees it, with its page, register and copy where there is one. -/
def Work.peek (w : Work) (off : Nat) (who : Agent) : Word :=
  match pageAt off with
  | none => 0
  | some p =>
    if p.present w.variant = false ∨ w.pageOffline (some p) then 0
    else match findReg (pageRegs p.block) (off % 0x1000) with
      | none => 0
      | some (r, i) =>
        if w.maySee p r i who = false then 0
        else if w.pageOn p = false ∧ 0x100 ≤ off % 0x1000 then 0
        else
          match r.id with
          | .cntHi =>
            match look none (writerOf who * 2 ^ 26 + off) w.dev.hiLatch with
            | some h => (w.value p r.id i who &&& 0x80000000) ||| (h &&& 0x7FFFFFFF)
            | none => w.value p r.id i who
          | .crTimeHi => (look none (writerOf who * 2 ^ 26 + off) w.dev.hiLatch).getD 0
          | _ => w.value p r.id i who

/-- Take the latch of a HI word for a reader. -/
def Work.latchHi (w : Work) (off : Nat) (who : Agent) (v : Word) : Work :=
  w.upd (fun d => { d with hiLatch := put none (writerOf who * 2 ^ 26 + off) (some v) d.hiLatch })

/-- A read of one DWORD of BAR0: its value, and the latch it takes. Reads of functions count in PX_CNT_REG_RD (R422). -/
def Work.readReg (w : Work) (off : Nat) (who : Agent) : Word × Work :=
  let v := w.peek off who
  let w := match who with
    | .fn _ => w.count pgPx 0
    | .core _ _ => w
  match pageAt off with
  | none => (v, w)
  | some p =>
    match findReg (pageRegs p.block) (off % 0x1000) with
    | none => (v, w)
    | some (r, i) =>
      if p.present w.variant = false ∨ w.pageOffline (some p) ∨ w.maySee p r i who = false ∨ w.pageOn p = false then (v, w)
      else match r.id with
        | .cntLo => (v, w.latchHi (off + 4) who (w.value p .cntHi i who))
        | .crTimeLo => (v, w.latchHi (off + 4) who (w.value p .crTimeHi i who))
        | _ => (v, w)

/-- A virtual function answers only while VF Enable is set, and never in recovery (R391, R443). Log 46, DEDUCED: host accesses while the module is OFF or the function does not answer. -/
def Work.answers (w : Work) (who : Agent) : Bool :=
  decide (w.dev.power.state ≠ .off) && (match who with
    | .fn 0 => true
    | .fn _ => w.dev.vfEnabled && decide (w.dev.boot.mode ≠ .recovery)
    | .core _ _ => true)

/-- A read by a function or a core; the value leaves the device where a function reads. -/
def counterLoReadWork (who : Agent) (off : Nat) (w : Work) : Work :=
  if w.answers who then
    let (v, w) := w.readReg (off / 4 * 4) who
    match who with
    | .fn n => w.say (.completion n (leBytes 4 v.toNat) false)
    | .core _ _ => w
  else w

/-- COUNTER_LO_READ (R122, R488). -/
def execCounterLoRead (who : Agent) (off : Nat) (s : State) : Host.Outcome State Fault Refusal := s.run (counterLoReadWork who off)

/-- CR_TIME_LO is read. -/
def crTimeLoReadWork (who : Agent) (w : Work) : Work := counterLoReadWork who (pgCr.base + 0x100) w

/-- CR_TIME_LO_READ (R317). -/
def execCrTimeLoRead (who : Agent) (s : State) : Host.Outcome State Fault Refusal := s.run (crTimeLoReadWork who)

end Sys2Proof.Machine
end

