-- ==== Sys2Proof/Machine/Stocktake.lean ====
section
/-! DEFINITION. Stocktake: snapshots and the error log (R482 to R493). -/

namespace Sys2Proof.Machine

def Work.stock (w : Work) (f : Stock → Stock) : Work := w.upd (fun d => { d with stock := f d.stock })

/-- SK_AT. -/
def Work.skAt (w : Work) : Nat := (w.reg pgSk .skAtLo).toNat + (w.reg pgSk .skAtHi).toNat * 2 ^ 32

/-- ARM_AT is written: at least 24 beats ahead the latch falls on SK_AT, otherwise 24 beats after the write, late (R484). -/
def Work.armAt (w : Work) : Work :=
  let t := roundUp w.skAt 4
  if w.dev.time + 96 ≤ t then w.stock (fun s => { s with armed := some t, armLate := false })
  else w.stock (fun s => { s with armed := some t, armLate := true, pending := s.pending ++ [⟨w.dev.beat + 24, 3, true⟩] })

/-- The order of an armed time leaves 24 beats before its beat (R483). -/
def skAtOrderWork (w : Work) : Work :=
  match w.dev.stock.armed with
  | some t =>
    if w.dev.stock.pending.any (·.timed) ∨ w.dev.counting = false then w
    else
      let w := w.passToTime (t - 96)
      w.stock (fun s => { s with pending := s.pending ++ [⟨w.dev.beat + w.beatsTo t, 3, true⟩] })
  | none => w

/-- SK_AT_ORDER (R483, R484). -/
def execSkAtOrder (s : State) : Host.Outcome State Fault Refusal := s.run skAtOrderWork

/-- The pending snapshot that latches first. -/
def firstPending (l : List Pending) : Option Pending :=
  l.foldl (fun b p => match b with
    | none => some p
    | some q => if p.beat < q.beat then some p else some q) none

/-- PAGE_STAT of every present page that does not read its reset value. -/
def Work.allStats (w : Work) : SMap Word :=
  allPages.foldl (fun m p => if p.present w.variant then put 0x80000000 p.base (w.pageStat p) m else m) []

/-- Present pages whose ENABLE is 0. -/
def Work.gatedPages (w : Work) : List Nat :=
  (allPages.filter (fun p => p.present w.variant && !w.pageOn p)).map Page.base

/-- The latch: SK_SEQ rises, and every present page writes its area (R485, R486); PM_TRIG_OUT of SOURCE 2 pulses (R478). -/
def Work.latch (w : Work) (p : Pending) : Work :=
  let seq := w.reg pgSk .skSeq + 1
  let t := w.dev.time
  let late : Bool := w.dev.stock.armLate
  let snap : Snap := ⟨seq, t, w.allStats, w.gatedPages, w.dev.ctrs⟩
  let w := w.stock (fun s => { s with snap := some snap })
  let w := w.setReg pgSk .skSeq seq
  let w := w.setReg pgSk .skLatchLo (BitVec.ofNat 32 t)
  let w := w.setReg pgSk .skLatchHi (BitVec.ofNat 32 (t / 2 ^ 32))
  let w := w.setRf pgSk .skStat 27 24 p.source
  let w := w.whenB p.timed (fun w => (w.setRf pgSk .skStat 28 28 (b2n late)).stock (fun s => { s with armed := none, armLate := false }))
  let w := w.whenB (w.rb pgSk .skCfg 31) (fun w => w.setRf pgSk .skStat 30 30 1)
  let w := w.count pgSk 0
  w.pulseSource 2

/-- The latch beat of the pending snapshot that latches first. A time trigger whose beat falls while HELD is discarded. -/
def snapshotLatchWork (w : Work) : Work :=
  match firstPending w.dev.stock.pending with
  | none => w
  | some p =>
    let w := w.passTo p.beat
    let w := w.stock (fun s => { s with pending := s.pending.erase p })
    if p.timed ∧ w.rb pgSk .skStat 30 then
      (w.stock (fun s => { s with armed := none, armLate := false })).count pgSk 2
    else w.latch p

/-- SNAPSHOT_LATCH (R483 to R486). -/
def execSnapshotLatch (s : State) : Host.Outcome State Fault Refusal := s.run snapshotLatchWork

/-- The log writes one record per beat, and discards one whose turn comes while the ring is full (R492). ERR_FIRST of the page
is set from the record's place when it is not valid and an error stands (R491; log 24, DEDUCED). -/
def logWriteWork (w : Work) : Work :=
  match w.dev.stock.queue with
  | [] => w
  | r :: rest =>
    let w := w.passTo w.dev.stock.logAt
    let w := w.stock (fun s => { s with queue := rest, logAt := w.dev.beat + 1 })
    let head := w.reg pgSk .skLogHead
    if serialDiff head.toNat (w.reg pgSk .skLogTail).toNat = 4096 then w.count pgSk 4
    else
      let slot := head.toNat % 4096
      let w := w.stock (fun s => { s with log := put [] slot r.bytes s.log })
      let w := w.setReg pgSk .skLogHead (head + 1)
      match pageAt r.page with
      | some p =>
        w.whenB (!w.rb p .errFirst 31 && w.reg p .errStat != 0)
          (fun w => w.setReg p .errFirst (atBit 1 31 ||| atBit (slot * 32) 0))
      | none => w

/-- LOG_WRITE (R491, R492). -/
def execLogWrite (s : State) : Host.Outcome State Fault Refusal := s.run logWriteWork

end Sys2Proof.Machine
end

