-- ==== Sys2Proof/Machine/RegWrite.lean ====
section
/-! DEFINITION. Register writes: the checks of R502 in their order, the effect of a write on every register of BAR0 and BAR2, the
record of a rejection (R6, R406, R407), and the commands that are writes of one register. -/

namespace Sys2Proof.Machine

/-! ### Rejections -/

/-- R406: the record of a rejected write. -/
def rejWord (off : Nat) (c : Rej) : Word := atBit 1 31 ||| atBit (off % 0x1000) 16 ||| atBit c.code 0

def Work.reject (w : Work) (p : Page) (who : Agent) (off : Nat) (c : Rej) : Work :=
  w.upd (fun d => { d with rejs := put 0 (rejKey p who) (rejWord off c) d.rejs })

/-- R6, R443: a write to an absent or off-line page is recorded in the hub page. -/
def Work.rejectHub (w : Work) (who : Agent) (off : Nat) (c : Rej) : Work :=
  (w.reject pgHub who off c).upd (fun d => { d with
    hubRej := put 0 (writerOf who) (atBit 1 31 ||| atBit (off / 0x1000 * 0x1000) 0) d.hubRej })

/-- A check that fails with a code. -/
def need (c : Bool) (r : Rej) : Except Rej Unit := if c then .ok () else .error r

/-! ### Storing -/

/-- A write of the RW fields of a register (R12). -/
def Work.storeRw (w : Work) (p : Page) (r : Reg) (i : Nat) (v : Word) : Work :=
  w.setReg p r.id ((w.reg p r.id i &&& ~~~ r.rwMask) ||| (v &&& r.rwMask)) i

/-- W1C fields of a register that holds them. -/
def Work.clear1 (w : Work) (p : Page) (r : Reg) (i : Nat) (v : Word) : Work :=
  w.setReg p r.id (w.reg p r.id i &&& ~~~ (v &&& r.w1cMask)) i

/-- Drop a range of registers back to their reset values. -/
def Work.resetRegs (w : Work) (lo hi : Nat) : Work := w.upd (fun d => { d with regs := dropRange lo hi d.regs })

/-- Every counter of a page reads 0 with its OVF bit clear. -/
def Work.clearCounters (w : Work) (p : Page) : Work := w.upd (fun d => { d with ctrs := dropRange p.base (p.base + 0x1000) d.ctrs })

/-! ### Effects by group of registers. `v` is the value written; its reserved bits are 0. -/

/-- ERR_STAT; ERR_FIRST clears with the last bit (R405). -/
def Work.clearErr (w : Work) (p : Page) (r : Reg) (v : Word) : Work :=
  let w := w.clear1 p r 0 v
  if w.reg p .errStat = 0 then w.setReg p .errFirst 0 else w

/-- What a cluster unit shows through its RO registers goes back with a page reset (R402). Log 57, DEDUCED: PAGE_CTL.RESET (R402). -/
def Work.resetUnit (w : Work) (p : Page) : Work :=
  let f (g : Cluster → Cluster) : Work := w.setCluster p.num g
  match p.block with
  | .gu => f (fun cl => { cl with winLast := 0 })
  | .ta => f (fun cl => { cl with taLast := 0 })
  | .ve => f (fun cl => { cl with opIndex := 0, veBusyAt := 0 })
  | .sp => f (fun cl => { cl with mergeAt := 0 })
  | .hk => f (fun cl => { cl with gens := [] })
  | _ => w

/-- PAGE_CTL (R402). -/
def Work.writePageCtl (w : Work) (p : Page) (v : Word) : Except Rej Work :=
  let old := w.reg p .pageCtl
  let en := bitOf v 0
  if bitOf v 2 ∧ (bitOf old 0 ∨ en) then .error .state
  else if bitOf old 0 ∧ en = false ∧ bitOf (w.pageStat p) 30 = false then .error .state
  else
    let w := w.setReg p .pageCtl (v &&& 3)
    .ok (if bitOf v 2 then
      (((((w.resetRegs (p.base + 0x100) (p.base + 0x1000)).clearCounters p).setReg p .errStat 0).setReg p .errFirst 0).resetUnit p)
    else w)

/-- A context has a graph admitted, saved or being admitted, that has not ended. -/
def Dev.incomplete (d : Dev) (ctx : Nat) : Bool :=
  (d.graphs ++ d.saved).any (fun g => g.ctx == ctx && !g.ended) || d.admissions.any (fun a => a.graph.ctx == ctx)

/-- TT_CTX_CFG (R54). -/
def Work.writeCtxCfg (w : Work) (n : Nat) (r : Reg) (v : Word) : Except Rej Work := do
  let old := w.reg pgTt .ttCtxCfg n
  let enOf (k : Nat) : Bool := if k = n then bitOf v 31 else w.rb pgTt .ttCtxCfg 31 k
  let quotaOf (k : Nat) : Nat := if k = n then fld v 17 0 else w.rf pgTt .ttCtxCfg 17 0 k
  let sum := (List.range 32).foldl (fun a k => if enOf k then a + quotaOf k else a) 0
  need (decide (fld v 29 28 ≤ 1)) .range
  need (decide (sum ≤ 131072) || (bitOf v 31 == bitOf old 31 && fld v 17 0 == fld old 17 0)) .range
  need (!(bitOf old 31 && !bitOf v 31 && w.dev.incomplete n)) .state
  return w.storeRw pgTt r n v

/-- TT_PITCH: the ranges of a value with VALID set (R74). -/
def pitchRange (v : Word) : Bool :=
  !bitOf v 31 || (decide (fld v 19 15 ≤ 17) && decide (fld v 14 11 ≤ 11) && decide (1 ≤ fld v 10 6) && decide (fld v 10 6 ≤ 18)
    && decide (1 ≤ fld v 5 2) && decide (fld v 5 2 ≤ 12))

/-- TT_CANCEL (R70). -/
def Work.writeCancel (w : Work) (who : Agent) (v : Word) : Except Rej Work := do
  let scope := fld v 31 30
  let q := fld v 9 0
  need (decide (scope ≤ 2)) .range
  let tag := (look 0 (writerOf who) w.dev.cancelTags).toNat
  let named (g : Graph) : Bool :=
    if scope = 0 then g.queue == q && g.tag == tag else if scope = 1 then g.queue == q else g.ctx == q / 32
  return w.cancelGraphs named false

/-- TT_SAVE_CTL (R77). A SAVE of a context that is already saved is accepted (log 96, DESIGN CHOICE). -/
def Work.writeSaveCtl (w : Work) (r : Reg) (v : Word) : Except Rej Work := do
  let op := fld v 25 24
  need (op == 1 || op == 2) .range
  need (fld v 15 0 != 0) .range
  need w.dev.save.isNone .state
  let w := w.storeRw pgTt r 0 v
  return if op = 1 then w.saveStart (fld v 20 16) (fld v 15 0) else w.restore (fld v 20 16)

/-- Ranges of the RW registers of the cluster pages (R121, R152, R154, R208, R253, R276). -/
def clusterRange (v : Variant) (id : RegId) (x : Word) : Except Rej Unit :=
  match id with
  | .guWindow => need (decide (256 ≤ fld x 12 0) && decide (fld x 12 0 ≤ 4096) && fld x 12 0 % 256 == 0) .range
  | .guPromote => need (decide (fld x 21 16 ≤ 32) && decide (8 ≤ fld x 12 0) && decide (fld x 12 0 ≤ 4096)) .range
  | .guRemoteTo => need (decide (fld x 15 0 ≠ 0)) .range
  | .guCombine => need (decide (1 ≤ fld x 10 0) && decide (fld x 10 0 ≤ 1024)) .range
  | .whCfg =>
    let n := fld x 19 16
    let k := fld x 10 0
    need (decide (1 ≤ n) && decide (n ≤ 8) && decide (64 ≤ k) && decide (k ≤ 1024) && k % (64 * n) == 0) .range
  | .whDeal => need (decide (fld x 15 0 ≠ 0)) .range
  | .chNodeCfg => need (decide (fld x 11 0 ≠ 0)) .range
  | .chRootCfg => need (decide (1 ≤ fld x 8 0) && decide (fld x 8 0 ≤ 256)) .range
  | .taCfg => do
    need (!(bitOf x 31 && !v.hasSparse)) .absent
    need (decide (fld x 11 8 = 0) || decide (4 ≤ fld x 11 8)) .range
  | .spCfg => need (!(bitOf x 31 && !v.hasSparse)) .absent
  | .hkCfg => need (decide (16 ≤ fld x 27 16) && decide (fld x 27 16 ≤ 2048) && decide (64 ≤ fld x 10 0) && decide (fld x 10 0 ≤ 1024)) .range
  | _ => .ok ()

/-- HK_TC_CFG: FLUSH, and a clear ENABLE, drop every line (R260, R261, R276). -/
def Work.writeTcCfg (w : Work) (p : Page) (r : Reg) (v : Word) : Work :=
  let w := w.storeRw p r 0 v
  if bitOf v 0 ∨ bitOf v 31 = false then w.setCluster p.num (fun cl => { cl with tc := [] }) else w

/-- Two ranges of numbers share one. -/
def rangesMeet (a n b m : Nat) : Bool := decide (0 < n) && decide (0 < m) && decide (a < b + m) && decide (b < a + n)

/-- An incomplete EMBED_BAG task of a context. -/
def Dev.embeds (d : Dev) (ctx : Nat) : Bool :=
  (d.graphs ++ d.admissions.map (·.graph)).any (fun g => g.ctx == ctx && g.tasks.any (fun t => t.state.live && t.kind == some .embedBag))

/-- EB_TABLES (R184). -/
def Work.writeTables (w : Work) (n : Nat) (r : Reg) (v : Word) : Except Rej Work := do
  let first := fld v 13 0
  let count := fld v 30 16
  need (decide (first + count ≤ 16384)) .range
  need (!(List.range 32).any (fun k => decide (k ≠ n)
    && rangesMeet first count (w.rf pgEb .ebTables 13 0 k) (w.rf pgEb .ebTables 30 16 k))) .range
  need (!(decide (v ≠ w.reg pgEb .ebTables n) && w.dev.embeds n)) .state
  return w.storeRw pgEb r n v

/-- EB_TBL_CTL of the selected table (R180, R184); a selection at or above COUNT names no table of the context (log 40, DEDUCED). Log 63, DEDUCED: PAUSED and VERSIONED set by one write (R180). -/
def Work.writeTblCtl (w : Work) (n : Nat) (v : Word) : Except Rej Work := do
  let old := look 0 (w.selSlot n) w.dev.tblCtl
  let versioned : Bool := bitOf old 30
  need (decide (w.rf pgEb .ebTblSel 13 0 n < w.rf pgEb .ebTables 30 16 n)) .range
  need (!(bitOf v 31 && !bitOf old 31 && (versioned || bitOf v 30))) .state
  need (!(bitOf old 31 && bitOf v 30 != versioned)) .state
  return w.upd (fun d => { d with tblCtl := put 0 (w.selSlot n) (v &&& 0xC0000000) d.tblCtl })

/-- SH_MIG_CTL (R187). -/
def Work.writeMigCtl (w : Work) (c : Nat) (r : Reg) (v : Word) : Except Rej Work := do
  let ctx := fld v 20 16
  let go := bitOf v 31
  need (decide (fld v 13 0 < w.rf pgEb .ebTables 30 16 ctx)) .range
  need (!(go && w.rf ⟨.sh, c⟩ .shMigCount 15 0 == 0)) .range
  need (!(go && (w.dev.mig? c).isSome)) .state
  let w := w.storeRw ⟨.sh, c⟩ r 0 v
  return if go then w.startList c ctx (fld v 13 0) else w

/-- SY_CTX_FIRST and SY_CTX_COUNT (R310). -/
def Work.writeSyRange (w : Work) (n : Nat) (r : Reg) (v : Word) : Except Rej Work := do
  let old := w.rf pgSy .syCtxFirst 19 0 n
  let first := if r.id = .syCtxFirst then fld v 19 0 else old
  let count := if r.id = .syCtxCount then fld v 20 0 else w.rf pgSy .syCtxCount 20 0 n
  need (decide (first + count ≤ 1048576)) .range
  need (!(List.range 32).any (fun k => decide (k ≠ n)
    && rangesMeet first count (w.rf pgSy .syCtxFirst 19 0 k) (w.rf pgSy .syCtxCount 20 0 k))) .range
  need (!(decide (first ≠ old) && w.dev.sync.waits.any (fun x => decide (old ≤ x.phys) && decide (x.phys < old + count)))) .state
  return w.storeRw pgSy r n v

/-- The owner of a cluster's pitch is saved, or there is no pitch (R307, R312). -/
def Work.cellsShut (w : Work) (c : Nat) : Bool :=
  match w.ownerOf c with
  | none => true
  | some n => w.rb pgTt .ttCtxCfg 30 n

/-- A resident instance holds cell k (R293, R312). -/
def Work.cellHeld (w : Work) (c k : Nat) : Bool :=
  (w.dev.resident c).any (fun i => !i.isLane && match i.task? w.dev with
    | some t => t.cells / 2 ^ k % 2 == 1
    | none => false)

/-- SY_CELL[k] and SY_CELL_WS[j] (R312). -/
def Work.writeCell (w : Work) (c k : Nat) (v : Word) : Except Rej Work := do
  need (v == w.reg ⟨.sy, c⟩ .syCell k || !(w.cellsShut c || w.cellHeld c k)) .state
  return (w.setReg ⟨.sy, c⟩ .syCell v k).testCell c k
def Work.writeCellWs (w : Work) (c j : Nat) (v : Word) : Except Rej Work := do
  let old := w.reg ⟨.sy, c⟩ .syCellWs j
  let moved (b : Nat) : Bool := fld v (8 * b + 7) (8 * b) != fld old (8 * b + 7) (8 * b)
  need (!(List.range 4).any (fun b => moved b && (w.cellsShut c || w.cellHeld c (4 * j + b)))) .state
  return w.setReg ⟨.sy, c⟩ .syCellWs v j

/-- SY_CELL_ADD (R312). -/
def Work.writeCellAdd (w : Work) (c : Nat) (v : Word) : Except Rej Work := do
  need (decide (fld v 21 16 ≤ 47) && decide (fld v 15 0 ≠ 0)) .range
  need (!w.cellsShut c) .state
  return w.cellAdd c (fld v 21 16) (fld v 15 0)

/-- CR_CFG (R323, R331). -/
def Work.writeCrCfg (w : Work) (r : Reg) (v : Word) : Except Rej Work := do
  let src := fld v 1 0
  need (decide (src ≠ 3)) .range
  need (!(src == 2 && !(w.port (fld v 11 8)).mayLead)) .state
  let changed : Bool := decide (src ≠ w.source)
  let w := w.freeExpected.storeRw pgCr r 0 v
  return if changed then
    let w := w.crier (fun c => { c with
      history := [], upMean := none, goodRun := 0, missedRun := 0, expected := (w.dev.time / c.period + 1) * c.period })
    let w := (w.setRf pgCr .crStatus 29 29 0).setRf pgCr .crStatus 27 24 0
    if src = 0 then w.setRf pgCr .crStatus 28 28 (b2n w.dev.crier.refLost) else w.setUnlocked none
  else w

/-- TP_CTL (R386): both bits' checks come before either effect. -/
def Work.writeTpCtl (w : Work) (p : Nat) (v : Word) : Except Rej Work := do
  let mask := fld v 15 0
  let w1 ← if bitOf v 31 then w.retrain p else .ok w
  let w2 ← if mask ≠ 0 then w.rejoin p mask else .ok w
  return if bitOf v 31 then w1 else w2

/-- The group registers (R374, R388): while BUSY no write; only the PF changes OWNER. -/
def Work.writeGrp (w : Work) (fn k : Nat) (v : Word) : Except Rej Work := do
  let g := w.grpSel fn
  if k = 0 ∧ bitOf v 31 then
    let x ← if w.grpBusy g then (match w.validateGroup g (v &&& 0x9F00FFFF) with
      | .error .state => .error .state
      | .error c => .error c
      | .ok _ => .error .state) else w.validateGroup g (v &&& 0x9F00FFFF)
    return x
  else
    need (!w.grpBusy g) .state
    return w.setGrp g k (if k = 0 then v &&& 0x9F00FFFF else v)

/-- BT_FLOOR_CTL (R453). `fe`: the write of the guarded region fails. -/
def Work.writeFloorCtl (w : Work) (v : Word) (fe : Bool) : Except Rej Work := do
  let b := w.dev.boot
  let types := fld v 5 0
  need (decide (b.mode = .service)) .state
  need (!(List.range 6).any (fun t => types / 2 ^ t % 2 == 1 && (b.secOf t).isNone)) .state
  return w.raiseFloors (bitOf v 8) types fe

/-- BT_UPD_CTL (R449). -/
def Work.writeUpdCtl (w : Work) (r : Reg) (v : Word) : Except Rej Work := do
  let b := w.dev.boot
  let len := w.rf pgBt .btUpdLen 25 0
  let go := bitOf v 31
  need (!(go && (decide (len < 6144) || decide (33554432 < len)))) .range
  need (!(go && (b.updTarget.isSome || decide (b.mode = .booting) || (bitOf v 0 && decide (b.mode = .recovery))))) .state
  let w := w.storeRw pgBt r 0 v
  return if go then
    let a := (w.reg pgBt .btUpdLo).toNat + (w.reg pgBt .btUpdHi).toNat * 2 ^ 32
    w.boot (fun b => { b with updTarget := some (b2n (bitOf v 0)), updAddr := a, updLen := len })
  else w

/-- BT_CTL: a plan reset, then a new start (R437, R440, R443). -/
def Work.writeBtCtl (w : Work) (v : Word) : Except Rej Work := do
  need (!(bitOf v 1 && decide (w.dev.boot.mode = .booting))) .state
  let w := w.whenB (bitOf v 1) (fun w => w.journalNote 0 5)
  return w.whenB (bitOf v 0) Work.restart

/-- Ranges of the RW registers of the Crier, memory, links and power manager (R331, R351, R386, R480). -/
def hubRange (id : RegId) (x : Word) : Except Rej Unit :=
  match id with
  | .syCfg => need (decide (fld x 15 0 ≠ 0)) .range
  | .syParkTo => need (decide (fld x 15 0 ≠ 0)) .range
  | .syXlateHi => need (decide (fld x 31 12 ≤ 983040)) .range
  | .crEpochPeriod => need (decide (10 ≤ fld x 23 0) && decide (fld x 23 0 ≤ 10000000)) .range
  | .crLoadLo => need (fld x 1 0 == 0) .align
  | .ttSaveAddrLo => need (fld x 7 0 == 0) .align
  | .crEpochLen => do
    need (x.toNat % 4 == 0) .align
    need (decide (1000 ≤ x.toNat)) .range
  | .crLock => need (decide (4 ≤ fld x 31 24) && decide (8 ≤ fld x 15 0)) .range
  | .crXfer => need (decide (256 ≤ fld x 15 0)) .range
  | .hmScrub => need (decide (1 ≤ fld x 7 0) && decide (fld x 7 0 ≤ 168)) .range
  | .tpLoss => need (decide (fld x 15 0 ≠ 0)) .range
  | .pmCap => need (decide (1 ≤ fld x 23 16) && decide (fld x 23 16 ≤ 100) && decide (1000 ≤ fld x 15 0) && decide (fld x 15 0 ≤ 2900)) .range
  | .pmStep => need (decide (50 ≤ fld x 11 0) && decide (fld x 11 0 ≤ 3000)) .range
  | .pmInCfg => need (decide (8 ≤ fld x 31 16) && decide (1 ≤ fld x 14 0)) .range
  | .skCfg => need (fld x 15 0 == 0 || allErrs.any (fun e => e.code == fld x 15 0)) .range
  | .skRoute => need (decide (fld x 25 24 ≠ 0)) .range
  | _ => .ok ()

/-- A vector number written to a register: below the function's count, or none (R414). -/
def vectorOk (fn v : Nat) : Bool := v == 0xFFFF || decide (v < vectorsOf fn)

/-- SK_CTL (R483, R484, R496): DISARM acts first. -/
def Work.disarm (w : Work) : Work :=
  w.stock (fun s => { s with armed := none, armLate := false, pending := s.pending.filter (fun p => !p.timed) })
def Work.writeSkCtl (w : Work) (v : Word) : Except Rej Work := do
  need (!(bitOf v 1 && w.dev.stock.armed.isSome && !bitOf v 3)) .state
  let w := w.whenB (bitOf v 3) Work.disarm
  let w := w.whenB (bitOf v 2) (fun w => w.setRf pgSk .skStat 30 30 0)
  let w := w.whenB (bitOf v 1) Work.armAt
  return w.whenB (bitOf v 0) (fun w => w.trigger 1)

/-- SK_LOG_TAIL (R493). -/
def Work.writeLogTail (w : Work) (v : Word) : Except Rej Work := do
  need (decide (0 ≤ serialDiff v.toNat (w.reg pgSk .skLogTail).toNat)) .range
  need (decide (0 ≤ serialDiff (w.reg pgSk .skLogHead).toNat v.toNat)) .range
  return w.setReg pgSk .skLogTail v

/-- PM_TRIG_OUT (R480). -/
def Work.writeTrigOut (w : Work) (r : Reg) (k : Nat) (v : Word) : Except Rej Work := do
  need (decide (fld v 2 0 ≤ 4)) .range
  need (!(bitOf v 31 && decide (fld v 2 0 ≠ 1))) .state
  return (w.storeRw pgPm r k v).whenB (bitOf v 31) (fun w => w.pulse (k + 1))

/-- CNT_CTL: FREEZE is stored, CLEAR clears (R122, R489). -/
def Work.writeCntCtl (w : Work) (p : Page) (r : Reg) (v : Word) : Work :=
  (w.storeRw p r 0 v).whenB (bitOf v 0) (fun w => w.clearCounters p)

/-- OVF of a counter (R122). -/
def Work.writeCntHi (w : Work) (p : Page) (i : Nat) (v : Word) : Work :=
  if bitOf v 31 then
    let key := p.base + p.block.counters.1 + 8 * i
    w.upd (fun d => { d with ctrs := put (0, false) key ((look (0, false) key d.ctrs).1, false) d.ctrs })
  else w

/-- Step 2 of R502 beyond the register itself: the write names no context, queue, slot or object that the writer may not reach
(R54, R58, R70, R187, R310, R388). Log 80, DEDUCED: control cores and registers of functions (R433). -/
def Work.reaches (w : Work) (p : Page) (id : RegId) (i : Nat) (who : Agent) (v : Word) : Bool :=
  let pg := writerOf who
  match id with
  | .ttCtxCfg =>
    let old := w.reg pgTt .ttCtxCfg i
    pg == 0 || (pg == i && bitOf v 31 == bitOf old 31 && fld v 17 0 == fld old 17 0)
  | .ttXlateInv | .syXlateInv => pg == 0 || pg == fld v 4 0
  | .ttCancel => mayCancel who (fld v 9 0)
  | .shMigCtl => w.ownerOf p.num == some (fld v 20 16)
  | .syOpObj => decide (32 ≤ i) || fld v 28 24 == i
  | .exGrpCfg => pg == 0 || fld v 28 24 == w.grpOwner (w.grpSel pg)
  | _ => true

/-- Steps 5 to 7 of R502, and the effect of an accepted write. -/
def Work.writeEffect (w : Work) (p : Page) (r : Reg) (i : Nat) (who : Agent) (v : Word) (fe : Bool) : Except Rej Work :=
  let c := p.num
  let pg := writerOf who
  let plain (chk : Except Rej Unit) : Except Rej Work := do
    chk
    return w.storeRw p r i v
  match r.id with
  | .errStat => .ok (w.clearErr p r v)
  | .rejInfo => .ok (if bitOf v 31 then
      w.upd (fun d => { d with rejs := put 0 (rejKey p who) (look 0 (rejKey p who) d.rejs &&& 0x7FFFFFFF) d.rejs }) else w)
  | .hubRejAddr => .ok (if bitOf v 31 then
      w.upd (fun d => { d with hubRej := put 0 pg (look 0 pg d.hubRej &&& 0x7FFFFFFF) d.hubRej }) else w)
  | .cntHi => .ok (w.writeCntHi p i v)
  | .cntCtl => .ok (w.writeCntCtl p r v)
  | .pageCtl => w.writePageCtl p v
  -- Task Tracker
  | .ttCtxCfg => w.writeCtxCfg i r v
  | .ttPitch => do
    need (pitchRange v) .range
    w.stage (Agent.slot who) (regOff p r.id i) v
  | .ttXlateLo | .ttXlateHi => w.stage (Agent.slot who) (regOff p r.id i) v
  | .ttXlateInv => do
    need w.dev.ttInvDue.isNone .state
    return w.xlateInv (fld v 4 0)
  | .ttCancel => w.writeCancel who v
  | .ttSaveCtl => w.writeSaveCtl r v
  | .ttCancelTag => .ok (w.upd (fun d => { d with cancelTags := put 0 pg v d.cancelTags }))
  -- Deals
  | .dlCtl => w.dealOp i (fld v 2 0) (Agent.thread who) (bitOf v 3) (bitOf v 4)
  | .dlDirCtl => if bitOf v 0 then w.dirPush i (bitOf v 1) (bitOf v 2) (bitOf v 3) else .ok w
  -- cluster pages
  | .hkTcCfg => .ok (w.writeTcCfg p r v)
  | .ebTables => w.writeTables i r v
  | .ebRegLo | .ebRegHi => do
    need (!w.dev.embeds i) .state
    return w.storeRw p r i v
  | .ebTblSel => do
    need (decide (fld v 13 0 < w.rf pgEb .ebTables 30 16 i)) .range
    return w.storeRw p r i v
  | .ebTblCtl => w.writeTblCtl i v
  | .shMigCtl => w.writeMigCtl c r v
  -- synchronisation
  | .syXlateInv => do
    need w.dev.sync.invDue.isNone .state
    return w.updSync (fun y => { y with invDue := some (fld v 4 0) })
  | .syCtxFirst | .syCtxCount => w.writeSyRange i r v
  | .syOpCtl => w.syOp i (fld v 3 0) (Agent.thread who) (bitOf v 4)
  | .syOpVec => do
    need (decide (32 ≤ i) || vectorOk i (fld v 15 0)) .range
    return w.storeRw p r i v
  | .syCellAdd => w.writeCellAdd c v
  | .syCell => w.writeCell c i v
  | .syCellWs => w.writeCellWs c i v
  -- Crier
  | .crCfg => w.writeCrCfg r v
  | .crEpochPeriod => do
    hubRange .crEpochPeriod v
    return w.freeExpected.storeRw p r i v
  | .crLoadCtl => if bitOf v 0 then (do
      need (!w.dev.crier.armed) .state
      return w.armLoad) else .ok w
  -- memory and links
  | .hmErrAddrHi => .ok (w.clear1 p r i v)
  | .tpCtl => w.writeTpCtl c v
  | .exGrpSel => .ok (w.exch (fun e => { e with sel := put 0 pg (fld v 7 0) e.sel }))
  | .exGrpCfg => w.writeGrp pg 0 v
  | .exGrpId => w.writeGrp pg 1 v
  | .exGrpSize => w.writeGrp pg 2 v
  | .exGrpMemLo => w.writeGrp pg 3 v
  | .exGrpMemHi => w.writeGrp pg 4 v
  -- control cores
  | .ccMailbox => .ok ((w.storeRw p r i v).coreInt c 3)
  -- boot
  | .btCtl => w.writeBtCtl v
  | .btSlot => .ok (w.boot (fun b => { b with active := v &&& 0x2F }))
  | .btFloorCtl => w.writeFloorCtl v fe
  | .btUpdCtl => w.writeUpdCtl r v
  -- power
  | .pmTrip => .ok (w.clear1 p r i v)
  | .pmInClr => .ok (w.each (List.range 5) (fun k w => if bitOf v k then w.setInput k (fun x => { x with drops := 0 }) else w))
  | .pmTrigOut => w.writeTrigOut r i v
  -- Stocktake
  | .skCtl => w.writeSkCtl v
  | .skOvfSrc => .ok (w.clear1 p r i v)
  | .skLogTail => w.writeLogTail v
  | .skCtxVec => do
    need (decide (fld v 17 16 ≠ 0)) .range
    need (vectorOk i (fld v 15 0)) .range
    return w.storeRw p r i v
  | id => plain (do
    clusterRange w.variant id v
    hubRange id v)

/-! ### The write of a DWORD of BAR0 (R501, R502) -/

/-- R501, then steps 2 to 7 of R502, on a page that is present and on line. Log 76, DEDUCED: order of checks of a register write (R501, R502). -/
def Work.checkedWrite (w : Work) (p : Page) (who : Agent) (off : Nat) (v : Word) (part fe : Bool) : Except Rej Work :=
  match findReg (pageRegs p.block) off with
  | none => .ok w
  | some (r, i) =>
    if r.ignored i then .ok w
    else if w.mayWrite p r i who = false ∨ w.reaches p r.id i who v = false then .error .context
    else if part then .error .align
    else if p.block.hasPageCtl = false ∧ r.id = .pageCtl then .error .state
    else if v &&& r.reserved ≠ 0 then .error .reserved
    else if w.pageOn p = false ∧ 0x100 ≤ off then
      (match w.writeEffect p r i who v fe with
        | .error .align => .error .align
        | .error .range => .error .range
        | .error .absent => .error .absent
        | _ => .error .state)
    else w.writeEffect p r i who v fe

/-- A write of one DWORD of BAR0: it takes effect, or is rejected and recorded. -/
def Work.writeReg (w : Work) (who : Agent) (off : Nat) (v : Word) (part : Bool := false) (fe : Bool := false) : Work :=
  match pageAt off with
  | none => w.rejectHub who off .absent
  | some p =>
    if p.present w.variant = false then w.rejectHub who off .absent
    else if w.pageOffline (some p) then w.rejectHub who off .state
    else
      match w.checkedWrite p who (off % 0x1000) v part fe with
      | .ok x => x
      | .error c => w.reject p who (off % 0x1000) c

/-- A write of a register as the command of its own row: by an agent that answers. -/
def Work.poke (w : Work) (who : Agent) (off : Nat) (v : Word) (fe : Bool := false) : Work :=
  if w.answers who then w.writeReg who off v false fe else w

/-- Offset of copy i of a register. -/
def at_ (p : Page) (id : RegId) (i : Nat := 0) : Nat := regOff p id i

/-! ### Queue pages, MSI-X table and PBA of BAR2 (R407 to R409, R414) -/

/-- The doorbell (R409, R439). -/
def Work.doorbell (w : Work) (q : Nat) (t : Word) : Except Rej Work :=
  let cfg := w.qreg q .qCfg
  let tail := w.qreg q .qTail
  if w.inService = false ∨ bitOf cfg 31 = false then .error .state
  else if serialDiff t.toNat tail.toNat < 0 ∨ (2 ^ fld cfg 4 0 : Nat) < serialDiff t.toNat (w.qreg q .qHead).toNat then .error .range
  else .ok ((w.count pgPx 1).setQreg q .qTail t)

/-- An entry at HEAD is being read or admitted. -/
def Work.qBusy (w : Work) (q : Nat) : Bool := w.dev.admissions.any (fun a => a.queue == q)

/-- Effect of a write to a queue register. -/
def Work.queueEffect (w : Work) (q : Nat) (id : RegId) (v : Word) : Except Rej Work := do
  let cfg := w.qreg q .qCfg
  let en := bitOf cfg 31
  match id with
  | .qDoorbell => w.doorbell q v
  | .qBaseLo | .qBaseHi =>
    need (!en) .state
    return w.setQreg q id v
  | .qCfg =>
    need (decide (4 ≤ fld v 4 0) && decide (fld v 4 0 ≤ 16)) .range
    need (!(en && decide (fld v 4 0 ≠ fld cfg 4 0))) .state
    return w.setQreg q .qCfg v
  | .qRej => return if bitOf v 31 then w.setQreg q .qRej (w.qreg q .qRej &&& 0x7FFFFFFF) else w
  | .qReset =>
    if bitOf v 0 then
      need (!en && !w.qBusy q) .state
      return (w.setQreg q .qHead 0).setQreg q .qTail 0
    else return w
  | _ => return w

/-- A write to a queue page; its rejection is recorded in that queue's Q_REJ alone, and a rejected doorbell is counted. -/
def Work.writeQueue (w : Work) (q off : Nat) (v : Word) (part : Bool) : Work :=
  match findReg queueRegs off with
  | none => w
  | some (r, _) =>
    let res : Except Rej Work :=
      if r.ignored 0 then .ok w
      else if part then .error .align
      else if v &&& r.reserved ≠ 0 then .error .reserved
      else w.queueEffect q r.id v
    match res with
    | .ok x => x
    | .error c => (w.setQreg q .qRej (rejWord off c)).whenB (r.id == .qDoorbell) (fun w => w.count pgPx 2)

/-- A word of the MSI-X table; unmasking a vector whose pending bit is set sends its message. -/
def Work.writeMsix (w : Work) (fn off : Nat) (v : Word) : Work :=
  if off / 16 < vectorsOf fn then
    let w := w.upd (fun d => { d with msix := put (if off % 16 = 12 then 1 else 0) (fn * 2 ^ 17 + off) v d.msix })
    let vec := off / 16
    if w.msixMasked fn vec = false ∧ look false (fn * 2048 + vec) w.dev.msixPend then
      (w.upd (fun d => { d with msixPend := put false (fn * 2048 + vec) false d.msixPend })).message fn vec
    else w
  else w

/-- A DWORD of BAR2. The PBA and reserved offsets are not writable. -/
def Work.writeBar2 (w : Work) (fn off : Nat) (v : Word) (part : Bool) : Work :=
  if off < 0x20000 then w.writeQueue (32 * fn + off / 0x1000) (off % 0x1000) v part
  else if off < 0x30000 ∧ part = false then w.writeMsix fn (off - 0x20000) v
  else w

end Sys2Proof.Machine
end

