-- ==== Sys2Proof/Machine/RegCmds.lean ====
section
/-! DEFINITION. The commands that write one register each, and REGISTER_WRITE, which writes any (R395, R502). -/

namespace Sys2Proof.Machine

/-! ### REGISTER_WRITE -/

/-- Size of a BAR that holds registers, as an agent reaches it: a control core has no BAR2 (R392, R423). -/
def barBytes (who : Agent) (bar : Nat) : Nat :=
  match who, bar with
  | _, 0 => 2 ^ 26
  | .fn _, 2 => 2 ^ 18
  | _, _ => 0

/-- One DWORD of an access, with its four byte enables: none enabled writes nothing, some reject it (R395). -/
def Work.writeDword (w : Work) (who : Agent) (bar off value be : Nat) : Work :=
  let v : Word := BitVec.ofNat 32 value
  let b := be % 16
  if b = 0 then w
  else
    match who, bar with
    | .fn n, 2 => w.writeBar2 n off v (decide (b ≠ 15))
    | _, _ => w.writeReg who off v (decide (b ≠ 15))

def registerWriteWork (who : Agent) (bar off size value be : Nat) (w : Work) : Work :=
  if w.answers who then
    let w := w.writeDword who bar off value be
    if size = 8 then w.writeDword who bar (off + 4) (value / 2 ^ 32) (be / 16) else w
  else w

/-- REGISTER_WRITE (R395, R502): the access must be naturally aligned, of 4 or 8 bytes, and inside the BAR. -/
def execRegisterWrite (who : Agent) (bar off size value be : Nat) (s : State) : Host.Outcome State Fault Refusal :=
  if (size ≠ 4 ∧ size ≠ 8) ∨ off % size ≠ 0 then .fault .registerAccessMisaligned
  else if barBytes who bar < off + size then .fault .registerAccessBeyondBar
  else s.run (registerWriteWork who bar off size value be)

/-! ### Deals (R83, R84) -/

def rwdStageWork (who : Agent) (off value : Nat) (w : Work) : Work := w.poke who (off / 4 * 4) (BitVec.ofNat 32 value)

/-- RWD_STAGE (R83). -/
def execRwdStage (who : Agent) (off value : Nat) (s : State) : Host.Outcome State Fault Refusal := s.run (rwdStageWork who off value)

def dealOpenWork (who : Agent) (slot : Nat) (w : Work) : Work := w.poke who (at_ pgDl .dlCtl slot) 1

/-- DEAL_OPEN (R84). -/
def execDealOpen (who : Agent) (slot : Nat) (s : State) : Host.Outcome State Fault Refusal := s.run (dealOpenWork who slot)

def dealCommitWork (who : Agent) (slot : Nat) (atTime lateFail : Bool) (w : Work) : Work :=
  w.poke who (at_ pgDl .dlCtl slot) (2 ||| atBit (b2n atTime) 3 ||| atBit (b2n lateFail) 4)

/-- DEAL_COMMIT (R84, R85). -/
def execDealCommit (who : Agent) (slot : Nat) (atTime lateFail : Bool) (s : State) : Host.Outcome State Fault Refusal :=
  s.run (dealCommitWork who slot atTime lateFail)

def dealAbandonWork (who : Agent) (slot : Nat) (w : Work) : Work := w.poke who (at_ pgDl .dlCtl slot) 3

/-- DEAL_ABANDON (R84). -/
def execDealAbandon (who : Agent) (slot : Nat) (s : State) : Host.Outcome State Fault Refusal := s.run (dealAbandonWork who slot)

def dirPushWork (who : Agent) (slot : Nat) (compare low32 write : Bool) (w : Work) : Work :=
  w.poke who (at_ pgDl .dlDirCtl slot) (1 ||| atBit (b2n compare) 1 ||| atBit (b2n low32) 2 ||| atBit (b2n write) 3)

/-- DIR_PUSH (R84). -/
def execDirPush (who : Agent) (slot : Nat) (compare low32 write : Bool) (s : State) : Host.Outcome State Fault Refusal :=
  s.run (dirPushWork who slot compare low32 write)

/-! ### Page control (R402, R403) -/

/-- Offset of PAGE_CTL of the page at a BAR0 offset. -/
def ctlOff (page : Nat) : Nat := page / 0x1000 * 0x1000 + 0x10

def pageResetWork (who : Agent) (page value : Nat) (w : Work) : Work := w.poke who (ctlOff page) (BitVec.ofNat 32 value ||| 4)

/-- PAGE_RESET (R402). -/
def execPageReset (who : Agent) (page value : Nat) (s : State) : Host.Outcome State Fault Refusal := s.run (pageResetWork who page value)

def pageQuiesceWork (who : Agent) (page : Nat) (on enable : Bool) (w : Work) : Work :=
  w.poke who (ctlOff page) (atBit (b2n on) 1 ||| atBit (b2n enable) 0)

/-- PAGE_QUIESCE (R402, R403). -/
def execPageQuiesce (who : Agent) (page : Nat) (on enable : Bool) (s : State) : Host.Outcome State Fault Refusal :=
  s.run (pageQuiesceWork who page on enable)

def pageEnableWork (who : Agent) (page : Nat) (on quiesce : Bool) (w : Work) : Work :=
  w.poke who (ctlOff page) (atBit (b2n quiesce) 1 ||| atBit (b2n on) 0)

/-- PAGE_ENABLE (R402). -/
def execPageEnable (who : Agent) (page : Nat) (on quiesce : Bool) (s : State) : Host.Outcome State Fault Refusal :=
  s.run (pageEnableWork who page on quiesce)

/-! ### Queues (R408, R409) -/

/-- A write to one of a function's own queue pages. -/
def Work.pokeQueue (w : Work) (fn queue off : Nat) (v : Word) : Work :=
  if w.answers (.fn fn) ∧ queue < 32 then w.writeQueue (32 * fn + queue) off v false else w

def doorbellWork (fn queue tail : Nat) (w : Work) : Work := w.pokeQueue fn queue 0x000 (BitVec.ofNat 32 tail)

/-- DOORBELL (R409). -/
def execDoorbell (fn queue tail : Nat) (s : State) : Host.Outcome State Fault Refusal := s.run (doorbellWork fn queue tail)

def qResetWork (fn queue : Nat) (w : Work) : Work := w.pokeQueue fn queue 0x028 1

/-- Q_RESET (R408). -/
def execQReset (fn queue : Nat) (s : State) : Host.Outcome State Fault Refusal := s.run (qResetWork fn queue)

/-! ### Cancellation, invalidation, save and restore (R58, R70, R77) -/

def cancelWork (who : Agent) (scope queue : Nat) (w : Work) : Work := w.poke who (at_ pgTt .ttCancel) (atBit scope 30 ||| atBit queue 0)

/-- CANCEL_TAG (R70). -/
def execCancelTag (who : Agent) (queue : Nat) (s : State) : Host.Outcome State Fault Refusal := s.run (cancelWork who 0 queue)

/-- CANCEL_QUEUE (R70). -/
def execCancelQueue (who : Agent) (queue : Nat) (s : State) : Host.Outcome State Fault Refusal := s.run (cancelWork who 1 queue)

/-- CANCEL_CONTEXT (R70). -/
def execCancelContext (who : Agent) (queue : Nat) (s : State) : Host.Outcome State Fault Refusal := s.run (cancelWork who 2 queue)

def ttXlateInvWork (who : Agent) (ctx : Nat) (w : Work) : Work := w.poke who (at_ pgTt .ttXlateInv) (BitVec.ofNat 32 ctx)

/-- TT_XLATE_INV (R58, R261). -/
def execTtXlateInv (who : Agent) (ctx : Nat) (s : State) : Host.Outcome State Fault Refusal := s.run (ttXlateInvWork who ctx)

def saveCtlWork (who : Agent) (op ctx limitUs : Nat) (w : Work) : Work :=
  w.poke who (at_ pgTt .ttSaveCtl) (atBit op 24 ||| atBit ctx 16 ||| atBit limitUs 0)

/-- CONTEXT_SAVE (R77, R78). -/
def execContextSave (who : Agent) (ctx limitUs : Nat) (s : State) : Host.Outcome State Fault Refusal := s.run (saveCtlWork who 1 ctx limitUs)

/-- CONTEXT_RESTORE (R77, R80). -/
def execContextRestore (who : Agent) (ctx limitUs : Nat) (s : State) : Host.Outcome State Fault Refusal := s.run (saveCtlWork who 2 ctx limitUs)

/-! ### Clusters and tables -/

def tcFlushWork (who : Agent) (c : Nat) (enable : Bool) (w : Work) : Work :=
  w.poke who (at_ ⟨.hk, c⟩ .hkTcCfg) (atBit (b2n enable) 31 ||| 1)

/-- TC_FLUSH (R261, R276). -/
def execTcFlush (who : Agent) (cluster : Nat) (enable : Bool) (s : State) : Host.Outcome State Fault Refusal :=
  s.run (tcFlushWork who cluster enable)

def migrationGoWork (who : Agent) (c ctx table : Nat) (w : Work) : Work :=
  w.poke who (at_ ⟨.sh, c⟩ .shMigCtl) (atBit 1 31 ||| atBit ctx 16 ||| atBit table 0)

/-- MIGRATION_GO (R172, R187). -/
def execMigrationGo (who : Agent) (cluster ctx table : Nat) (s : State) : Host.Outcome State Fault Refusal :=
  s.run (migrationGoWork who cluster ctx table)

def tablePauseWork (who : Agent) (ctx : Nat) (paused versioned : Bool) (w : Work) : Work :=
  w.poke who (at_ pgEb .ebTblCtl ctx) (atBit (b2n paused) 31 ||| atBit (b2n versioned) 30)

/-- TABLE_PAUSE (R179, R184). -/
def execTablePause (who : Agent) (ctx : Nat) (paused versioned : Bool) (s : State) : Host.Outcome State Fault Refusal :=
  s.run (tablePauseWork who ctx paused versioned)

/-! ### Synchronisation (R283, R308, R312) -/

/-- A write of SY_OP_CTL. -/
def syOpWork (who : Agent) (slot op : Nat) (fence : Bool) (w : Work) : Work :=
  w.poke who (at_ pgSy .syOpCtl slot) (atBit (b2n fence) 4 ||| atBit op 0)

/-- OP_ADD (R308). -/
def execOpAdd (who : Agent) (slot : Nat) (fence : Bool) (s : State) : Host.Outcome State Fault Refusal := s.run (syOpWork who slot 1 fence)

/-- OP_TAKE (R308). -/
def execOpTake (who : Agent) (slot : Nat) (fence : Bool) (s : State) : Host.Outcome State Fault Refusal := s.run (syOpWork who slot 2 fence)

/-- OP_INIT (R285, R308). -/
def execOpInit (who : Agent) (slot : Nat) (s : State) : Host.Outcome State Fault Refusal := s.run (syOpWork who slot 3 false)

/-- OP_READ (R308). -/
def execOpRead (who : Agent) (slot : Nat) (s : State) : Host.Outcome State Fault Refusal := s.run (syOpWork who slot 4 false)

/-- OP_WAIT (R308). -/
def execOpWait (who : Agent) (slot : Nat) (s : State) : Host.Outcome State Fault Refusal := s.run (syOpWork who slot 5 false)

/-- OP_UNWAIT (R308). -/
def execOpUnwait (who : Agent) (slot : Nat) (s : State) : Host.Outcome State Fault Refusal := s.run (syOpWork who slot 6 false)

def syCellAddWork (who : Agent) (c cell n : Nat) (w : Work) : Work :=
  w.poke who (at_ ⟨.sy, c⟩ .syCellAdd) (atBit cell 16 ||| atBit n 0)

/-- SY_CELL_ADD (R312). -/
def execSyCellAdd (who : Agent) (cluster cell n : Nat) (s : State) : Host.Outcome State Fault Refusal :=
  s.run (syCellAddWork who cluster cell n)

def syXlateInvWork (who : Agent) (ctx : Nat) (w : Work) : Work := w.poke who (at_ pgSy .syXlateInv) (BitVec.ofNat 32 ctx)

/-- SY_XLATE_INV (R283, R310). -/
def execSyXlateInv (who : Agent) (ctx : Nat) (s : State) : Host.Outcome State Fault Refusal := s.run (syXlateInvWork who ctx)

/-! ### Crier, links, Exchange -/

def loadArmWork (who : Agent) (w : Work) : Work := w.poke who (at_ pgCr .crLoadCtl) 1

/-- LOAD_ARM (R319, R331). -/
def execLoadArm (who : Agent) (s : State) : Host.Outcome State Fault Refusal := s.run (loadArmWork who)

def retrainWork (who : Agent) (p : Nat) (w : Work) : Work := w.poke who (at_ ⟨.tp, p⟩ .tpCtl) (atBit 1 31)

/-- RETRAIN (R366, R386). -/
def execRetrain (who : Agent) (port : Nat) (s : State) : Host.Outcome State Fault Refusal := s.run (retrainWork who port)

def rejoinWork (who : Agent) (p links : Nat) (w : Work) : Work := w.poke who (at_ ⟨.tp, p⟩ .tpCtl) (BitVec.ofNat 32 links)

/-- REJOIN (R367, R386). -/
def execRejoin (who : Agent) (port links : Nat) (s : State) : Host.Outcome State Fault Refusal := s.run (rejoinWork who port links)

def groupValidWork (who : Agent) (owner gen : Nat) (w : Work) : Work :=
  w.poke who (at_ pgEx .exGrpCfg) (atBit 1 31 ||| atBit owner 24 ||| atBit gen 0)

/-- GROUP_VALID (R374, R388), on the group that the writer's EX_GRP_SEL selects. -/
def execGroupValid (who : Agent) (owner gen : Nat) (s : State) : Host.Outcome State Fault Refusal := s.run (groupValidWork who owner gen)

/-! ### Control cores, boot and trust -/

def ccMailboxWork (who : Agent) (core value : Nat) (w : Work) : Work := w.poke who (at_ ⟨.cc, core⟩ .ccMailbox) (BitVec.ofNat 32 value)

/-- CC_MAILBOX (R429, R435). -/
def execCcMailbox (who : Agent) (core value : Nat) (s : State) : Host.Outcome State Fault Refusal := s.run (ccMailboxWork who core value)

def restartWork (who : Agent) (w : Work) : Work := w.poke who (at_ pgBt .btCtl) 1

/-- RESTART (R437, R443). -/
def execRestart (who : Agent) (s : State) : Host.Outcome State Fault Refusal := s.run (restartWork who)

def resetPlanWork (who : Agent) (w : Work) : Work := w.poke who (at_ pgBt .btCtl) 2

/-- RESET_PLAN (R440). -/
def execResetPlan (who : Agent) (s : State) : Host.Outcome State Fault Refusal := s.run (resetPlanWork who)

def updateWork (who : Agent) (target : Nat) (w : Work) : Work := w.poke who (at_ pgBt .btUpdCtl) (atBit 1 31 ||| atBit target 0)

/-- UPDATE_FLASH (R449). -/
def execUpdateFlash (who : Agent) (s : State) : Host.Outcome State Fault Refusal := s.run (updateWork who 0)

/-- UPDATE_THREAD (R431, R449). -/
def execUpdateThread (who : Agent) (s : State) : Host.Outcome State Fault Refusal := s.run (updateWork who 1)

def floorRaiseWork (who : Agent) (key : Bool) (types : Nat) (flashError : Bool) (w : Work) : Work :=
  w.poke who (at_ pgBt .btFloorCtl) (atBit (b2n key) 8 ||| atBit types 0) flashError

/-- FLOOR_RAISE (R453). -/
def execFloorRaise (who : Agent) (key : Bool) (types : Nat) (flashError : Bool) (s : State) : Host.Outcome State Fault Refusal :=
  s.run (floorRaiseWork who key types flashError)

/-! ### Power manager, Stocktake, counters -/

def trigOutPulseWork (who : Agent) (k source : Nat) (w : Work) : Work :=
  w.poke who (at_ pgPm .pmTrigOut k) (atBit 1 31 ||| atBit source 0)

/-- TRIG_OUT_PULSE (R478, R480). -/
def execTrigOutPulse (who : Agent) (k source : Nat) (s : State) : Host.Outcome State Fault Refusal := s.run (trigOutPulseWork who k source)

def pmInClrWork (who : Agent) (mask : Nat) (w : Work) : Work := w.poke who (at_ pgPm .pmInClr) (BitVec.ofNat 32 mask)

/-- PM_IN_CLR (R480). -/
def execPmInClr (who : Agent) (mask : Nat) (s : State) : Host.Outcome State Fault Refusal := s.run (pmInClrWork who mask)

def skCtlWork (who : Agent) (v : Word) (w : Work) : Work := w.poke who (at_ pgSk .skCtl) v

/-- SK_TRIGGER (R482, R483). -/
def execSkTrigger (who : Agent) (s : State) : Host.Outcome State Fault Refusal := s.run (skCtlWork who 1)

/-- SK_ARM_AT (R484, R496). -/
def execSkArmAt (who : Agent) (disarm : Bool) (s : State) : Host.Outcome State Fault Refusal :=
  s.run (skCtlWork who (2 ||| atBit (b2n disarm) 3))

/-- SK_DISARM (R496). -/
def execSkDisarm (who : Agent) (s : State) : Host.Outcome State Fault Refusal := s.run (skCtlWork who 8)

/-- SK_RELEASE (R483, R496). -/
def execSkRelease (who : Agent) (s : State) : Host.Outcome State Fault Refusal := s.run (skCtlWork who 4)

def skLogTailWork (who : Agent) (tail : Nat) (w : Work) : Work := w.poke who (at_ pgSk .skLogTail) (BitVec.ofNat 32 tail)

/-- SK_LOG_TAIL (R493). -/
def execSkLogTail (who : Agent) (tail : Nat) (s : State) : Host.Outcome State Fault Refusal := s.run (skLogTailWork who tail)

/-- Offset of the counter control of the page at a BAR0 offset; a page without one has its offset 0x1F0 written. -/
def cntCtlOff (page : Nat) : Nat :=
  page / 0x1000 * 0x1000 + (match pageAt page with
    | some p => if p.block.counters.2.2 = 0 then 0x1F0 else p.block.counters.2.2
    | none => 0x1F0)

def counterClearWork (who : Agent) (page : Nat) (freeze : Bool) (w : Work) : Work :=
  w.poke who (cntCtlOff page) (1 ||| atBit (b2n freeze) 1)

/-- COUNTER_CLEAR (R122, R489). -/
def execCounterClear (who : Agent) (page : Nat) (freeze : Bool) (s : State) : Host.Outcome State Fault Refusal :=
  s.run (counterClearWork who page freeze)

end Sys2Proof.Machine
end

