-- ==== Sys2Proof/Machine/HostLink.lean ====
section
/-! DEFINITION. The PCI Express side: the device-memory aperture (R412, R413), address translation services and host completions
(R415, R416), Function Level Reset (R417, R418), and the link (R390, R422). -/

namespace Sys2Proof.Machine

/-! ### The aperture -/

/-- Size of BAR4: the PF's at its reset size (R392; log 43, DESIGN CHOICE). -/
def aperBytes (fn : Nat) : Nat := if fn = 0 then 2 ^ 28 else 2 ^ 30

/-- Reader of an aperture access. -/
def aperReader (fn : Nat) : Reader := ⟨some fn, 0xFFFFFFFF, 0xFFFFFFFF⟩

/-- The device physical pieces of an aperture access: address and length; none where R413 answers it. -/
def Work.aperture (w : Work) (fn off len : Nat) (write : Bool) : Option (List (Nat × Nat)) × Work :=
  if fn = 0 then
    let a := fld (w.reg pgPx .pxAperLo) 31 28 * 2 ^ 28 + fld (w.reg pgPx .pxAperHi) 15 0 * 2 ^ 32 + off
    (if w.backed a len then some [(a, len)] else none, w)
  else
    let va := fld (w.reg pgPx .pxFnAperLo fn) 31 30 * 2 ^ 30 + fld (w.reg pgPx .pxFnAperHi fn) 11 0 * 2 ^ 32 + off
    match w.translateRange fn va len write (aperReader fn) with
    | (.error _, w) => (none, w)
    | (.ok l, w) =>
      (l.foldr (fun (t, _, n) acc => match t, acc with
        | .dev a, some ps => some ((a, n) :: ps)
        | _, _ => none) (some []), w)

/-- R413: the access is counted, and recorded with the function as requester and the BAR offset as detail. -/
def Work.aperFault (w : Work) (fn off : Nat) : Work :=
  (w.count pgPx 4).raise pgPx .hostAperture ⟨1, some fn, 0xFFFFFFFF, fn, leBytes 8 off⟩

def apertureReadWork (fn off len : Nat) (w : Work) : Work :=
  if w.answers (.fn fn) then
    match w.aperture fn off len false with
    | (none, w) => (w.aperFault fn off).say (.completion fn (List.replicate len 0xFF) false)
    | (some ps, w) =>
      let (l, w) := ps.foldl (fun (acc : List PByte × Work) (a, n) =>
        let (x, w) := acc.2.readPhys a n (aperReader fn)
        (acc.1 ++ x, w)) ([], w)
      w.say (.completion fn (l.map (·.1)) (l.any (·.2)))
  else w

/-- APERTURE_READ (R412, R413). -/
def execApertureRead (fn off len : Nat) (s : State) : Host.Outcome State Fault Refusal :=
  if aperBytes fn < off + len then .fault .registerAccessBeyondBar else s.run (apertureReadWork fn off len)

def apertureWriteWork (fn off : Nat) (data : List Byte) (poisoned : Bool) (w : Work) : Work :=
  if w.answers (.fn fn) then
    let w := w.whenB poisoned (fun w => w.count pgPx 6)
    match w.aperture fn off data.length true with
    | (none, w) => w.aperFault fn off
    | (some ps, w) =>
      (ps.foldl (fun (acc : Nat × Work) (a, n) =>
        (acc.1 + n, acc.2.writePhys a (((data.drop acc.1).take n).map (fun b => (b, poisoned))))) (0, w)).2
  else w

/-- APERTURE_WRITE (R412, R413). -/
def execApertureWrite (fn off : Nat) (data : List Byte) (poisoned : Bool) (s : State) : Host.Outcome State Fault Refusal :=
  if aperBytes fn < off + data.length then .fault .registerAccessBeyondBar else s.run (apertureWriteWork fn off data poisoned)

/-! ### Translation services and the link -/

/-- The first host address that a fetch in flight reads. -/
def Work.fetchHost (w : Work) (f : Fetch) : Option Nat :=
  if f.phys ∨ f.remote.isSome then none
  else
    (f.pieces.filterMap (fun (va, n) => match w.translateRange f.ctx va n false {} with
      | (.ok l, _) => (l.filterMap (fun (t, _, _) => match t with
          | .host a => some a
          | .dev _ => none)).head?
      | (.error _, _) => none)).head?

/-- A host access of a fetch has failed: its task ends with ERR_XLATE and the host address (R57, R416). -/
def Work.hostFail (w : Work) (gid ti c addr : Nat) : Work :=
  match w.dev.task? gid ti with
  | none => w
  | some t => w.failTask gid ti (t.page c) .xlate c (leBytes 8 addr)

/-- A fetch of the function's context reads the invalidated range. -/
def Work.atsBusy (w : Work) (fn addr len : Nat) : Bool :=
  w.dev.fetches.any (fun f => f.ctx == fn && match w.fetchHost f with
    | some a => decide (addr ≤ a) && decide (a < addr + len)
    | none => false)

/-- An invalidation completes once every access that used the translation has (R416). Log 45, PRESUMED: address translation services (R415, R416). -/
def atsInvalidateWork (fn addr len : Nat) (w : Work) : Work :=
  if w.atsBusy fn addr len then w else (w.count pgPx 5).say (.atsDone fn)

/-- ATS_INVALIDATE (R416). -/
def execAtsInvalidate (fn addr len : Nat) (s : State) : Host.Outcome State Fault Refusal := s.run (atsInvalidateWork fn addr len)

def atsEnableWork (fn : Nat) (on : Bool) (w : Work) : Work :=
  if w.answers (.fn fn) then w.upd (fun d => { d with atsEn := put false fn on d.atsEn }) else w

/-- ATS_ENABLE (R415). -/
def execAtsEnable (fn : Nat) (on : Bool) (s : State) : Host.Outcome State Fault Refusal := s.run (atsEnableWork fn on)

/-- VF Enable; refused in recovery (R391, R443). -/
def vfEnableWork (on : Bool) (w : Work) : Work :=
  if w.answers (.fn 0) ∧ ¬ (on = true ∧ w.dev.boot.mode = .recovery) then w.upd (fun d => { d with vfEnabled := on }) else w

/-- VF_ENABLE (R391). -/
def execVfEnable (on : Bool) (s : State) : Host.Outcome State Fault Refusal := s.run (vfEnableWork on)

/-- Rate codes and widths of PX_LINK (R421). -/
def linkOk (rate width : Nat) : Bool := decide (1 ≤ rate) && decide (rate ≤ 6) && [1, 4, 8, 16].contains width

def pcieLinkUpWork (rate width : Nat) (flitMode : Bool) (w : Work) : Work :=
  if w.dev.power.state ≠ .off ∧ w.dev.power.perst = false ∧ linkOk rate width then
    w.setReg pgPx .pxLink (atBit 1 31 ||| atBit (b2n flitMode) 30 ||| atBit rate 24 ||| atBit width 16)
  else w

/-- PCIE_LINK_UP (R390, R421). -/
def execPcieLinkUp (rate width : Nat) (flitMode : Bool) (s : State) : Host.Outcome State Fault Refusal :=
  s.run (pcieLinkUpWork rate width flitMode)

/-- An up link goes down: ERR_PCIE_LINK_DOWN, and the host accesses in flight fail (R416, R422). -/
def pcieLinkDownWork (w : Work) : Work :=
  if w.linkUp then
    let hs := w.dev.fetches.filterMap (fun f => (w.fetchHost f).map (fun a => (f, a)))
    let w := w.setReg pgPx .pxLink 0
    let w := w.raise pgPx .pcieLinkDown ⟨1, none, codeNone, codeNone, []⟩
    w.each hs (fun (f, a) w => w.hostFail f.gid f.ti f.cluster a)
  else w

/-- PCIE_LINK_DOWN (R422). -/
def execPcieLinkDown (s : State) : Host.Outcome State Fault Refusal := s.run pcieLinkDownWork

/-- PCI Express ends a host access with Completion Timeout: the task of the instance in that cluster fails (R416). -/
def hostCompletionTimeoutWork (r : TaskRef) (c addr : Nat) (w : Work) : Work :=
  if (w.dev.resident c).any (fun i => i.gid == r.gid && i.ti == r.task) then w.hostFail r.gid r.task c addr else w

/-- HOST_COMPLETION_TIMEOUT (R416). -/
def execHostCompletionTimeout (t : TaskRef) (cluster addr : Nat) (s : State) : Host.Outcome State Fault Refusal :=
  s.run (hostCompletionTimeoutWork t cluster addr)

/-! ### Function Level Reset -/

/-- Block registers of a page that a function may itself write, back at reset: RW and W1C fields alike. SY cells keep their values. -/
def Work.resetPage (w : Work) (p : Page) (header : Bool) : Work :=
  let w := w.each ((blockRegs p.block).filter (fun r => r.writable && r.id != .syCell)) (fun r w =>
    w.each (List.range r.count) (fun i w => w.setReg p r.id ((w.reg p r.id i &&& r.mask (fun a => a == .ro))
      ||| (resetOf w.variant r.id i p.block &&& ~~~ r.mask (fun a => a == .ro))) i))
  if header then
    let w := ((w.setReg p .errStat 0).setReg p .errMask 0).setReg p .errFirst 0
    let w := w.setReg p .cntCtl 0
    w.each (List.range p.block.counters.2.1) (fun i w => w.writeCntHi p i (atBit 1 31))
  else w

/-- The pages of the clusters in a context's pitches that its function may write. -/
def Work.ownPages (w : Work) (n : Nat) : List Page :=
  ((w.pitches.filter (fun p => p.owner == n)).flatMap Pitch.clusters).flatMap (fun c =>
    (([.gu, .wh, .ta, .ve, .sp, .hk, .pt, .sh, .sy] : List Block).map (fun b => (⟨b, c⟩ : Page))))

/-- Registers by copy that return to their reset values. -/
def Work.resetCopies (w : Work) (p : Page) (n : Nat) (ids : List RegId) : Work :=
  w.each ids (fun id w => w.setReg p id (resetOf w.variant id n p.block) n)

/-- What is kept per function: REJ_INFO, HUB_REJ_ADDR, TT_CANCEL_TAG, MSI-X, ATS Enable, EX_GRP_SEL, HI latches (R417, R418). -/
def Work.resetOwn (w : Work) (n : Nat) : Work :=
  w.upd (fun d => { d with
    rejs := d.rejs.filter (fun e => e.1 % 64 != n)
    hubRej := put 0 n 0 d.hubRej
    cancelTags := put 0 n 0 d.cancelTags
    msix := dropRange (n * 2 ^ 17) ((n + 1) * 2 ^ 17) d.msix
    msixPend := dropRange (n * 2048) ((n + 1) * 2048) d.msixPend
    atsEn := put false n false d.atsEn
    hiLatch := dropRange (n * 2 ^ 26) ((n + 1) * 2 ^ 26) d.hiLatch
    exch := { d.exch with sel := put 0 n 0 d.exch.sel } })

/-- The tables of a context lose PAUSED and VERSIONED. -/
def Work.resetTables (w : Work) (n : Nat) : Work :=
  let first := w.rf pgEb .ebTables 13 0 n
  let count := w.rf pgEb .ebTables 30 16 n
  w.upd (fun d => { d with tblCtl := dropRange first (first + count) d.tblCtl })

/-- A function's share of an FLR (R417). For function 0 the Registers row is that of R418. Log 58, DEDUCED: fields that a Function Level Reset returns (R417, R418). -/
def Work.flrShare (w : Work) (n : Nat) (pages : List Page) : Work :=
  let w := w.cancelGraphs (fun g => g.ctx == n) true
  let w := w.upd (fun d => { d with
    admissions := d.admissions.filter (fun a => a.graph.ctx != n)
    refusals := d.refusals.filter (fun x => x.queue / 32 != n)
    due := d.due.filter (fun x => match x.kind with
      | .admission q => q / 32 != n
      | _ => true) })
  let w := w.resetRegs (qOff (32 * n) .qDoorbell) (qOff (32 * (n + 1)) .qDoorbell)
  let w := (w.abandonDeal n).resetCopies pgDl n [.dlAtLo, .dlAtHi, .dlDirAddrLo, .dlDirAddrHi, .dlDirExpectLo, .dlDirExpectHi, .dlDirDataLo, .dlDirDataHi]
  let w := ((w.syUnwait n).setSySlot n (fun _ => .idle)).resetCopies pgSy n [.syOpObj, .syOpArg, .syOpInit, .syOpMask, .syOpVec, .syXlateLo, .syXlateHi]
  let w := w.resetTables n
  let w := w.resetCopies pgEb n [.ebRegLo, .ebRegHi, .ebTblSel]
  let w := w.resetCopies pgSk n [.skCtxVec]
  let w := w.whenB (n != 0) (fun w => (w.resetCopies pgPx n [.pxFnAperLo, .pxFnAperHi]).setRf pgTt .ttCtxCfg 29 28 0 n)
  let w := w.each pages (fun p w => w.resetPage p (n != 0))
  let w := w.resetOwn n
  w.upd (fun d => { d with flrBusy := d.flrBusy.filter (· != n) ++ [n] })

def flrWork (fn : Nat) (w : Work) : Work :=
  if 1 ≤ fn ∧ fn < 32 ∧ w.answers (.fn fn) then w.flrShare fn (w.ownPages fn) else w

/-- FLR (R417). -/
def execFlr (fn : Nat) (s : State) : Host.Outcome State Fault Refusal := s.run (flrWork fn)

/-- The registers that a PF FLR returns beside the functions' own (R418). SAVED stays. -/
def Work.resetPf (w : Work) : Work :=
  let w := w.each (List.range 32) (fun n w =>
    let saved := w.rf pgTt .ttCtxCfg 30 30 n
    let w := (w.setReg pgTt .ttCtxCfg (resetOf w.variant .ttCtxCfg n .tt) n).setRf pgTt .ttCtxCfg 30 30 saved n
    let w := w.resetCopies pgTt n [.ttPitch, .ttXlateLo, .ttXlateHi]
    let w := w.resetCopies pgSy n [.syCtxFirst, .syCtxCount]
    w.resetCopies pgEb n [.ebTables])
  let w := w.exch (fun e => { e with groupRegs := [], members := [], early := [] })
  let w := (w.setReg pgPx .pxAperLo 0).setReg pgPx .pxAperHi 0
  w.each (List.range 216) (fun c w => w.each ctlBlocks (fun b w => w.setReg ⟨b, c⟩ .pageCtl 1))

def pfFlrWork (w : Work) : Work :=
  if w.answers (.fn 0) then
    let own := (List.range 32).map w.ownPages
    let w := w.each (List.range 32) (fun n w => w.flrShare n (own.getD n []))
    w.resetPf.upd (fun d => { d with vfEnabled := false })
  else w

/-- PF_FLR (R418). -/
def execPfFlr (s : State) : Host.Outcome State Fault Refusal := s.run pfFlrWork

/-- Nothing issued on a function's behalf is still outstanding: no instance holds a slot, no fetch is in flight, no collective runs. -/
def Dev.flrDrained (d : Dev) (n : Nat) : Bool :=
  !d.insts.any (fun i => d.ctxOf i.gid == n && i.slot.isSome) && !d.fetches.any (fun f => f.ctx == n)
    && !d.exch.colls.any (fun c => d.ctxOf c.gid == n)

def flrCompleteWork (fn : Nat) (w : Work) : Work :=
  if w.dev.flrDrained fn then w.upd (fun d => { d with flrBusy := d.flrBusy.filter (· != fn) }) else w

/-- FLR_COMPLETE (R417). -/
def execFlrComplete (fn : Nat) (s : State) : Host.Outcome State Fault Refusal := s.run (flrCompleteWork fn)

end Sys2Proof.Machine
end

