-- ==== Sys2Proof/Machine/Mgmt.lean ====
section
/-! DEFINITION. The management endpoint: MCTP control, the Fenhorn commands (R419, R420), and SPDM (R454 to R456). A reply leaves the
device as a `Sent`; where the request came in a MGMT packet, as MGMT packets. -/

namespace Sys2Proof.Machine

/-- The endpoint answers from the moment the boot and trust processor runs, in recovery too (R419). -/
def Work.mgmtUp (w : Work) : Bool := decide (w.dev.power.state ≠ .off) && w.dev.power.modPg

/-! ### MCTP control (DSP0236; log 41, PRESUMED) -/

/-- The message types of R420. -/
def mctpTypes : List Nat := [0x00, 0x05, 0x7E]

/-- A control request: Set Endpoint ID, Get Endpoint ID, version, message types; any other command is not supported. The answer:
command, completion code, data. Log 41, PRESUMED: MCTP and the Fenhorn commands (R419, R420). -/
def Work.mctpControl (w : Work) (command : Nat) (body : List Byte) : List Byte × Work :=
  let ans (w : Work) (code : Nat) (l : List Nat) : List Byte × Work := (([0, command, code] ++ l).map (BitVec.ofNat 8), w)
  match command with
  | 1 =>
    let e := byteAt body 1
    if 8 ≤ e ∧ e ≤ 254 then
      let w := w.upd (fun d => { d with eid := e })
      ans w 0 [0, e, 0]
    else ans w 2 []
  | 2 => ans w 0 [w.dev.eid, 0, 0]
  | 4 => ans w 0 [1, 0xF1, 0xF3, 0xF1, 0]
  | 5 => ans w 0 (mctpTypes.length :: mctpTypes)
  | _ => ans w 5 []

def mctpControlWork (src command : Nat) (body : List Byte) (w : Work) : Work :=
  if w.mgmtUp then
    let (r, w) := w.mctpControl command body
    w.say (.mgmt src 0 r)
  else w

/-- MCTP_CONTROL (R420). -/
def execMctpControl (src command : Nat) (body : List Byte) (s : State) : Host.Outcome State Fault Refusal :=
  s.run (mctpControlWork src command body)

/-- The error response to a message of another type. -/
def typeError (type : Nat) : List Byte := [BitVec.ofNat 8 type, 5]

def mctpOtherTypeWork (src type : Nat) (w : Work) : Work :=
  if w.mgmtUp && !mctpTypes.contains type then w.say (.mgmt src type (typeError type)) else w

/-- MCTP_OTHER_TYPE (R420). -/
def execMctpOtherType (src type : Nat) (s : State) : Host.Outcome State Fault Refusal := s.run (mctpOtherTypeWork src type)

/-! ### The Fenhorn commands (R420). The layouts of requests and answers are the model's (log 41, PRESUMED). -/

/-- GET_HEALTH: service state, inlet, flow, input power, hottest stack, hottest die. -/
def Work.health (w : Work) : List Byte :=
  let dies := (List.range 4).map (fun k => w.rf pgPm .pmTemp (8 * k + 7) (8 * k))
  leBytes 1 (fld w.btState 31 30) ++ leBytes 1 (w.rf pgPm .pmStat 23 16) ++ leBytes 2 (w.rf pgPm .pmFlow 15 0)
    ++ leBytes 2 (w.rf pgPm .pmStat 15 0) ++ leBytes 1 (w.rf pgPm .pmTemp2 19 16) ++ leBytes 1 (w.rf pgPm .pmTemp2 7 0)
    ++ leBytes 1 (argMax dies) ++ leBytes 1 (maxList dies)

/-- Journal entries from an age on, newest first. -/
def Work.journalBytes (w : Work) (age count : Nat) : List Byte := ((w.dev.boot.journal.drop age).take count).flatMap JEntry.bytes

/-- The newest records of the error log, newest first. -/
def Work.errorBytes (w : Work) (count : Nat) : List Byte :=
  let head := (w.reg pgSk .skLogHead).toNat
  (List.range (min count 4096)).flatMap (fun k => look [] ((head + 2 ^ 32 - 1 - k) % 4096) w.dev.stock.log)

/-- A command's answer; none for a command that R420 does not have. -/
def Work.fenhorn (w : Work) (command a b : Nat) : Option (List Byte) × Work :=
  match command with
  | 1 => (some w.health, w)
  | 2 =>
    let (v, w) := w.readReg (a / 4 * 4) (.fn 0)
    (some (leBytes 4 v.toNat), w)
  | 3 => (some (w.journalBytes a b), w)
  | 4 => (some (w.errorBytes a), w)
  | _ => (none, w)

/-- A command that came by VDM or SMBus. -/
def fenhornWork (src command a b : Nat) (w : Work) : Work :=
  if w.mgmtUp then
    match w.fenhorn command a b with
    | (some r, w) => w.say (.mgmt src 0x7E (BitVec.ofNat 8 command :: r))
    | (none, w) => w.say (.mgmt src 0x7E (typeError 0x7E))
  else w

/-- GET_HEALTH (R420). -/
def execGetHealth (src : Nat) (s : State) : Host.Outcome State Fault Refusal := s.run (fenhornWork src 1 0 0)

/-- READ_REG (R420): through the same path as a read of the PF. -/
def execReadReg (src off : Nat) (s : State) : Host.Outcome State Fault Refusal := s.run (fenhornWork src 2 off 0)

/-- GET_JOURNAL (R420). -/
def execGetJournal (src age count : Nat) (s : State) : Host.Outcome State Fault Refusal := s.run (fenhornWork src 3 age count)

/-- GET_ERRORS (R420). -/
def execGetErrors (src count : Nat) (s : State) : Host.Outcome State Fault Refusal := s.run (fenhornWork src 4 count 0)

/-! ### Measurements (R456). How a content that is not one digest is hashed is the model's choice (log 42, PRESUMED). -/

/-- Body of the image booted for a type in this start. -/
def Boot.bodyOf (b : Boot) (t : Nat) : Option (Nat × List Byte) :=
  (b.booted.find? (fun x => x.1 == t)).map (fun x => (x.2.2.sec, x.2.2.body))

def zeros48 : List Byte := List.replicate 48 0

/-- BODY_DIGEST and SEC_VERSION of an image. -/
def measureImage : Option (Nat × List Byte) → List Byte
  | none => zeros48
  | some (sec, body) => Config.sha384 (Config.sha384 body ++ leBytes 4 sec)

def Work.measurement (w : Work) (k : Nat) : List Byte :=
  let b := w.dev.boot
  match k with
  | 1 => Config.bootRomDigest
  | 2 => measureImage (b.bodyOf 1)
  | 3 => measureImage (b.bodyOf 2)
  | 4 => ((b.bodyOf 3).map (fun x => Config.sha384 x.2)).getD zeros48
  | 5 => ((b.bodyOf 4).map (fun x => Config.sha384 x.2)).getD zeros48
  | 6 => b.threadDigests.foldl (fun m d => Config.sha384 (m ++ d)) zeros48
  | 7 => Config.sha384 (b.floors.flatMap (leBytes 4) ++ leBytes 1 b.keyFloor)
  | 8 => Config.sha384 (leBytes 2 b.startNo
      ++ Config.sha384 (((b.journal.filter (fun e => e.start == b.startNo)).reverse).flatMap JEntry.bytes))
  | 9 => Config.sha384 (leBytes 4 w.variant.hubCaps.toNat ++ leBytes 4 0x100)
  | _ => Config.sha384 (leBytes 1 (b2n b.tap))

/-- What the alias keys are derived from (R450, R451). -/
def Work.aliasSalt (w : Work) : List Byte := [1, 2, 3, 4, 5, 7].flatMap w.measurement

/-- The alias certificate, signed by the identity keys (R451), and the chain of slot 0 (R455). -/
def Work.aliasCertificate (w : Work) : List Byte :=
  let body := Config.aliasCertificateBody w.aliasSalt
  body ++ Config.identitySign body
def Work.chain (w : Work) : List Byte := Config.rootCertificate ++ Config.identityCertificate ++ w.aliasCertificate

/-! ### SPDM (R454). Codes are those of SPDM 1.3 (log 42, PRESUMED). -/

/-- An SPDM answer: response code, parameters, body, signature. -/
structure SpdmAns where
  code : Nat
  p1 : Nat
  p2 : Nat
  body : List Byte
  sig : List Byte
  deriving DecidableEq, Repr

/-- ERROR with a code: 1 invalid request, 7 unsupported request. -/
def spdmError (code : Nat) : SpdmAns := ⟨0x7F, code, 0, [], []⟩

/-- A fresh nonce. -/
def Work.nonce (w : Work) : List Byte × Work := (Config.nonce w.dev.free, w.upd (fun d => { d with free := d.free + 1 }))

/-- Sign an answer with both alias keys. -/
def Work.spdmSign (w : Work) (a : SpdmAns) : SpdmAns := { a with sig := Config.aliasSign w.aliasSalt (leBytes 1 a.code ++ leBytes 1 a.p1 ++ leBytes 1 a.p2 ++ a.body) }

/-- The requests R454 answers. -/
inductive SpdmReq where
  | version
  | capabilities
  | algorithms (hashes sigs : Nat)
  | digests
  | certificate (slot off len : Nat)
  | challenge (slot : Nat) (nonce : List Byte)
  | measurements (index : Nat) (signed : Bool) (nonce : List Byte)
  | keyExchange
  | other
  deriving DecidableEq, Repr

/-- Measurement indices an answer holds: 0xFF names all. -/
def measured (index : Nat) : List Nat := if index = 0xFF then (List.range 10).map (· + 1) else if 1 ≤ index ∧ index ≤ 10 then [index] else []

/-- Log 42, PRESUMED: SPDM (R454 to R456). -/
def Work.spdm (w : Work) (r : SpdmReq) : SpdmAns × Work :=
  match r with
  | .version => (⟨0x04, 0, 0, leBytes 2 1 ++ leBytes 2 0x1300, []⟩, w)
  -- CERT_CAP, CHAL_CAP, MEAS_CAP with signature
  | .capabilities => (⟨0x61, 0, 0, leBytes 4 0x16, []⟩, w)
  -- SHA-384 is bit 1 of the hash field; the dual algorithm is one extended algorithm
  | .algorithms hashes sigs => (⟨0x63, 0, 0, leBytes 4 (hashes / 2 % 2 * 2) ++ leBytes 4 (sigs % 2), []⟩, w)
  | .digests => (⟨0x01, 0, 1, Config.sha384 w.chain, []⟩, w)
  | .certificate slot off len =>
    let c := w.chain
    if slot ≠ 0 ∨ c.length < off then (spdmError 1, w)
    else
      let part := (c.drop off).take len
      (⟨0x02, 0, 0, leBytes 2 part.length ++ leBytes 2 (c.length - off - part.length) ++ part, []⟩, w)
  | .challenge slot nonce =>
    if slot ≠ 0 then (spdmError 1, w)
    else
      let (n, w) := w.nonce
      (w.spdmSign ⟨0x03, 0, 1, Config.sha384 w.chain ++ n ++ nonce, []⟩, w)
  | .measurements index signed nonce =>
    if index = 0 ∧ signed = false then (⟨0x60, 10, 0, [], []⟩, w)
    else if index ≠ 0 ∧ measured index = [] then (spdmError 1, w)
    else
      let ks := measured index
      let body := leBytes 1 ks.length ++ ks.flatMap (fun k => leBytes 1 k ++ w.measurement k)
      if signed then
        let (n, w) := w.nonce
        (w.spdmSign ⟨0x60, 10, 0, body ++ n ++ nonce, []⟩, w)
      else (⟨0x60, 10, 0, body, []⟩, w)
  | .keyExchange => (spdmError 7, w)
  | .other => (spdmError 7, w)

/-- A request over Data Object Exchange or MCTP. -/
def spdmWork (r : SpdmReq) (w : Work) : Work :=
  if w.mgmtUp then
    let (a, w) := w.spdm r
    w.say (.spdm a.code (leBytes 1 a.p1 ++ leBytes 1 a.p2 ++ a.body) a.sig)
  else w

/-- GET_VERSION (R454). -/
def execGetVersion (s : State) : Host.Outcome State Fault Refusal := s.run (spdmWork .version)

/-- GET_CAPABILITIES (R454). -/
def execGetCapabilities (s : State) : Host.Outcome State Fault Refusal := s.run (spdmWork .capabilities)

/-- NEGOTIATE_ALGORITHMS (R454). -/
def execNegotiateAlgorithms (hashes sigs : Nat) (s : State) : Host.Outcome State Fault Refusal := s.run (spdmWork (.algorithms hashes sigs))

/-- GET_DIGESTS (R454, R455). -/
def execGetDigests (s : State) : Host.Outcome State Fault Refusal := s.run (spdmWork .digests)

/-- GET_CERTIFICATE (R454, R455). -/
def execGetCertificate (slot off len : Nat) (s : State) : Host.Outcome State Fault Refusal := s.run (spdmWork (.certificate slot off len))

/-- CHALLENGE (R454). -/
def execChallenge (slot : Nat) (nonce : List Byte) (s : State) : Host.Outcome State Fault Refusal := s.run (spdmWork (.challenge slot nonce))

/-- GET_MEASUREMENTS (R454, R456). -/
def execGetMeasurements (index : Nat) (signed : Bool) (nonce : List Byte) (s : State) : Host.Outcome State Fault Refusal :=
  s.run (spdmWork (.measurements index signed nonce))

/-- KEY_EXCHANGE (R454): there are no sessions. -/
def execKeyExchange (s : State) : Host.Outcome State Fault Refusal := s.run (spdmWork .keyExchange)

/-! ### MGMT packets (R361, R419) -/

/-- An SPDM request from its bytes: version, code, two parameters, rest. -/
def spdmParse (b : List Byte) : SpdmReq :=
  let p1 := byteAt b 2
  let p2 := byteAt b 3
  match byteAt b 1 with
  | 0x84 => .version
  | 0xE1 => .capabilities
  | 0xE3 => .algorithms (bytesAt b 12 4) (byteAt b 29)
  | 0x81 => .digests
  | 0x82 => .certificate (p1 % 16) (bytesAt b 4 2) (bytesAt b 6 2)
  | 0x83 => .challenge (p1 % 16) ((b.drop 4).take 32)
  | 0xE0 => .measurements p2 (p1 % 2 == 1) ((b.drop 4).take 32)
  | 0xE4 => .keyExchange
  | _ => .other

/-- The answer to an MCTP message, type byte first; none where none is due. -/
def Work.mctpAnswer (w : Work) (m : List Byte) : Option (List Byte) × Work :=
  let ty := byteAt m 0 % 128
  match ty with
  | 0 =>
    let (r, w) := w.mctpControl (byteAt m 2) (m.drop 3)
    (some (BitVec.ofNat 8 0 :: r), w)
  | 5 =>
    let (a, w) := w.spdm (spdmParse (m.drop 1))
    (some (leBytes 1 5 ++ leBytes 1 0x13 ++ leBytes 1 a.code ++ leBytes 1 a.p1 ++ leBytes 1 a.p2 ++ a.body ++ a.sig), w)
  | 0x7E =>
    let cmd := byteAt m 3
    let (r, w) := w.fenhorn cmd (bytesAt m 4 4) (byteAt m 8)
    (some (match r with
      | some l => (m.take 4) ++ l
      | none => typeError 0x7E), w)
  | t => (some (typeError t), w)

/-- An answer as MCTP packets of at most 64 bytes, each in a MGMT packet. -/
def Work.sendMctp (w : Work) (h : PktHdr) (dest tag : Nat) (l : List Byte) : Work :=
  let parts := chunksOf 64 l
  w.each (parts.zipIdx) (fun (x, k) w =>
    let flags := b2n (k == 0) * 128 + b2n (k + 1 == parts.length) * 64 + k % 4 * 16 + tag % 8
    let hdr : List Byte := [1, BitVec.ofNat 8 dest, BitVec.ofNat 8 w.dev.eid, BitVec.ofNat 8 flags]
    w.sendPacket h.port (mkPacket 10 0 0 h.src w.self [] none (hdr ++ x)))

/-- A MGMT packet: an MCTP packet that is a whole message, for this endpoint's ID or for none (log 41, PRESUMED). -/
def mgmtWork (h : PktHdr) (mctp : List Byte) (w : Work) : Work :=
  if w.heeds h true && w.mgmtUp then
    let w := w.takePacket h.port (mkPacket 10 h.poison h.ctx h.dst h.src [] none mctp)
    let dest := byteAt mctp 1
    let flags := byteAt mctp 3
    if flags / 64 = 3 ∧ (dest = 0 ∨ dest = w.dev.eid) then
      match w.mctpAnswer (mctp.drop 4) with
      | (some r, w) => w.sendMctp h (byteAt mctp 2) flags r
      | (none, w) => w
    else w
  else w

/-- MGMT (R361, R366, R419). -/
def execMgmt (h : PktHdr) (mctp : List Byte) (s : State) : Host.Outcome State Fault Refusal := s.run (mgmtWork h mctp)

end Sys2Proof.Machine
end

