-- ==== Sys2Proof/Machine/Dispatch.lean ====
section
/-! DEFINITION. One arm per command: each calls its meaning. -/

namespace Sys2Proof.Machine

def exec (i : Instr) (s : State) : Host.Outcome State Fault Refusal :=
  match i with
  -- registers (00, 03, 15)
  | .registerWrite who bar off size value be => Sys2Proof.Machine.execRegisterWrite who bar off size value be s
  | .rwdStage who off value => Sys2Proof.Machine.execRwdStage who off value s
  | .pageReset who page value => Sys2Proof.Machine.execPageReset who page value s
  | .pageQuiesce who page on enable => Sys2Proof.Machine.execPageQuiesce who page on enable s
  | .pageEnable who page on quiesce => Sys2Proof.Machine.execPageEnable who page on quiesce s
  | .doorbell fn queue tail => Sys2Proof.Machine.execDoorbell fn queue tail s
  | .qReset fn queue => Sys2Proof.Machine.execQReset fn queue s
  -- tracker (03, 10)
  | .admission queue => Sys2Proof.Machine.execAdmission queue s
  | .admissionCommit => Sys2Proof.Machine.execAdmissionCommit s
  | .taskRelease t => Sys2Proof.Machine.execTaskRelease t s
  | .primedRelease t => Sys2Proof.Machine.execPrimedRelease t s
  | .signalTaskComplete t => Sys2Proof.Machine.execSignalTaskComplete t s
  | .slotTake cluster => Sys2Proof.Machine.execSlotTake cluster s
  | .dispatch cluster => Sys2Proof.Machine.execDispatch cluster s
  | .instanceComplete cluster slot => Sys2Proof.Machine.execInstanceComplete cluster slot s
  | .taskTimeout t => Sys2Proof.Machine.execTaskTimeout t s
  | .completionRecord gid => Sys2Proof.Machine.execCompletionRecord gid s
  | .cancelTag who queue => Sys2Proof.Machine.execCancelTag who queue s
  | .cancelQueue who queue => Sys2Proof.Machine.execCancelQueue who queue s
  | .cancelContext who queue => Sys2Proof.Machine.execCancelContext who queue s
  | .generationBump cluster slot => Sys2Proof.Machine.execGenerationBump cluster slot s
  | .instanceStop cluster slot => Sys2Proof.Machine.execInstanceStop cluster slot s
  | .pageZeroed cluster pages => Sys2Proof.Machine.execPageZeroed cluster pages s
  | .ttXlateInv who ctx => Sys2Proof.Machine.execTtXlateInv who ctx s
  | .xlateInvDone => Sys2Proof.Machine.execXlateInvDone s
  | .contextSave who ctx limitUs => Sys2Proof.Machine.execContextSave who ctx limitUs s
  | .saveImageWrite => Sys2Proof.Machine.execSaveImageWrite s
  | .saveTimeout => Sys2Proof.Machine.execSaveTimeout s
  | .contextRestore who ctx limitUs => Sys2Proof.Machine.execContextRestore who ctx limitUs s
  -- Deals
  | .dealOpen who slot => Sys2Proof.Machine.execDealOpen who slot s
  | .dealCommit who slot atTime lateFail => Sys2Proof.Machine.execDealCommit who slot atTime lateFail s
  | .dealAbandon who slot => Sys2Proof.Machine.execDealAbandon who slot s
  | .dirPush who slot compare low32 write => Sys2Proof.Machine.execDirPush who slot compare low32 write s
  | .dealCommitBeat => Sys2Proof.Machine.execDealCommitBeat s
  -- Hawker and Gather Unit (04, 10)
  | .hawkerFetchIssue cluster => Sys2Proof.Machine.execHawkerFetchIssue cluster s
  | .fetchArrive id errors => Sys2Proof.Machine.execFetchArrive id errors s
  | .tcFlush who cluster enable => Sys2Proof.Machine.execTcFlush who cluster enable s
  | .gatherIndex cluster slot => Sys2Proof.Machine.execGatherIndex cluster slot s
  | .windowIdleTimeout cluster slot => Sys2Proof.Machine.execWindowIdleTimeout cluster slot s
  | .rowFetchIssue cluster slot => Sys2Proof.Machine.execRowFetchIssue cluster slot s
  | .remoteTimeout id => Sys2Proof.Machine.execRemoteTimeout id s
  | .scatterUpdate cluster slot => Sys2Proof.Machine.execScatterUpdate cluster slot s
  | .scatterEntryArrive node => Sys2Proof.Machine.execScatterEntryArrive node s
  | .scatterHoldExpire node => Sys2Proof.Machine.execScatterHoldExpire node s
  | .versionBump cluster => Sys2Proof.Machine.execVersionBump cluster s
  -- Wholesale path and Clearing House (05)
  | .tagGrant => Sys2Proof.Machine.execTagGrant s
  | .slabDeal cluster slot => Sys2Proof.Machine.execSlabDeal cluster slot s
  | .dealWaitExpire cluster slot => Sys2Proof.Machine.execDealWaitExpire cluster slot s
  | .closeArrive node => Sys2Proof.Machine.execCloseArrive node s
  | .slabPartialSend cluster lane => Sys2Proof.Machine.execSlabPartialSend cluster lane s
  | .hubEntryMerge node => Sys2Proof.Machine.execHubEntryMerge node s
  | .aggregateArrive => Sys2Proof.Machine.execAggregateArrive s
  | .mcastRowSend cluster => Sys2Proof.Machine.execMcastRowSend cluster s
  | .mcastRowReceive cluster receiver => Sys2Proof.Machine.execMcastRowReceive cluster receiver s
  | .mcastTimeout cluster => Sys2Proof.Machine.execMcastTimeout cluster s
  | .mcastDetach cluster => Sys2Proof.Machine.execMcastDetach cluster s
  | .tileWrite cluster => Sys2Proof.Machine.execTileWrite cluster s
  -- Shelf and tables (06)
  | .migrationGo who cluster ctx table => Sys2Proof.Machine.execMigrationGo who cluster ctx table s
  | .migrate cluster => Sys2Proof.Machine.execMigrate cluster s
  | .migrateRowLanded cluster errors => Sys2Proof.Machine.execMigrateRowLanded cluster errors s
  | .migrateAttemptTimeout cluster => Sys2Proof.Machine.execMigrateAttemptTimeout cluster s
  | .evict cluster => Sys2Proof.Machine.execEvict cluster s
  | .tablePause who ctx paused versioned => Sys2Proof.Machine.execTablePause who ctx paused versioned s
  | .copyDescriptorRead cluster slot => Sys2Proof.Machine.execCopyDescriptorRead cluster slot s
  -- synchronisation (11)
  | .opAdd who slot fence => Sys2Proof.Machine.execOpAdd who slot fence s
  | .opTake who slot fence => Sys2Proof.Machine.execOpTake who slot fence s
  | .opInit who slot => Sys2Proof.Machine.execOpInit who slot s
  | .opRead who slot => Sys2Proof.Machine.execOpRead who slot s
  | .opWait who slot => Sys2Proof.Machine.execOpWait who slot s
  | .opUnwait who slot => Sys2Proof.Machine.execOpUnwait who slot s
  | .taskSignal t => Sys2Proof.Machine.execTaskSignal t s
  | .taskWaitRegister t => Sys2Proof.Machine.execTaskWaitRegister t s
  | .syncTimeout => Sys2Proof.Machine.execSyncTimeout s
  | .watchdogTick => Sys2Proof.Machine.execWatchdogTick s
  | .cellAddLand => Sys2Proof.Machine.execCellAddLand s
  | .syCellAdd who cluster cell n => Sys2Proof.Machine.execSyCellAdd who cluster cell n s
  | .syXlateInv who ctx => Sys2Proof.Machine.execSyXlateInv who ctx s
  | .parkedSignalRelease port => Sys2Proof.Machine.execParkedSignalRelease port s
  | .parkTimeout port => Sys2Proof.Machine.execParkTimeout port s
  -- Crier (12)
  | .crierTick => Sys2Proof.Machine.execCrierTick s
  | .epochBoundary => Sys2Proof.Machine.execEpochBoundary s
  | .loadArm who => Sys2Proof.Machine.execLoadArm who s
  | .timeLoad => Sys2Proof.Machine.execTimeLoad s
  | .epochEdge tick => Sys2Proof.Machine.execEpochEdge tick s
  | .epochMissed => Sys2Proof.Machine.execEpochMissed s
  | .refclkLost => Sys2Proof.Machine.execRefclkLost s
  | .timeXferSend => Sys2Proof.Machine.execTimeXferSend s
  | .launchEntryTake t => Sys2Proof.Machine.execLaunchEntryTake t s
  | .launch t => Sys2Proof.Machine.execLaunch t s
  | .ballastStep up => Sys2Proof.Machine.execBallastStep up s
  -- memory (13)
  | .scrub block unit offset error => Sys2Proof.Machine.execScrub block unit offset error s
  | .memFailed block unit => Sys2Proof.Machine.execMemFailed block unit s
  -- links (14)
  | .flitReceive port link bytes => Sys2Proof.Machine.execFlitReceive port link bytes s
  | .nakGapTimeout port => Sys2Proof.Machine.execNakGapTimeout port s
  | .replayTimeout port => Sys2Proof.Machine.execReplayTimeout port s
  | .linkFail port link => Sys2Proof.Machine.execLinkFail port link s
  | .linkSilenceTimeout port link => Sys2Proof.Machine.execLinkSilenceTimeout port link s
  | .portLostTimeout port => Sys2Proof.Machine.execPortLostTimeout port s
  | .linkTrained port link alternate => Sys2Proof.Machine.execLinkTrained port link alternate s
  | .helloRepeat port link => Sys2Proof.Machine.execHelloRepeat port link s
  | .hello port link m => Sys2Proof.Machine.execHello port link m s
  | .retrain who port => Sys2Proof.Machine.execRetrain who port s
  | .rejoin who port links => Sys2Proof.Machine.execRejoin who port links s
  | .write h addr gen pwseq group step data => Sys2Proof.Machine.execWrite h addr gen pwseq group step data s
  | .read h tag exportId row rowBytes => Sys2Proof.Machine.execRead h tag exportId row rowBytes s
  | .resp h tag chunk refused data => Sys2Proof.Machine.execResp h tag chunk refused data s
  | .signal h m => Sys2Proof.Machine.execSignal h m s
  | .time h reply unlocked tSend fabricGen tEchoRx tEchoTx tRx => Sys2Proof.Machine.execTime h reply unlocked tSend fabricGen tEchoRx tEchoTx tRx s
  | .abort h group gen code origin => Sys2Proof.Machine.execAbort h group gen code origin s
  | .mcast h streamId group gen row destOffset pwseq chunk last data => Sys2Proof.Machine.execMcast h streamId group gen row destOffset pwseq chunk last data s
  | .mcredit h streamId group row => Sys2Proof.Machine.execMcredit h streamId group row s
  | .mgmt h mctp => Sys2Proof.Machine.execMgmt h mctp s
  | .collectiveStart t => Sys2Proof.Machine.execCollectiveStart t s
  | .groupValid who owner gen => Sys2Proof.Machine.execGroupValid who owner gen s
  -- host interface (15)
  | .apertureRead fn off len => Sys2Proof.Machine.execApertureRead fn off len s
  | .apertureWrite fn off data poisoned => Sys2Proof.Machine.execApertureWrite fn off data poisoned s
  | .atsInvalidate fn addr len => Sys2Proof.Machine.execAtsInvalidate fn addr len s
  | .flr fn => Sys2Proof.Machine.execFlr fn s
  | .pfFlr => Sys2Proof.Machine.execPfFlr s
  | .pcieLinkDown => Sys2Proof.Machine.execPcieLinkDown s
  | .mctpControl src command body => Sys2Proof.Machine.execMctpControl src command body s
  | .mctpOtherType src type => Sys2Proof.Machine.execMctpOtherType src type s
  | .getHealth src => Sys2Proof.Machine.execGetHealth src s
  | .readReg src off => Sys2Proof.Machine.execReadReg src off s
  | .getJournal src age count => Sys2Proof.Machine.execGetJournal src age count s
  | .getErrors src count => Sys2Proof.Machine.execGetErrors src count s
  -- SPDM (17)
  | .getVersion => Sys2Proof.Machine.execGetVersion s
  | .getCapabilities => Sys2Proof.Machine.execGetCapabilities s
  | .negotiateAlgorithms hashes sigs => Sys2Proof.Machine.execNegotiateAlgorithms hashes sigs s
  | .getDigests => Sys2Proof.Machine.execGetDigests s
  | .getCertificate slot off len => Sys2Proof.Machine.execGetCertificate slot off len s
  | .challenge slot nonce => Sys2Proof.Machine.execChallenge slot nonce s
  | .getMeasurements index signed nonce => Sys2Proof.Machine.execGetMeasurements index signed nonce s
  | .keyExchange => Sys2Proof.Machine.execKeyExchange s
  -- control cores (16)
  | .schedReady core t => Sys2Proof.Machine.execSchedReady core t s
  | .schedBlock core => Sys2Proof.Machine.execSchedBlock core s
  | .schedYield core => Sys2Proof.Machine.execSchedYield core s
  | .schedDelay core n => Sys2Proof.Machine.execSchedDelay core n s
  | .schedCancel core t => Sys2Proof.Machine.execSchedCancel core t s
  | .schedSetprio core t p => Sys2Proof.Machine.execSchedSetprio core t p s
  | .schedBind core src t => Sys2Proof.Machine.execSchedBind core src t s
  | .delayExpire core => Sys2Proof.Machine.execDelayExpire core s
  | .coreInterrupt core source => Sys2Proof.Machine.execCoreInterrupt core source s
  | .ccMailbox who core value => Sys2Proof.Machine.execCcMailbox who core value s
  | .threadFault core slot addr => Sys2Proof.Machine.execThreadFault core slot addr s
  -- boot (17)
  | .start => Sys2Proof.Machine.execStart s
  | .bootWatchdog => Sys2Proof.Machine.execBootWatchdog s
  | .bootStepEnd step r => Sys2Proof.Machine.execBootStepEnd step r s
  | .restart who => Sys2Proof.Machine.execRestart who s
  | .resetPlan who => Sys2Proof.Machine.execResetPlan who s
  | .updateFlash who => Sys2Proof.Machine.execUpdateFlash who s
  | .updateThread who => Sys2Proof.Machine.execUpdateThread who s
  | .updateImageCheck flashError => Sys2Proof.Machine.execUpdateImageCheck flashError s
  | .floorRaise who key types flashError => Sys2Proof.Machine.execFloorRaise who key types flashError s
  -- power and pins (18)
  | .modEnAssert => Sys2Proof.Machine.execModEnAssert s
  | .lowpowerEntry => Sys2Proof.Machine.execLowpowerEntry s
  | .modPg => Sys2Proof.Machine.execModPg s
  | .modEnDeassert => Sys2Proof.Machine.execModEnDeassert s
  | .perstAssert => Sys2Proof.Machine.execPerstAssert s
  | .perstDeassert => Sys2Proof.Machine.execPerstDeassert s
  | .vinHigh vin => Sys2Proof.Machine.execVinHigh vin s
  | .vinLow vin => Sys2Proof.Machine.execVinLow vin s
  | .vinOff => Sys2Proof.Machine.execVinOff s
  | .flowSample flow => Sys2Proof.Machine.execFlowSample flow s
  | .flowLow => Sys2Proof.Machine.execFlowLow s
  | .flowTrip => Sys2Proof.Machine.execFlowTrip s
  | .tempSample t => Sys2Proof.Machine.execTempSample t s
  | .capAdjust power engine => Sys2Proof.Machine.execCapAdjust power engine s
  | .inputEdge input tick => Sys2Proof.Machine.execInputEdge input tick s
  | .inputStuck input => Sys2Proof.Machine.execInputStuck input s
  | .inputUnstuck input => Sys2Proof.Machine.execInputUnstuck input s
  | .trigOutPulse who k source => Sys2Proof.Machine.execTrigOutPulse who k source s
  | .pmInClr who mask => Sys2Proof.Machine.execPmInClr who mask s
  -- Stocktake and counters (19)
  | .skTrigger who => Sys2Proof.Machine.execSkTrigger who s
  | .skArmAt who disarm => Sys2Proof.Machine.execSkArmAt who disarm s
  | .skDisarm who => Sys2Proof.Machine.execSkDisarm who s
  | .skRelease who => Sys2Proof.Machine.execSkRelease who s
  | .skAtOrder => Sys2Proof.Machine.execSkAtOrder s
  | .snapshotLatch => Sys2Proof.Machine.execSnapshotLatch s
  | .logWrite => Sys2Proof.Machine.execLogWrite s
  | .skLogTail who tail => Sys2Proof.Machine.execSkLogTail who tail s
  | .counterClear who page freeze => Sys2Proof.Machine.execCounterClear who page freeze s
  | .counterLoRead who off => Sys2Proof.Machine.execCounterLoRead who off s
  | .crTimeLoRead who => Sys2Proof.Machine.execCrTimeLoRead who s
  | .syXlateInvDone => Sys2Proof.Machine.execSyXlateInvDone s
  | .flrComplete fn => Sys2Proof.Machine.execFlrComplete fn s
  | .epochOutPulse => Sys2Proof.Machine.execEpochOutPulse s
  | .tapLeaveBypass => Sys2Proof.Machine.execTapLeaveBypass s
  | .vfEnable on => Sys2Proof.Machine.execVfEnable on s
  | .atsEnable fn on => Sys2Proof.Machine.execAtsEnable fn on s
  | .pcieLinkUp rate width flitMode => Sys2Proof.Machine.execPcieLinkUp rate width flitMode s
  | .hostCompletionTimeout t cluster addr => Sys2Proof.Machine.execHostCompletionTimeout t cluster addr s

end Sys2Proof.Machine
end

