-- ==== Sys2Proof/Machine/Idle.lean ====
section
/-! DEFINITION. What happens when no command waits: a beat passes. -/

namespace Sys2Proof.Machine

/-- Instances whose start was due by now start (R328, R329). -/
def Work.startOver (w : Work) : Work :=
  w.each ((w.dev.insts.filter (fun i => (i.startDue.map (fun b => decide (b ≤ w.dev.beat))).getD false)).map (·.iid)) (fun n w => w.startInst n)

/-- One beat passes: the dispatchers note the instances that starve in it (R263), ports send what they owe (R357), and
instances whose staggered beat has come start (log 3, DESIGN CHOICE). -/
def Work.idle (w : Work) : Work :=
  ((w.each (w.dev.insts.map (·.cluster)).eraseDups (fun c w => w.noteStarving c)).pass 1).idleFlits.startOver

/-- The step on an empty queue. -/
def idleStep (s : State) : Host.Outcome State Fault Refusal := s.run Work.idle

end Sys2Proof.Machine
end

