-- ==== Sys2Proof/WellFormed.lean ====
section
/-! DEFINITION. Which commands are well-formed: operands within the widths and numbers the manual gives them. A number that fits
its field but names a unit that this variant lacks is well-formed: what happens then is the command's effect (R6). No meaning
relies on these ranges: they say which commands a sender can form. -/

namespace Sys2Proof

/-! ### Ranges -/

/-- A number of `n` bits. -/
def isBits (n x : Nat) : Bool := decide (x < 2 ^ n)

/-- A DWORD value. -/
def isWord (x : Nat) : Bool := isBits 32 x

/-- Functions 0 to 31 (R53); cores 0 to 7 with thread slots 0 to 63 (R423). -/
def Agent.wf : Agent → Bool
  | .fn n => decide (n < 32)
  | .core n t => decide (n < 8) && decide (t < 64)

/-- A task index: the tracker holds 131,072 task entries (R1). -/
def TaskRef.wf (t : TaskRef) : Bool := decide (t.task < 131072)

/-- A cluster of the largest variant (R1). -/
def isCluster (c : Nat) : Bool := decide (c < 216)

/-- One of the 8 resident task slots of a cluster (R15). -/
def isSlot (x : Nat) : Bool := decide (x < 8)

/-- A place that gathers: a task slot, a lane's Deal, or a task that serves itself (log 8, DEDUCED). -/
def isPlace (x : Nat) : Bool := decide (x < 24)

/-- A context (R53). -/
def isCtx (x : Nat) : Bool := isBits 5 x

/-- A port (R365; at most 16). -/
def isPort (p : Nat) : Bool := decide (p < 16)

/-- A link of the largest variant (R1). -/
def isLink (l : Nat) : Bool := decide (l < 48)

/-- A control core (R423). -/
def isCore (n : Nat) : Bool := decide (n < 8)

/-- The packet header's fields (R360); port 16 is the loopback. -/
def PktHdr.wf (h : PktHdr) : Bool :=
  decide (h.port < 17) && isCtx h.ctx && isBits 12 h.dst && isBits 12 h.src && isBits 4 h.poison

/-- Data slots of 16 bytes, at most 16 of them (R360). -/
def isData (d : List Byte) : Bool := decide (d.length % 16 = 0) && decide (d.length ≤ 256)

/-- The fields of a SIGNAL (R361). -/
def SignalMsg.wf (m : SignalMsg) : Bool :=
  isBits 20 m.rid && decide (1 ≤ m.op) && decide (m.op ≤ 4) && isBits 16 m.n && isBits 32 m.fence && isBits 16 m.group
    && isBits 16 m.step && isBits 16 m.gen && isBits 8 m.cop && isBits 8 m.format && isBits 32 m.elements

/-- The fields of a HELLO (R369). -/
def HelloMsg.wf (m : HelloMsg) : Bool :=
  isBits 8 m.vmin && isBits 8 m.vmax && isBits 8 m.kind && isBits 16 m.features && isBits 12 m.device && isBits 8 m.port
    && isBits 8 m.link && isBits 16 m.fabricGen && isBits 32 m.secVersion && isBits 128 m.digest && isBits 32 m.epoch
    && isBits 40 m.time

/-- Readings of one byte each. -/
def Temps.wf (t : Temps) : Bool :=
  t.dies.all (isBits 8) && t.hbms.all (isBits 8) && t.dimms.all (isBits 8) && isBits 8 t.vps && isBits 8 t.inlet

/-- A byte offset in BAR0 (R392). -/
def isBar0 (off : Nat) : Bool := isBits 26 off

/-! ### The commands -/

/-- A command a sender can form. -/
def Instr.wf : Instr → Bool
  | .registerWrite a bar off size value be =>
    a.wf && (bar == 0 || bar == 2) && isBar0 off && (size == 4 || size == 8) && isBits (8 * size) value && isBits size be
  | .rwdStage a off value => a.wf && isBar0 off && isWord value
  | .pageReset a page value => a.wf && isBar0 page && isWord value
  | .pageQuiesce a page _ _ => a.wf && isBar0 page
  | .pageEnable a page _ _ => a.wf && isBar0 page
  | .doorbell fn q tail => isBits 5 fn && isBits 5 q && isWord tail
  | .qReset fn q => isBits 5 fn && isBits 5 q
  | .admission q => isBits 10 q
  | .admissionCommit => true
  | .taskRelease t => t.wf
  | .primedRelease t => t.wf
  | .signalTaskComplete t => t.wf
  | .slotTake c => isCluster c
  | .dispatch c => isCluster c
  | .instanceComplete c s => isCluster c && isSlot s
  | .taskTimeout t => t.wf
  | .completionRecord _ => true
  | .cancelTag a q => a.wf && isBits 10 q
  | .cancelQueue a q => a.wf && isBits 10 q
  | .cancelContext a q => a.wf && isBits 10 q
  | .generationBump c s => isCluster c && isSlot s
  | .instanceStop c s => isCluster c && isSlot s
  | .pageZeroed c _ => isCluster c
  | .ttXlateInv a ctx => a.wf && isCtx ctx
  | .xlateInvDone => true
  | .contextSave a ctx lim => a.wf && isCtx ctx && isBits 16 lim
  | .saveImageWrite => true
  | .saveTimeout => true
  | .contextRestore a ctx lim => a.wf && isCtx ctx && isBits 16 lim
  | .dealOpen a s => a.wf && decide (s < 40)
  | .dealCommit a s _ _ => a.wf && decide (s < 40)
  | .dealAbandon a s => a.wf && decide (s < 40)
  | .dirPush a s _ _ _ => a.wf && decide (s < 40)
  | .dealCommitBeat => true
  | .hawkerFetchIssue c => isCluster c
  | .fetchArrive _ _ => true
  | .tcFlush a c _ => a.wf && isCluster c
  | .gatherIndex c s => isCluster c && isPlace s
  | .windowIdleTimeout c s => isCluster c && isPlace s
  | .rowFetchIssue c s => isCluster c && isPlace s
  | .remoteTimeout _ => true
  | .scatterUpdate c s => isCluster c && isSlot s
  | .scatterEntryArrive n => decide (n < 4)
  | .scatterHoldExpire n => decide (n < 4)
  | .versionBump c => isCluster c
  | .tagGrant => true
  | .slabDeal c s => isCluster c && isPlace s
  | .dealWaitExpire c s => isCluster c && isPlace s
  | .closeArrive n => decide (n < 5)
  | .slabPartialSend c l => isCluster c && decide (l < 16)
  | .hubEntryMerge n => decide (n < 5)
  | .aggregateArrive => true
  | .mcastRowSend c => isCluster c
  | .mcastRowReceive c r => isCluster c && isCluster r
  | .mcastTimeout c => isCluster c
  | .mcastDetach c => isCluster c
  | .tileWrite c => isCluster c
  | .migrationGo a c ctx t => a.wf && isCluster c && isCtx ctx && isBits 14 t
  | .migrate c => isCluster c
  | .migrateRowLanded c _ => isCluster c
  | .migrateAttemptTimeout c => isCluster c
  | .evict c => isCluster c
  | .tablePause a ctx _ _ => a.wf && isCtx ctx
  | .copyDescriptorRead c s => isCluster c && isSlot s
  | .opAdd a s _ => a.wf && decide (s < 40)
  | .opTake a s _ => a.wf && decide (s < 40)
  | .opInit a s => a.wf && decide (s < 40)
  | .opRead a s => a.wf && decide (s < 40)
  | .opWait a s => a.wf && decide (s < 40)
  | .opUnwait a s => a.wf && decide (s < 40)
  | .taskSignal t => t.wf
  | .taskWaitRegister t => t.wf
  | .syncTimeout => true
  | .watchdogTick => true
  | .cellAddLand => true
  | .syCellAdd a c cell n => a.wf && isCluster c && isBits 6 cell && isBits 16 n
  | .syXlateInv a ctx => a.wf && isCtx ctx
  | .parkedSignalRelease p => decide (p < 17)
  | .parkTimeout p => decide (p < 17)
  | .crierTick => true
  | .epochBoundary => true
  | .loadArm a => a.wf
  | .timeLoad => true
  | .epochEdge _ => true
  | .epochMissed => true
  | .refclkLost => true
  | .timeXferSend => true
  | .launchEntryTake t => t.wf
  | .launch t => t.wf
  | .ballastStep _ => true
  | .scrub b u _ _ => if b then isBits 4 u else isBits 3 u
  | .memFailed b u => if b then isBits 4 u else isBits 3 u
  | .flitReceive p l bytes => isPort p && isLink l && decide (bytes.length = 256)
  | .nakGapTimeout p => isPort p
  | .replayTimeout p => isPort p
  | .linkFail p l => isPort p && isLink l
  | .linkSilenceTimeout p l => isPort p && isLink l
  | .portLostTimeout p => isPort p
  | .linkTrained p l _ => isPort p && isLink l
  | .helloRepeat p l => isPort p && isLink l
  | .hello p l m => isPort p && isLink l && m.wf
  | .retrain a p => a.wf && isPort p
  | .rejoin a p links => a.wf && isPort p && isWord links
  | .write h addr gen pwseq group step data =>
    h.wf && isBits 44 addr && isBits 16 gen && isWord pwseq && isBits 16 group && isBits 16 step && isData data
  | .read h tag e row rowBytes => h.wf && isWord tag && isBits 12 e && isBits 64 row && isWord rowBytes
  | .resp h tag chunk _ data => h.wf && isWord tag && isBits 16 chunk && isData data
  | .signal h m => h.wf && m.wf
  | .time h _ _ a g b c d => h.wf && isBits 40 a && isBits 16 g && isBits 40 b && isBits 40 c && isBits 40 d
  | .abort h group gen code origin => h.wf && isBits 16 group && isBits 16 gen && isBits 16 code && isBits 12 origin
  | .mcast h st group gen row dest pwseq chunk _ data =>
    h.wf && isBits 16 st && isBits 16 group && isBits 16 gen && isWord row && isWord dest && isWord pwseq && isBits 16 chunk
      && isData data
  | .mcredit h st group row => h.wf && isBits 16 st && isBits 16 group && isWord row
  | .mgmt h m => h.wf && isData m
  | .collectiveStart t => t.wf
  | .groupValid a owner gen => a.wf && isCtx owner && isBits 16 gen
  | .apertureRead fn _ len => isBits 5 fn && decide (0 < len)
  | .apertureWrite fn _ data _ => isBits 5 fn && decide (0 < data.length)
  | .atsInvalidate fn addr _ => isBits 5 fn && isBits 64 addr
  | .flr fn => decide (1 ≤ fn) && isBits 5 fn
  | .pfFlr => true
  | .pcieLinkDown => true
  | .mctpControl src cmd _ => isBits 8 src && isBits 8 cmd
  | .mctpOtherType src ty => isBits 8 src && isBits 8 ty
  | .getHealth src => isBits 8 src
  | .readReg src off => isBits 8 src && isWord off
  | .getJournal src age n => isBits 8 src && isBits 12 age && isBits 8 n
  | .getErrors src n => isBits 8 src && isBits 8 n
  | .getVersion => true
  | .getCapabilities => true
  | .negotiateAlgorithms h s => isWord h && isWord s
  | .getDigests => true
  | .getCertificate s off len => isBits 4 s && isBits 16 off && isBits 16 len
  | .challenge s nonce => isBits 8 s && decide (nonce.length = 32)
  | .getMeasurements i signed nonce => isBits 8 i && decide (nonce.length = if signed then 32 else 0)
  | .keyExchange => true
  | .schedReady c t => isCore c && isBits 6 t
  | .schedBlock c => isCore c
  | .schedYield c => isCore c
  | .schedDelay c n => isCore c && isWord n
  | .schedCancel c t => isCore c && isBits 6 t
  | .schedSetprio c t p => isCore c && isBits 6 t && isBits 8 p
  | .schedBind c src t => isCore c && isBits 2 src && isBits 6 t
  | .delayExpire c => isCore c
  | .coreInterrupt c src => isCore c && isBits 2 src
  | .ccMailbox a c v => a.wf && isCore c && isWord v
  | .threadFault c t addr => isCore c && isBits 6 t && isBits 44 addr
  | .start => true
  | .bootWatchdog => true
  | .bootStepEnd s _ => decide (1 ≤ s) && decide (s ≤ 14)
  | .restart a => a.wf
  | .resetPlan a => a.wf
  | .updateFlash a => a.wf
  | .updateThread a => a.wf
  | .updateImageCheck _ => true
  | .floorRaise a _ types _ => a.wf && isBits 8 types
  | .modEnAssert => true
  | .lowpowerEntry => true
  | .modPg => true
  | .modEnDeassert => true
  | .perstAssert => true
  | .perstDeassert => true
  | .vinHigh _ => true
  | .vinLow _ => true
  | .vinOff => true
  | .flowSample _ => true
  | .flowLow => true
  | .flowTrip => true
  | .tempSample t => t.wf
  | .capAdjust _ _ => true
  | .inputEdge i _ => decide (i < 5)
  | .inputStuck i => decide (i < 5)
  | .inputUnstuck i => decide (i < 5)
  | .trigOutPulse a k src => a.wf && decide (k < 4) && isBits 3 src
  | .pmInClr a m => a.wf && isWord m
  | .skTrigger a => a.wf
  | .skArmAt a _ => a.wf
  | .skDisarm a => a.wf
  | .skRelease a => a.wf
  | .skAtOrder => true
  | .snapshotLatch => true
  | .logWrite => true
  | .skLogTail a tail => a.wf && isWord tail
  | .counterClear a page _ => a.wf && isBar0 page
  | .counterLoRead a off => a.wf && isBar0 off
  | .crTimeLoRead a => a.wf
  | .syXlateInvDone => true
  | .flrComplete fn => decide (1 ≤ fn) && isBits 5 fn
  | .epochOutPulse => true
  | .tapLeaveBypass => true
  | .vfEnable _ => true
  | .atsEnable fn _ => isBits 5 fn
  | .pcieLinkUp _ _ _ => true
  | .hostCompletionTimeout t c addr => t.wf && isCluster c && isBits 44 addr

end Sys2Proof
end

