-- ==== Sys2Proof/Safety.lean ====
section
/-! DEFINITION. What counts as a safe state and a safe run, and the words in which the statements about commands are made. -/

namespace Sys2Proof

open Machine

/-- Memory is in its canonical form. -/
def Safe (s : State) : Prop := Memory.wf s.mem

/-- The command runs to a next state. -/
def Completes (i : Instr) (s : State) : Prop := ∃ t, exec i s = .next t

/-- The command answers exactly the state that a working view leads to: the view's writes in memory, the view's device, and
the queue and the ordering code as they were. -/
def Runs (i : Instr) (s : State) (w : Work) : Prop := exec i s = .next { s with mem := s.mem.writeAll w.out, dev := w.dev }

/-- The command answers a next state whose device is `d`, with memory, queue and ordering code as they were. -/
def RunsTo (i : Instr) (s : State) (d : Dev) : Prop := exec i s = .next { s with dev := d }

/-- The register table's row for a name on a page. -/
def regOf (p : Page) (id : RegId) : Reg :=
  ((pageRegs p.block).find? (fun r => r.id == id)).getD (reg1 .pageId 0 p.block.who (full .ro))

/-- A DWORD write by `who` of `v` to copy i of a register passes the checks that R502 makes of every write: the writer's
function answers, the page is present and on line, the writer may write the register and what the value names, no reserved bit
is set, and the page is not gated. -/
structure Accepted (s : State) (who : Agent) (p : Page) (id : RegId) (i : Nat) (v : Word) : Prop where
  answers : s.work.answers who = true
  page : pageAt (at_ p id i) = some p
  present : p.present s.variant = true
  online : s.work.pageOffline (some p) = false
  reg : findReg (pageRegs p.block) (at_ p id i % 0x1000) = some (regOf p id, i)
  name : (regOf p id).id = id
  writable : (regOf p id).ignored i = false
  ctl : p.block.hasPageCtl = true ∨ id ≠ .pageCtl
  writer : s.work.mayWrite p (regOf p id) i who = true
  reaches : s.work.reaches p id i who v = true
  reserved : v &&& (regOf p id).reserved = 0
  gate : s.work.pageOn p = true ∨ at_ p id i % 0x1000 < 0x100

/-- Registers whose accepted write replaces their RW fields and does nothing else, beside the ranges of their chapters. -/
def plainRegisters : List RegId :=
  [.errMask, .dlAtLo, .dlAtHi, .dlDirAddrLo, .dlDirAddrHi, .dlDirExpectLo, .dlDirExpectHi, .dlDirDataLo, .dlDirDataHi,
   .ttSaveAddrLo, .ttSaveAddrHi, .guWindow, .guPromote, .guRemoteTo, .guCombine, .whCfg, .whDeal, .chNodeCfg, .chRootCfg,
   .shMigListLo, .shMigListHi, .shMigCount, .taCfg, .veCfg, .spCfg, .hkCfg, .syCfg, .syParkTo, .syXlateLo, .syXlateHi,
   .syOpObj, .syOpArg, .syOpInit, .syOpMask, .crLoadLo, .crLoadHi, .crEpochLen, .crLock, .crXfer, .hmScrub,
   .hmCeLimit, .tpLoss, .exFabricGen, .exExportLo, .exExportHi, .exRouteQ, .pxAperLo, .pxAperHi, .ccThreadSel, .btJournalSel,
   .btUpdLo, .btUpdHi, .btUpdLen, .pmCap, .pmStep, .pmInCfg, .skCfg, .skAtLo, .skAtHi, .skRoute, .skOvf, .skLogSel]

end Sys2Proof
end

