-- ==== Sys2Proof/Certificates/Slice0/Obligations.lean ====
section
/-! DEFINITION. The statements about the model, for the provers. A statement about a free value holds for every value of it. -/

open Sys2Proof Sys2Proof.Machine

/-- A step runs the command at the front of the queue. For every command c and every state s, a step of s with c at the front of
its queue is exec c on s with the rest of the queue. The block has no fetch; the queue is the model's form of the order in
which commands reach it (log 2, DESIGN CHOICE). -/
def Obligations.FrontCommandRuns : Prop :=
  ∀ (c : Instr) (rest : List Instr) (s : State),
    step { s with pending := c :: rest } = exec c { s with pending := rest }

/-- With no command waiting, one beat passes. On an empty queue a step answers a next state in which exactly one beat has
passed and the time base has advanced 4 ns if it runs and is not held; the beat's passing writes no memory, and the ordering
code and the queue are unchanged. Ports that owe credit or an acknowledgement then send an IDLE flit, and the instances whose
staggered beat has come start; where none is due, nothing more happens. That time passes on an empty queue is the model's choice (log 3, DESIGN CHOICE). -/
def Obligations.EmptyQueueLetsOneBeatPass : Prop :=
  ∀ s : State, s.pending = [] →
    let v := (s.work.each (s.dev.insts.map (·.cluster)).eraseDups (fun c w => w.noteStarving c)).pass 1
    step s = .next { s with mem := s.mem.writeAll v.idleFlits.startOver.out, dev := v.idleFlits.startOver.dev }
    ∧ v.out = [] ∧ v.dev.beat = s.dev.beat + 1
    ∧ v.dev.time = (if s.dev.counting = true ∧ s.dev.crier.hold = false then (s.dev.time + 4) % 2 ^ 64 else s.dev.time % 2 ^ 64)
    ∧ v.dev.crier.hold = false
    ∧ ((∀ i ∈ s.dev.insts, i.startDue = none) → step s = .next { s with dev := v.idleFlits.dev })

/-- No command changes the waiting commands or the ordering code. Whatever command runs, on whatever state, a next state has the
same waiting commands and the same ordering code. -/
def Obligations.QueueAndVariantKept : Prop :=
  ∀ (i : Instr) (s t : State), exec i s = .next t → t.pending = s.pending ∧ t.variant = s.variant

/-- Every step keeps memory in its canonical form. For every state whose memory lists have strictly rising addresses and no
entry equal to what an unlisted address reads as, every next state that a step answers has that form again: device cells,
poison marks, uncorrectable marks, host cells and host poison. -/
def Obligations.CanonicalMemoryKept : Prop :=
  ∀ s t : State, Safe s → step s = .next t → Safe t

/-- A command reads its own writes as memory will hold them. For canonical memory and any list of writes, the byte, the poison
mark and the uncorrectable mark that a command's working view reads after those writes are the ones that memory holds once
they are applied. -/
def Obligations.ViewReadsWhatMemoryHolds : Prop :=
  ∀ (m : Mem) (ws : List Write) (a : Nat) (h : Bool), Memory.wf m →
    m.byteAfter h a ws = look 0 a (if h then (m.writeAll ws).host else (m.writeAll ws).cells)
    ∧ m.poisonAfter h a ws = look false a (if h then (m.writeAll ws).hostPoison else (m.writeAll ws).poison)
    ∧ m.deadAfter a ws = look false a (m.writeAll ws).dead

/-- Only an ill-formed register or aperture access stops a step. Every command but REGISTER_WRITE, APERTURE_READ and
APERTURE_WRITE answers a next state in every state, and those three answer one whenever the access is naturally aligned, of
a size the BAR takes and inside the BAR. The faults are the model's reading of accesses the spec gives no effect (log 10, DESIGN CHOICE). -/
def Obligations.OnlyRawAccessesStop : Prop :=
  ∀ (i : Instr) (s : State),
    (match i with
      | .registerWrite who bar off size _ _ => (size = 4 ∨ size = 8) ∧ off % size = 0 ∧ off + size ≤ barBytes who bar
      | .apertureRead fn off len => off + len ≤ aperBytes fn
      | .apertureWrite fn off data _ => off + data.length ≤ aperBytes fn
      | _ => True) →
    Completes i s

/-- What reset leaves. Right after reset the module is in LOW-POWER with MOD_EN asserted and PERST_N deasserted, no memory byte
is listed, every Deal slot, operation slot, port and control core is at rest, no command waits, and every register of the
register map holds its reset value. Values that the spec does not give are the model's (log 1, DESIGN CHOICE). The memory of the state
right after reset is in the canonical form that CanonicalMemoryKept preserves. -/
def Obligations.ResetLeavesPowerGood : Prop :=
  (State.reset.dev.power.state = .low ∧ State.reset.dev.power.modEn = true ∧ State.reset.dev.power.perst = false
      ∧ State.reset.mem = .empty ∧ State.reset.pending = [] ∧ State.reset.dev.graphs = []
      ∧ (∀ k, State.reset.work.deal_ k = .idle) ∧ (∀ k, State.reset.work.sySlot k = .idle)
      ∧ (∀ (p : Page) (id : RegId) (i : Nat), State.reset.work.reg p id i = resetOf .svx96A id i p.block))
    ∧ (Safe State.reset)

/-- Every register of the map is found at its own offset. For every page of a full device, every register of its table and every
copy of it: the page at the copy's BAR0 offset is that page, the register found at the page offset is that register and that
copy, and the offset is a multiple of 4. No two registers share an offset. -/
def Obligations.RegisterMapHasNoOverlap : Prop :=
  ∀ p ∈ allPages, ∀ r ∈ pageRegs p.block, ∀ i < r.count,
    pageAt (p.base + r.off + r.stride * i) = some p
    ∧ findReg (pageRegs p.block) ((p.base + r.off + r.stride * i) % 0x1000) = some (r, i)
    ∧ (p.base + r.off + r.stride * i) % 4 = 0

/-- An accepted write of a plain register replaces its RW fields and nothing else. REGISTER_WRITE of 4 bytes with all byte
enables, accepted by the checks of R502, to a register whose effect is plain storage and whose value is in its chapter's
range, answers the state in which the register's RW fields hold the written bits and its other bits are kept; every other
register, memory and all other state are unchanged. CR_EPOCH_PERIOD is stored after the expected time that has passed is
served. An 8-byte access is the write of its low DWORD, then of its high one. -/
def Obligations.PlainRegisterWriteStores : Prop :=
  (∀ (s : State) (who : Agent) (p : Page) (id : RegId) (i : Nat) (v : Word), id ∈ plainRegisters → Accepted s who p id i v →
      clusterRange s.variant id v = .ok () → hubRange id v = .ok () → at_ p id i % 4 = 0 → at_ p id i + 4 ≤ 2 ^ 26 →
      RunsTo (.registerWrite who 0 (at_ p id i) 4 v.toNat 15) s
        { s.dev with
          regs := put (resetOf s.variant id i p.block) (at_ p id i)
            ((s.work.reg p id i &&& ~~~ (regOf p id).rwMask) ||| (v &&& (regOf p id).rwMask)) s.dev.regs })
    ∧ (∀ (s : State) (who : Agent) (v : Word), Accepted s who pgCr .crEpochPeriod 0 v → hubRange .crEpochPeriod v = .ok () →
      Runs (.registerWrite who 0 (at_ pgCr .crEpochPeriod) 4 v.toNat 15) s
        (s.work.freeExpected.storeRw pgCr (regOf pgCr .crEpochPeriod) 0 v))
    ∧ (∀ (s : State) (who : Agent) (bar off value be : Nat), s.work.answers who = true → off % 8 = 0 →
      off + 8 ≤ barBytes who bar →
      Runs (.registerWrite who bar off 8 value be) s
        ((s.work.writeDword who bar off value be).writeDword who bar (off + 4) (value / 2 ^ 32) (be / 16)))

/-- A rejected write changes nothing but the rejection record. A REGISTER_WRITE of a whole DWORD of BAR0 that one of R502's
checks refuses leaves every register, memory and unit as it was; it sets VALID, the page offset and the code in the writer's
own REJ_INFO of that page, and every other writer's record is kept. On the page of an absent unit the record is the hub
page's, and HUB_REJ_ADDR latches the page. -/
def Obligations.RejectedWriteIsRecordedOnly : Prop :=
  ∀ (s : State) (who : Agent) (off : Nat) (v : Word), s.work.answers who = true → off % 4 = 0 → off + 4 ≤ 2 ^ 26 →
    (∀ p c, pageAt off = some p → p.present s.variant = true → s.work.pageOffline (some p) = false →
      s.work.checkedWrite p who (off % 0x1000) v false false = .error c →
      RunsTo (.registerWrite who 0 off 4 v.toNat 15) s
        { s.dev with
          rejs := put 0 (rejKey p who) (atBit 1 31 ||| atBit (off % 0x1000) 16 ||| atBit c.code 0) s.dev.rejs })
    ∧ ((∀ p, pageAt off = some p → p.present s.variant = false) →
      RunsTo (.registerWrite who 0 off 4 v.toNat 15) s
        { s.dev with
          rejs := put 0 (rejKey pgHub who) (atBit 1 31 ||| atBit (off % 0x1000) 16 ||| atBit 5 0) s.dev.rejs,
          hubRej := put 0 (writerOf who) (atBit 1 31 ||| atBit (off / 0x1000 * 0x1000) 0) s.dev.hubRej })

/-- PAGE_RESET, PAGE_QUIESCE and PAGE_ENABLE. On a page that implements PAGE_CTL, accepted: PAGE_RESET with ENABLE 0 before and
in the write returns every block register, counter, ERR_STAT and ERR_FIRST of the page to its reset value and leaves other
pages' registers; PAGE_QUIESCE and PAGE_ENABLE store QUIESCE and ENABLE when ENABLE is not cleared, or was already clear, or
the page reads QUIESCED. -/
def Obligations.PageControlCommands : Prop :=
  ∀ (s : State) (who : Agent) (p : Page) (page : Nat), p.block.hasPageCtl = true → ctlOff page = at_ p .pageCtl →
    (∀ value : Nat, Accepted s who p .pageCtl 0 (BitVec.ofNat 32 value ||| 4) → s.work.rb p .pageCtl 0 = false →
      bitOf (BitVec.ofNat 32 value) 0 = false →
      Runs (.pageReset who page value) s
        ((((((s.work.setReg p .pageCtl (BitVec.ofNat 32 value &&& 3)).resetRegs (p.base + 0x100) (p.base + 0x1000)).clearCounters p).setReg
          p .errStat 0).setReg p .errFirst 0).resetUnit p)
      ∧ ∃ t, exec (.pageReset who page value) s = .next t ∧ t.mem = s.mem
        ∧ (∀ k, p.base + 0x100 ≤ k → k < p.base + 0x1000 → look 0 k t.dev.regs = 0)
        ∧ (∀ k, (k < p.base ∨ p.base + 0x1000 ≤ k) → ∀ d, look d k t.dev.regs = look d k s.dev.regs))
    ∧ (∀ on en : Bool, Accepted s who p .pageCtl 0 (atBit (b2n on) 1 ||| atBit (b2n en) 0) →
      (en = true ∨ s.work.rb p .pageCtl 0 = false ∨ bitOf (s.work.pageStat p) 30 = true) →
      Runs (.pageQuiesce who page on en) s (s.work.setReg p .pageCtl (atBit (b2n on) 1 ||| atBit (b2n en) 0))
      ∧ Runs (.pageEnable who page en on) s (s.work.setReg p .pageCtl (atBit (b2n on) 1 ||| atBit (b2n en) 0)))

/-- DOORBELL and Q_RESET. On one of its own 32 queues, with the device in service, an answering function's doorbell to an
enabled queue with a value not behind Q_TAIL and at most the ring's size ahead of Q_HEAD sets Q_TAIL to the value and counts
the doorbell; one behind Q_TAIL or further ahead, or one to a disabled queue or out of service, changes nothing but that
queue's Q_REJ, which records REJ_RANGE or REJ_STATE, and the count of rejected doorbells. Q_RESET of a disabled queue with
no entry in admission sets HEAD and TAIL to 0. -/
def Obligations.DoorbellMovesTail : Prop :=
  ∀ (s : State) (fn queue : Nat), s.work.answers (.fn fn) = true → queue < 32 →
    (∀ tail : Nat, s.work.inService = true → bitOf (s.work.qreg (32 * fn + queue) .qCfg) 31 = true →
      0 ≤ serialDiff (BitVec.ofNat 32 tail).toNat (s.work.qreg (32 * fn + queue) .qTail).toNat →
      serialDiff (BitVec.ofNat 32 tail).toNat (s.work.qreg (32 * fn + queue) .qHead).toNat
        ≤ (2 ^ fld (s.work.qreg (32 * fn + queue) .qCfg) 4 0 : Nat) →
      Runs (.doorbell fn queue tail) s ((s.work.count pgPx 1).setQreg (32 * fn + queue) .qTail (BitVec.ofNat 32 tail)))
    ∧ (∀ tail : Nat, s.work.inService = true → bitOf (s.work.qreg (32 * fn + queue) .qCfg) 31 = true →
      (serialDiff (BitVec.ofNat 32 tail).toNat (s.work.qreg (32 * fn + queue) .qTail).toNat < 0
        ∨ (2 ^ fld (s.work.qreg (32 * fn + queue) .qCfg) 4 0 : Nat)
          < serialDiff (BitVec.ofNat 32 tail).toNat (s.work.qreg (32 * fn + queue) .qHead).toNat) →
      Runs (.doorbell fn queue tail) s ((s.work.setQreg (32 * fn + queue) .qRej (rejWord 0 .range)).count pgPx 2))
    ∧ (∀ tail : Nat, s.work.inService = false ∨ bitOf (s.work.qreg (32 * fn + queue) .qCfg) 31 = false →
      Runs (.doorbell fn queue tail) s ((s.work.setQreg (32 * fn + queue) .qRej (rejWord 0 .state)).count pgPx 2))
    ∧ (bitOf (s.work.qreg (32 * fn + queue) .qCfg) 31 = false → s.work.qBusy (32 * fn + queue) = false →
      Runs (.qReset fn queue) s ((s.work.setQreg (32 * fn + queue) .qHead 0).setQreg (32 * fn + queue) .qTail 0))

/-- DEAL_OPEN, RWD_STAGE, DEAL_ABANDON and DIR_PUSH. Accepted by the slot's own writer: OPEN of an IDLE slot opens it with
OUTCOME, CODE and INDEX 0 and nothing staged; an RWD register written while the writer's slot is OPEN, and staged in no
other slot that is open or committing, is staged in its place (a second write of the same register replaces the first value,
and the register itself keeps its value); ABANDON of an OPEN slot closes it as ABANDONED and discards what was staged.
Accepted by the slot's own writer while the slot is OPEN: a push of a word that is compared or written, at an 8-byte aligned
address that translates for writing and leads to on-die SRAM, appends the word with its expected value and its data, or
replaces the word already pushed at that address. -/
def Obligations.DealOpensStagesAndCloses : Prop :=
  ((∀ (s : State) (who : Agent) (k : Nat), Accepted s who pgDl .dlCtl k 1 → (s.work.deal_ k).state = .idle →
        Runs (.dealOpen who k) s (s.work.setDeal k (fun x => { x with
          state := .opened, outcome := 0, code := 0, index := 0, staged := [], words := [], late := false, thread := Agent.thread who })))
      ∧ (∀ (s : State) (who : Agent) (id : RegId) (n value : Nat), id ∈ [RegId.ttPitch, .ttXlateLo, .ttXlateHi] → n < 32 →
        Accepted s who pgTt id n (BitVec.ofNat 32 value) → (id = .ttPitch → pitchRange (BitVec.ofNat 32 value) = true) →
        (s.work.deal_ (Agent.slot who)).state = .opened →
        (∀ j y, s.dev.deals[j]? = some y → j ≠ Agent.slot who → y.state ≠ .idle → ∀ e ∈ y.staged, e.1 ≠ at_ pgTt id n) →
        ((∀ e ∈ (s.work.deal_ (Agent.slot who)).staged, e.1 ≠ at_ pgTt id n) → (s.work.deal_ (Agent.slot who)).staged.length < 64 →
          Runs (.rwdStage who (at_ pgTt id n) value) s
            (s.work.setDeal (Agent.slot who) (fun x => { x with staged := x.staged ++ [(at_ pgTt id n, BitVec.ofNat 32 value)] })))
        ∧ ((∃ e ∈ (s.work.deal_ (Agent.slot who)).staged, e.1 = at_ pgTt id n) →
          Runs (.rwdStage who (at_ pgTt id n) value) s
            (s.work.setDeal (Agent.slot who) (fun x => { x with
              staged := x.staged.map (fun e => if e.1 = at_ pgTt id n then (at_ pgTt id n, BitVec.ofNat 32 value) else e) }))))
      ∧ (∀ (s : State) (who : Agent) (k : Nat), Accepted s who pgDl .dlCtl k 3 → (s.work.deal_ k).state = .opened →
        RunsTo (.dealAbandon who k) s { s.dev with
          deals := updAt (fun x => { x with
            state := .idle, outcome := 5, code := 0, index := 0, staged := [], words := [], at_ := none, doneTime := s.dev.time }) k s.dev.deals,
          due := s.dev.due.filter (fun x => x.kind != .slotted k) }))
    ∧ (∀ (s : State) (who : Agent) (k : Nat) (cmp low wr : Bool),
      Accepted s who pgDl .dlDirCtl k (1 ||| atBit (b2n cmp) 1 ||| atBit (b2n low) 2 ||| atBit (b2n wr) 3) →
      let va := s.work.slotPair .dlDirAddrLo .dlDirAddrHi k
      let w := (s.work.wordAt (slotCtx k) va).2
      let e : DirWord := { va := va, expect := dword (w.slotPair .dlDirExpectLo .dlDirExpectHi k),
                           data := dword (w.slotPair .dlDirDataLo .dlDirDataHi k), compare := cmp, low32 := low, write := wr }
      (s.work.deal_ k).state = .opened → va % 8 = 0 → (cmp = true ∨ wr = true) → (s.work.wordAt (slotCtx k) va).1 = .sram →
      ((∀ y ∈ (s.work.deal_ k).words, y.va ≠ va) → (s.work.deal_ k).words.length < 32 →
        Runs (.dirPush who k cmp low wr) s (w.setDeal k (fun x => { x with words := x.words ++ [e] })))
      ∧ ((∃ y ∈ (s.work.deal_ k).words, y.va = va) →
        Runs (.dirPush who k cmp low wr) s
          (w.setDeal k (fun x => { x with words := x.words.map (fun y => if y.va = va then e else y) }))))

/-- DEAL_COMMIT, DEAL_COMMIT_BEAT and ADMISSION_COMMIT. Accepted by the slot's own writer on an OPEN slot, COMMIT without AT makes
the Deal COMMITTING and due on the beat after a validation of 4 beats plus one per 8 staged entries, rounded up; with AT on a
running time base and an AT beat after that validation, it is due on its AT beat; with an AT beat that has passed or falls in the
validation, it is due on the beat after validation and late. Time passes to the first beat, after the last beat that took a
commit, on which a due Deal can commit; there the due Deals are taken in order, and the first that passes its checks takes the
beat. When that first one is a COMMITTING slotted Deal that passes, every register it staged and every directory word it writes
takes effect and it closes as COMMITTED, or LATE if it was late; when it is an admission whose context is not saved or being
saved, its graph enters as valid, HEAD advances and its place among the admissions is free. -/
def Obligations.OneDealCommitsPerBeat : Prop :=
  (∀ (s : State) (who : Agent) (k : Nat) (lateFail : Bool), (s.work.deal_ k).state = .opened →
      let n := (s.work.deal_ k).staged.length + (s.work.deal_ k).words.length
      let ends := s.dev.beat + 4 + ceilDiv n 8
      let at4 := roundUp ((s.work.reg pgDl .dlAtLo k).toNat + (s.work.reg pgDl .dlAtHi k).toNat * 2 ^ 32) 4
      let b := s.dev.beat + s.work.beatsTo at4
      (Accepted s who pgDl .dlCtl k (2 ||| atBit 0 3 ||| atBit (b2n lateFail) 4) →
        Runs (.dealCommit who k false lateFail) s
          ((s.work.setDeal k (fun x => { x with
            state := .committing, due := ends + 1, at_ := none, lateFail := lateFail, late := false })).dealDue (ends + 1) (.slotted k) []))
      ∧ (Accepted s who pgDl .dlCtl k (2 ||| atBit 1 3 ||| atBit (b2n lateFail) 4) → s.dev.counting = true →
        (s.dev.time ≤ at4 → ends < b →
          Runs (.dealCommit who k true lateFail) s
            ((s.work.setDeal k (fun x => { x with
              state := .committing, due := b, at_ := some b, lateFail := lateFail, late := false })).dealDue b (.slotted k) []))
        ∧ ((at4 < s.dev.time ∨ b ≤ ends) →
          Runs (.dealCommit who k true lateFail) s
            ((s.work.setDeal k (fun x => { x with
              state := .committing, due := ends + 1, at_ := some b, lateFail := lateFail, late := true })).dealDue (ends + 1) (.slotted k) []))))
    ∧ (∀ (s : State) (b : Nat) (x : DealDue) (rest : List DealDue),
      dealOrder ((s.work.passTo b).dev.due.filter (fun y => decide (y.firstDue ≤ b))) = x :: rest →
      let w := (s.work.passTo b).upd (fun d => { d with due := d.due.filter (fun y => y.seq != x.seq) })
      (∀ k : Nat, s.dev.nextCommit (fun _ => true) = some b → x.kind = .slotted k → k < w.dev.deals.length →
        (w.deal_ k).state = .committing → (w.dealFault k).1 = none →
        Runs .dealCommitBeat s ((((w.dealFault k).2.dealTakes k).upd (fun d => { d with lastCommit := some d.beat })).moveOn)
        ∧ ∃ t, exec .dealCommitBeat s = .next t ∧ t.dev.lastCommit = some t.dev.beat
          ∧ (t.work.deal_ k).state = .idle ∧ (t.work.deal_ k).outcome = (if (w.deal_ k).late then 4 else 1)
          ∧ (t.work.deal_ k).staged = [] ∧ (t.work.deal_ k).words = []
          ∧ ((w.deal_ k).words = [] → t.mem = s.mem.writeAll (w.dealFault k).2.out)
          ∧ ((∀ e ∈ (w.deal_ k).staged, ∀ n < 32, e.1 ≠ pitchOff n) → (w.deal_ k).words = [] →
            t.dev.regs = (w.deal_ k).staged.foldl (fun m e => put 0 e.1 e.2 m) (w.dealFault k).2.dev.regs))
      ∧ (∀ (i : Instr) (q : Nat) (a : Admission),
        (i = .dealCommitBeat ∧ s.dev.nextCommit (fun _ => true) = some b)
          ∨ (i = .admissionCommit ∧ s.dev.nextCommit (fun y => match y.kind with
            | .admission _ => true
            | _ => false) = some b) →
        x.kind = .admission q → w.dev.admissions.find? (fun a => a.queue == q) = some a → w.admissionHeld (q / 32) = false →
        ∃ t, exec i s = .next t ∧ t.mem = s.mem.writeAll w.out ∧ t.dev.lastCommit = some t.dev.beat
          ∧ t.dev.admissions = w.dev.admissions.filter (fun y => y.queue != q)
          ∧ t.dev.graphs.length = w.dev.graphs.length + 1
          ∧ (t.dev.graphs.getLast?.map (fun g => (g.gid, g.valid, g.tasks.length)))
              = some (a.graph.gid, true, a.graph.tasks.length)
          ∧ t.dev.regs = put 0 (qOff q .qHead) (w.qreg q .qHead + 1) w.dev.regs))

/-- ADMISSION of the entry at HEAD. When the device is in service, the queue is enabled and not empty, its context is not saved
or in reset, fewer than four admissions run, none of them is the queue's, and no queue before it in turn can run one: if
everything the entry names passes the checks of admission and its tasks fit the context's quota and the free entries, an
admission holding the graph, not yet valid, is entered and its Deal is due 12 beats plus one per 32 tasks and the commit beat
later; if a check fails, that time passes, HEAD advances, no task is entered, and the refusal with the first failing check's
code, task and offset is due; a graph that its context's quota could hold but that finds no room yet waits, and nothing
changes. A queue that ran one comes last in the next turn. -/
def Obligations.AdmissionReadsAndQueues : Prop :=
  ∀ (s : State) (q : Nat), s.work.inService = true → bitOf (s.work.qreg q .qCfg) 31 = true →
    s.work.qreg q .qHead ≠ s.work.qreg q .qTail → s.work.admissionHeld (q / 32) = false → s.dev.admissions.length < 4 →
    s.dev.admissions.any (fun x => x.queue == q) = false → s.dev.flrBusy.contains (q / 32) = false →
    s.dev.turns.find? (fun k => k == q || (s.work.admissionStep k).isSome) = some q →
    let r := (s.work.readGraph q).1
    let a := (s.work.readGraph q).2
    let quota := s.work.rf pgTt .ttCtxCfg 17 0 (q / 32)
    let fits := s.dev.held (q / 32) + r.count ≤ quota ∧ r.count ≤ s.dev.freeEntries
    let due := s.dev.beat + 12 + ceilDiv r.count 32 + 1
    (firstFail a.fails = none → fits →
      ∃ t g, exec (.admission q) s = .next t ∧ t.mem = s.mem.writeAll a.w.out
        ∧ t.dev = { a.w.dev with
            admissions := a.w.dev.admissions ++ [⟨q, due, g⟩]
            due := a.w.dev.due ++ [⟨due, a.w.dev.nextId + 1, .admission q, []⟩]
            nextId := a.w.dev.nextId + 2
            turnCtx := q / 32
            turnQueue := put 31 (q / 32) (q % 32) a.w.dev.turnQueue }
        ∧ g.queue = q ∧ g.tasks = r.tasks ∧ g.edges = r.edges ∧ g.valid = false ∧ g.gid = a.w.dev.nextId
        ∧ g.tag = bytesAt (r.sub.getD []) 8 4 ∧ g.complAddr = bytesAt (r.sub.getD []) 16 8)
    ∧ (∀ f : Fail, firstFail a.fails = some f →
      (fits ∨ s.work.rb pgTt .ttCtxCfg 31 (q / 32) = false ∨ s.work.outOfService = true ∨ quota < r.count) →
      Runs (.admission q) s (((a.w.passTo (s.dev.beat + 12 + ceilDiv r.count 32)).refuse q r.sub f).upd (fun d => { d with
        turnCtx := q / 32
        turnQueue := put 31 (q / 32) (q % 32) d.turnQueue })))
    ∧ (s.work.rb pgTt .ttCtxCfg 31 (q / 32) = true → s.work.outOfService = false → r.count ≤ quota → ¬ fits →
      RunsTo (.admission q) s s.dev)

/-- TASK_RELEASE, PRIMED_RELEASE and SIGNAL_TASK_COMPLETE. A WAITING task, not of kind SIGNAL, whose conditions were met on beat
b is released on beat b + 2 (or at once if that has passed): it becomes PRIMED while a soft predecessor is not DONE,
RELEASED otherwise, and one instance of it is made in every cluster of its pitch, or in the one cluster it names. A PRIMED
task whose soft predecessors are DONE since beat b becomes RELEASED on beat b + 2, its empty instances complete, and its
slotted instances may start. A WAITING task of kind SIGNAL whose conditions were met on beat b completes on that beat, or
when the time base reaches its launch time if it is timed and that is later: it is DONE, and its signal on an object is due
12 beats after it ended. -/
def Obligations.TaskIsReleased : Prop :=
  ((∀ (s : State) (r : TaskRef) (g : Graph) (t : Task) (b : Nat) (w : Work), s.dev.graph? r.gid = some g → g.task? r.task = some t →
        t.metAt = some b → t.state = .waiting → t.kind ≠ some .signal →
        w = (s.work.passTo (b + 2)).setTask r.gid r.task (fun t => { t with
          state := if g.softDone r.task then .released else .primed, releasedAt := (s.work.passTo (b + 2)).dev.beat, metAt := none,
          dealt := t.hasInstances }) →
        (t.hasInstances = false → g.softDone r.task = false → Runs (.taskRelease r) s w.recheck)
        ∧ (t.hasInstances = true → g.softDone r.task = false → Runs (.taskRelease r) s (w.deal r.gid r.task t).recheck)
        ∧ (t.hasInstances = false → g.softDone r.task = true →
            Runs (.taskRelease r) s (w.completeEmpty r.gid r.task t).recheck)
        ∧ (t.hasInstances = true → g.softDone r.task = true →
            Runs (.taskRelease r) s ((w.deal r.gid r.task t).completeEmpty r.gid r.task t).recheck))
      ∧ (∀ (w : Work) (gid ti : Nat) (t : Task) (p : Pitch), w.pitchOfTask gid t = some p →
        ∃ new, (w.deal gid ti t).dev = { w.dev with insts := w.dev.insts ++ new, nextId := w.dev.nextId + new.length }
          ∧ new.map (·.cluster) = (if t.one then [p.at (t.f 4 1) (t.f 5 1)] else p.clusters)
          ∧ (∀ i ∈ new, i.gid = gid ∧ i.ti = ti ∧ i.slot = none ∧ i.started = false))
      ∧ (∀ (s : State) (r : TaskRef) (t : Task) (b : Nat), s.dev.task? r.gid r.task = some t → t.softAt = some b → t.state = .primed →
        Runs (.primedRelease r) s
          ((((s.work.passTo (b + 2)).setTask r.gid r.task (fun t => { t with state := .released, softAt := none })).completeEmpty
            r.gid r.task t).startTask r.gid r.task)))
    ∧ (∀ (s : State) (r : TaskRef) (t : Task) (b : Nat), s.dev.task? r.gid r.task = some t → t.metAt = some b → t.kind = some .signal →
      t.state = .waiting →
      Runs (.signalTaskComplete r) s
        ((if t.timed then (s.work.passTo b).passToTime t.launchTime else s.work.passTo b).doneTask r.gid r.task)
      ∧ ∀ w : Work, w.dev.task? r.gid r.task = some t →
        ∃ t', (w.doneTask r.gid r.task).dev.task? r.gid r.task = some t' ∧ t'.state = .done ∧ t'.doneAt = w.dev.beat
          ∧ t'.signalDue = (if t.signalsObject = true then some (w.dev.beat + 12) else none))

/-- SLOT_TAKE, INSTANCE_COMPLETE, GENERATION_BUMP, INSTANCE_STOP and PAGE_ZEROED. In a cluster whose pages are all enabled and
not quiesced, the first instance of the waiting order that R71 lets be placed takes the lowest free slot on this beat: it
keeps the slot's generation, its layout is chosen, its wait on a cell is registered, and it starts if its task may execute and its
wait is met; from its start it has HK_CFG as it stands then. R71's order and fit are the model's functions waitingAt and placeable; a table that is paused or a context
that is saved holds an instance back. A slotted instance that has ended and whose writes have all committed, with no stop
order, completes: its slot's generation rises by one, it signals its cell, frees its slot, pages and waits and leaves; with
no other instance of its task left the task is DONE. A stop order first raises the slot's generation once; the stopped
instance then leaves in the same way without a signal. Pages that an instance held are zeroed before they are free, in the
counts that PAGE_ZEROED gives. -/
def Obligations.SlotIsTaken : Prop :=
  ((∀ (s : State) (c : Nat) (i : Inst) (k : Nat) (t : Task), s.work.clusterOpen c = true →
        s.work.placeable c (s.dev.waitingAt c) = some i → s.work.freeSlot c = some k →
        let w := s.work.setInst i.iid (fun x => { x with slot := some k, tookAt := s.dev.beat })
        let v := w.setTask i.gid i.ti (fun t => { t with gen := w.gen c k })
        i.task? v.dev = some t → Runs (.slotTake c) s (((v.chooseLayout i t false).registerCellWait i.iid).startInst i.iid))
      ∧ (∀ (w : Work) (c : Nat) (l : List Inst) (i : Inst), w.placeable c l = some i → i ∈ l ∧ (w.freeSlot c).isSome
          ∧ ∃ t, i.task? w.dev = some t ∧ t.landing ≤ w.landingFree c ∧ opcPages t.opcache ≤ w.opcFree c
            ∧ w.heldBack i t = false ∧ w.dev.cellConflict i t = false))
    ∧ (∀ (s : State) (c k : Nat) (i : Inst), s.dev.instIn? c k = some i →
      (∀ t, i.task? s.dev = some t → s.work.committed i = true → i.stopOrdered = false → i.isLane = false →
        let w := (((s.work.bumpGen c k).cellSignal i t).leave i)
        (w.dev.insts.any (fun j => j.gid == i.gid && j.ti == i.ti && !j.isLane) = true → Runs (.instanceComplete c k) s w)
        ∧ (w.dev.insts.any (fun j => j.gid == i.gid && j.ti == i.ti && !j.isLane) = false →
            Runs (.instanceComplete c k) s (w.doneTask i.gid i.ti)))
      ∧ (i.stopOrdered = true → i.bumped = false →
          Runs (.generationBump c k) s ((s.work.bumpGen c k).setInst i.iid (fun i => { i with bumped := true })))
      ∧ (i.stopOrdered = true → i.bumped = true → i.outTiles = [] →
          Runs (.instanceStop c k) s (s.work.leave i) ∧ (s.work.leave i).dev.insts = s.dev.insts.filter (fun x => x.iid != i.iid))
      ∧ (∀ n, RunsTo (.pageZeroed c n) s { s.dev with
          clusters := put .empty c { s.work.cluster c with zeroing := (s.work.cluster c).zeroing - n } s.dev.clusters }))

/-- TASK_TIMEOUT. A task that has been released and has not ended, with a non-zero TIMEOUT_US, fails when that time has passed
since its release: ERR_TASK_TIMEOUT is raised in the TT page naming the instance that has held a slot longest, the task is
FAILED and every task that depends on it is CANCELLED. -/
def Obligations.TaskTimesOut : Prop :=
  ∀ (s : State) (r : TaskRef) (t : Task), s.dev.task? r.gid r.task = some t → t.state.live = true → t.state ≠ .waiting →
    t.timeoutUs ≠ 0 →
    let w := s.work.passTo (t.releasedAt + t.timeoutUs * 250)
    Runs (.taskTimeout r) s
      ((w.raise pgTt .taskTimeout ⟨2, some (w.dev.ctxOf r.gid), w.dev.codeOf r.gid r.task, w.dev.timeoutWaiter r.gid r.task, []⟩).failOnly
        r.gid r.task Err.taskTimeout.code)

/-- COMPLETION_RECORD. For an admitted graph none of whose tasks is live, whose instances have all left, whose signals have
all gone out and whose tiles have all been written, the 32-byte record with its tag, outcome, first failing code and task, poison counts and time is written at
its completion address and its vector signalled, and the graph's entries are freed; a graph ended by a function reset leaves
without a record. For a refused submission the record carries the refusing check's code, task and offset. -/
def Obligations.CompletionRecordIsWritten : Prop :=
  ∀ (s : State) (gid : Nat),
    (∀ g : Graph, s.dev.refusals.find? (fun r => r.gid == gid) = none → s.dev.graph? gid = some g → g.valid = true → g.ended = true →
      s.dev.insts.any (fun i => i.gid == gid) = false → g.tasks.any (fun t => t.signalDue.isSome) = false → s.dev.tilesOf gid = [] →
      let w := if g.silent then s.work else s.work.writeRecord g.queue g.complAddr g.msix g.tag
        (recordBytes g.tag g.outcome.1 g.outcome.2.1 g.outcome.2.2 0 g.poisonRead g.poisonWritten s.dev.time)
      Runs (.completionRecord gid) s ((w.upd (fun d => { d with graphs := d.graphs.filter (fun x => x.gid != gid) })).recheck))
    ∧ (∀ r : RefusalDue, s.dev.refusals.find? (fun r => r.gid == gid) = some r →
      Runs (.completionRecord gid) s
        ((s.work.upd (fun d => { d with refusals := d.refusals.filter (fun x => x.gid != gid) })).writeRecord r.queue r.addr r.msix r.tag
          (recordBytes r.tag 1 r.code r.task r.offset 0 0 s.dev.time)))

/-- CANCEL_TAG, CANCEL_QUEUE, CANCEL_CONTEXT, TT_XLATE_INV, XLATE_INV_DONE, SY_XLATE_INV, SY_XLATE_INV_DONE. An accepted write
of TT_CANCEL cancels every admitted graph that has not ended and is named: by the queue and the writer's TT_CANCEL_TAG under
scope TAG, by the queue under QUEUE, by the queue's context under CONTEXT. Each live task of such a graph becomes CANCELLED.
Where graphs have distinct serial numbers, no task of a named graph is live afterwards. An accepted TT_XLATE_INV sets BUSY
and drops every topology-cache line of the context, and no other line; XLATE_INV_DONE clears BUSY, and from then on no
cluster holds a table entry of the context that it read before. SY_XLATE_INV sets its own BUSY for the context, and
SY_XLATE_INV_DONE clears it and drops the hub's entries of the context. Nothing else changes. -/
def Obligations.CancelNamesGraphs : Prop :=
  ((∀ (s : State) (who : Agent) (q : Nat), q < 1024 →
        (Accepted s who pgTt .ttCancel 0 (atBit 0 30 ||| atBit q 0) →
          Runs (.cancelTag who q) s (s.work.cancelGraphs
            (fun g => g.queue == q && g.tag == (look 0 (writerOf who) s.dev.cancelTags).toNat) false))
        ∧ (Accepted s who pgTt .ttCancel 0 (atBit 1 30 ||| atBit q 0) →
          Runs (.cancelQueue who q) s (s.work.cancelGraphs (fun g => g.queue == q) false))
        ∧ (Accepted s who pgTt .ttCancel 0 (atBit 2 30 ||| atBit q 0) →
          Runs (.cancelContext who q) s (s.work.cancelGraphs (fun g => g.ctx == q / 32) false)))
      ∧ (∀ (w : Work) (p : Graph → Bool), (∀ g h : Graph, g.queue = h.queue → g.tag = h.tag → p g = p h) →
        (w.dev.graphs.map (·.gid)).Nodup →
        ∀ g ∈ (w.cancelGraphs p false).dev.graphs, p g = true → g.valid = true → g.ended = true))
    ∧ (∀ (s : State) (who : Agent) (ctx : Nat), ctx < 32 →
      (Accepted s who pgTt .ttXlateInv 0 (BitVec.ofNat 32 ctx) → s.dev.ttInvDue = none →
        RunsTo (.ttXlateInv who ctx) s { s.dev with
          ttInvDue := some ctx,
          clusters := s.dev.clusters.map (fun (c, cl) => (c, { cl with tc := cl.tc.filter (fun x => x.ctx != ctx) })) })
      ∧ (s.dev.ttInvDue = some ctx → RunsTo .xlateInvDone s { s.dev with
          ttInvDue := none, xheld := dropRange (ctx * 2 ^ 80) ((ctx + 1) * 2 ^ 80) s.dev.xheld })
      ∧ (Accepted s who pgSy .syXlateInv 0 (BitVec.ofNat 32 ctx) → s.dev.sync.invDue = none →
        RunsTo (.syXlateInv who ctx) s { s.dev with sync := { s.dev.sync with invDue := some ctx } })
      ∧ (s.dev.sync.invDue = some ctx → RunsTo .syXlateInvDone s { s.dev with sync := { s.dev.sync with
          invDue := none, held := dropRange (ctx * 2 ^ 48) ((ctx + 1) * 2 ^ 48) s.dev.sync.held } }))

/-- CONTEXT_SAVE, SAVE_IMAGE_WRITE, SAVE_TIMEOUT, CONTEXT_RESTORE. An accepted SAVE with a non-zero limit, with none in
progress, starts the save: its limit is the number of µs from now, and every instance of the context that holds a slot and
has not started loses it. When no instance of the context holds a slot, the image is written at TT_SAVE_ADDR, SAVED is set, the
context's unended graphs leave the tracker, and the result is OK with the task count; when the limit comes first,
ERR_SAVE_TIMEOUT is raised and the result is FAILED. A limit of 0 is rejected with REJ_RANGE. An accepted RESTORE of a context that is not saved fails with
REJ_STATE; otherwise it is the restore of the image at TT_SAVE_ADDR. -/
def Obligations.ContextIsSavedAndRestored : Prop :=
  ∀ (s : State),
    (∀ (who : Agent) (ctx us : Nat), ctx < 32 → 0 < us → us < 65536 → s.dev.save = none →
      Accepted s who pgTt .ttSaveCtl 0 (atBit 1 24 ||| atBit ctx 16 ||| atBit us 0) →
      Runs (.contextSave who ctx us) s
        ((s.work.storeRw pgTt (regOf pgTt .ttSaveCtl) 0 (atBit 1 24 ||| atBit ctx 16 ||| atBit us 0)).saveStart ctx us)
      ∧ ((s.work.storeRw pgTt (regOf pgTt .ttSaveCtl) 0 (atBit 1 24 ||| atBit ctx 16 ||| atBit us 0)).saveStart ctx us).dev.save
          = some (ctx, s.dev.beat + us * 250))
    ∧ (∀ ctx b, s.dev.save = some (ctx, b) → s.dev.drainedCtx ctx = false →
      let w := s.work.passTo b
      Runs .saveTimeout s ((((w.raise pgTt .saveTimeout
        ⟨Err.severity .saveTimeout, some ctx, 0xFFFFFFFF, w.dev.oldestRunning ctx, []⟩).saveResult 2 0 0)).recheck))
    ∧ (∀ ctx b, s.dev.save = some (ctx, b) → s.dev.drainedCtx ctx = true →
      let gs := s.dev.graphs.filter (fun g => g.ctx == ctx && !g.ended)
      let n := gs.foldl (fun k g => k + g.tasks.length) 0
      let cs := (s.work.localPitches ctx).flatMap Pitch.clusters
      let img := s.work.imageHeader ctx n cs.length ++ gs.flatMap (fun g => (g.tasks.zipIdx).flatMap (fun (t, k) => taskImage g k t))
        ++ cs.flatMap s.work.clusterImage
      s.work.backed s.work.saveAddr img.length = true →
      ∃ t, exec .saveImageWrite s = .next t ∧ t.dev.save = none ∧ t.dev.saved = s.dev.saved ++ gs
        ∧ t.dev.graphs = s.dev.graphs.filter (fun g => !(g.ctx == ctx && !g.ended))
        ∧ t.mem = s.mem.writeAll (s.work.writePhys s.work.saveAddr (img.map (·, false))).out)
    ∧ (∀ (who : Agent) (ctx : Nat), ctx < 32 →
      (Accepted s who pgTt .ttSaveCtl 0 (atBit 1 24 ||| atBit ctx 16 ||| atBit 0 0) →
        Runs (.contextSave who ctx 0) s (s.work.reject pgTt who (at_ pgTt .ttSaveCtl % 0x1000) .range))
      ∧ (Accepted s who pgTt .ttSaveCtl 0 (atBit 2 24 ||| atBit ctx 16 ||| atBit 0 0) →
        Runs (.contextRestore who ctx 0) s (s.work.reject pgTt who (at_ pgTt .ttSaveCtl % 0x1000) .range)))
    ∧ (∀ (who : Agent) (ctx us : Nat), ctx < 32 → 0 < us → us < 65536 → s.dev.save = none →
      Accepted s who pgTt .ttSaveCtl 0 (atBit 2 24 ||| atBit ctx 16 ||| atBit us 0) →
      let w := s.work.storeRw pgTt (regOf pgTt .ttSaveCtl) 0 (atBit 2 24 ||| atBit ctx 16 ||| atBit us 0)
      (s.work.rb pgTt .ttCtxCfg 30 ctx = true → Runs (.contextRestore who ctx us) s (w.restore ctx))
      ∧ (s.work.rb pgTt .ttCtxCfg 30 ctx = false → Runs (.contextRestore who ctx us) s (w.saveResult 2 3 0)))

/-- HAWKER_FETCH_ISSUE and TC_FLUSH. On a beat on which the cluster runs, with its HK page enabled and a fetch tag free, the
Hawker issues the next request of the instance it serves, a topology request as whole granules. A topology request whose
lines are all in the cluster's topology cache reads them from there. Otherwise, where its address translates, its bytes are
read as they stand. Either way one fetch is in flight for them with the present generation of its home slot, every other
fetch in flight being kept; where the address does not translate, the task fails with ERR_XLATE and the address. An accepted
TC_FLUSH stores ENABLE in HK_TC_CFG and drops every line of the cluster's topology cache; no other cluster's cache and no
other register changes. -/
def Obligations.StreamRequestIsIssued : Prop :=
  (∀ (s : State) (c : Nat) (i : Inst) (a : Ask) (t : Task), let w := s.work.stepBeat c
      w.pageOn ⟨.hk, c⟩ = true → w.dev.tags c < 2048 → w.hawkerPick c = some (i, a) → i.task? w.dev = some t →
      let v := w.count ⟨.hk, i.cluster⟩ 0
      let ctx := w.dev.ctxOf i.gid
      let p := if a.req.topo then widen (a.va, a.n) else (a.va, a.n)
      let hit := if a.req.topo then v.tcRead i.cluster ctx [p] (i.reader w.dev) else (none, v)
      let miss := if a.req.topo then hit.2.count ⟨.hk, i.cluster⟩ 3 else hit.2
      let x := if a.first then miss.readVa ctx p.1 p.2 (i.reader w.dev) else miss.readLater ctx p.1 p.2 (i.reader w.dev)
      let flies (u : State) (y : Work) (l : List PByte) (cached : Bool) : Prop := ∃ f : Fetch,
        u.dev.fetches = y.dev.fetches ++ [f] ∧ u.mem = s.mem.writeAll y.out ∧ f.copy = l ∧ f.pieces = [(a.va, a.n)]
          ∧ f.iid = i.iid ∧ f.dest = .stream a.req.stream a.req.item a.part a.req.split.length ∧ f.cached = cached ∧ f.remote = none
          ∧ (f.home, f.slot) = u.dev.homeSlot i ∧ f.gen = u.work.gen f.home f.slot
      Runs (.hawkerFetchIssue c) s (w.issueReq i t a)
      ∧ (∀ l : List PByte, hit.1 = some l → ∃ u : State, exec (.hawkerFetchIssue c) s = .next u
          ∧ flies u (((hit.2.count ⟨.hk, i.cluster⟩ 2)).tcTouch i.cluster ctx [p] (i.reader w.dev)) l true)
      ∧ (∀ l : List PByte, hit.1 = none → x.1 = .ok l → ∃ u : State, exec (.hawkerFetchIssue c) s = .next u ∧ flies u x.2 l false)
      ∧ (∀ e : Nat, hit.1 = none → x.1 = .error e →
          Runs (.hawkerFetchIssue c) s (x.2.failInst i (t.page i.cluster) .xlate (leBytes 8 e))))
    ∧ (∀ (s : State) (who : Agent) (c : Nat) (en : Bool), Accepted s who ⟨.hk, c⟩ .hkTcCfg 0 (atBit (b2n en) 31 ||| 1) →
      Runs (.tcFlush who c en) s
        ((s.work.storeRw ⟨.hk, c⟩ (regOf ⟨.hk, c⟩ .hkTcCfg) 0 (atBit (b2n en) 31 ||| 1)).setCluster c (fun cl => { cl with tc := [] })))

/-- FETCH_ARRIVE. A fetch that is not remote leaves the table as it arrives. With a generation that is no longer its slot's, or
its instance gone, it is dropped and counted as stale, and no instance changes, unless it is a Shelf fill, which is written
whole. Otherwise a row lands in its instance's slot, a part of a stream's unit lands in its instance, the unit being there whole
with its last part, and a COPY row is written to its destination: granule by granule as it stood at issue or as it stands now
(which of the two, where they differ, is a free value, log 19, DEDUCED), with the poison of the granules in which an
uncorrectable error was met; a topology request comes as whole granules, which the topology cache may keep, and is cut back. -/
def Obligations.FetchLandsOrIsDropped : Prop :=
  (∀ (s : State) (id : Nat) (es : List CellError) (f : Fetch), s.dev.fetches.find? (fun f => f.id == id) = some f → f.remote = none →
    let topo := ((f.dest.unit?).map (fun u => topoStream u.1)).getD false
    let wide := if topo then f.pieces.map widen else f.pieces
    let r := if f.cached then (f.copy, s.work.dropFetch id)
      else (s.work.dropFetch id).arrived f.ctx f.phys wide f.copy es (s.dev.fetchReader f)
    let n := ((granulesOf wide).filter (fun (_, len, off) => ((r.1.drop off).take len).any (·.2))).length
    let w := ((r.2.count ⟨.hk, f.cluster⟩ 7 (if s.work.stale f then 0 else n)).poisonRead f.gid n).whenB (topo && !f.cached)
      (fun w => w.tcFill f.cluster f.ctx wide r.1 (s.dev.fetchReader f))
    let l := if topo then cutPieces f.pieces r.1 else r.1
    (s.work.stale f = true → s.work.shelfFill f = false →
      Runs (.fetchArrive id es) s (((s.work.dropFetch id).count ⟨.hk, f.cluster⟩ 5).count ⟨.hk, f.cluster⟩ 6 f.bytes)
      ∧ (((s.work.dropFetch id).count ⟨.hk, f.cluster⟩ 5).count ⟨.hk, f.cluster⟩ 6 f.bytes).dev.insts = s.dev.insts)
    ∧ (∀ ref, s.work.stale f = false → f.dest = .row ref → Runs (.fetchArrive id es) s (w.landRow f.iid ref l))
    ∧ (∀ st item part total i t, s.work.stale f = false → f.dest = .stream st item part total →
      w.dev.inst? f.iid = some i → w.dev.task? f.gid f.ti = some t →
      Runs (.fetchArrive id es) s (w.landUnit i t f st item part total l))
    ∧ (∀ desc row va first last, (s.work.stale f = false ∨ s.work.shelfFill f = true) → f.dest = .copy desc row va first last →
      Runs (.fetchArrive id es) s (w.landCopy f (s.work.stale f) desc va first last l))
    ∧ (∀ row, f.dest = .mcast row → Runs (.fetchArrive id es) s (w.landStream f row l)))
  ∧ (∀ (i : Inst) (st item : Nat) (l : List PByte), (∀ p ∈ i.parts, ¬ (p.stream = st ∧ p.item = item)) →
    i.land st item 0 1 l = { i with landed := i.landed ++ [⟨st, item, l⟩] })

/-- GATHER_INDEX and WINDOW_IDLE_TIMEOUT. For a slotted GATHER or EMBED_BAG instance that has started, with no row waiting for a
slot and no other instance of the cluster before it, the next landed index is taken. An index of a hub vertex leaves the Retail
path as a hub record unless four hubs of the instance are open. Any other index is counted; a null one produces no row; one that
breaks a rule fails the task with its error and address; one of a row that is fetched on its own is entered as a row that waits
for its slot and as an occurrence of it. When IDLE_BEATS have passed since the last index, the open window closes. -/
def Obligations.IndexEntersTheCoalescer : Prop :=
  ∀ (s : State) (c k : Nat) (i : Inst) (t : Task),
    (let w := s.work.stepBeat c;
      w.dev.instIn? c k = some i → w.dev.inst? i.iid = some i → i.task? w.dev = some t → w.gathers i t = true →
      i.rows.any (fun r => r.st == .queued) = false → w.streamHeld i = false →
      (w.dev.resident c).any (fun j => w.dev.hawkBefore j i && (w.nextIndex j).isSome) = false →
      ∀ x : Idx, (i.stream t w.self).1[i.idxPos]? = some x →
        let v := w.count ⟨.gu, i.cluster⟩ 0
        (∀ first deg, x.self = false → x.hub = some (first, deg) → Runs (.gatherIndex c k) s (w.takeHub i x first deg))
        ∧ ((x.self = true ∨ x.hub = none) →
          Runs (.gatherIndex c k) s (w.takeIndex i t x)
          ∧ (i.classify t x = .null → Runs (.gatherIndex c k) s
            (((v.setInst i.iid (fun i => { i with idxPos := i.idxPos + 1, idxTaken := i.idxTaken + b2n (!x.self) })).count
              ⟨.gu, i.cluster⟩ 9).afterIndex i.iid))
          ∧ (∀ f : StreamFault, i.classify t x = .fault f → Runs (.gatherIndex c k) s (v.streamFault i t f))
          ∧ (i.classify t x = .row → t.gather.noCoalesce = true → x.home = none → t.gather.scatter = none → i.shelfDir t = 0 →
            Runs (.gatherIndex c k) s
              (((v.setInst i.iid (fun i => { i with idxPos := i.idxPos + 1, idxTaken := i.idxTaken + b2n (!x.self) })).newRow i x.id 0 .home
                false).addOcc i.iid x i.nextRef 0 |>.afterIndex i.iid))))
    ∧ (s.dev.instIn? c k = some i → i.task? s.dev = some t → i.winOpen = true → i.winIdle ≠ 0 → s.work.gathers i t = true →
        Runs (.windowIdleTimeout c k) s ((s.work.passTo (i.winAt + i.winIdle)).closeWindow i.iid t.gather.noCoalesce))

/-- ROW_FETCH_ISSUE and REMOTE_TIMEOUT. The first row that waits is fetched from its source when a slot and a fetch tag are free,
and its bytes are those that stand at the issue. A row of a directory hit is read from its Shelf slice, and one fetch is in
flight for it. A row at home, a scatter's source row and a default row are read at their addresses: one fetch is in flight
where that translates, and the task fails with ERR_XLATE where it does not; with no default row the row is zeros. A row of
another device is asked for by a READ packet, or fails with ERR_LINK_LOST where no port leads there. A remote request that has had no answer when
its timeout comes fails its task with ERR_REMOTE_TIMEOUT, and its fetch is gone. -/
def Obligations.RowFetchIsIssued : Prop :=
  (∀ (s : State) (c k : Nat) (i : Inst) (t : Task) (r : RowEnt), let w := s.work.stepBeat c
      w.dev.instIn? c k = some i → i.task? w.dev = some t → i.rows.find? (fun r => r.st == .queued) = some r →
      w.gathers i t = true → w.dev.tags c < 2048 → w.slotFree i t r = true →
      Runs (.rowFetchIssue c k) s (w.fetchRow i t r)
      ∧ (∀ d off : Nat, r.src = .shelf d off → w.backed (slicePhys d (off * 64)) (i.rowPiece t r).2 = true →
        let ps := [(slicePhys d (off * 64), (i.rowPiece t r).2)]
        let x := w.readPhys (slicePhys d (off * 64)) (i.rowPiece t r).2 (i.reader w.dev)
        Runs (.rowFetchIssue c k) s ((((x.2.count ⟨.gu, i.cluster⟩ 3).count ⟨.gu, i.cluster⟩ 8 (chargedBytes ps)).rowState i.iid r.ref
          .flying).addFetch i 1 (.row r.ref) true ps ps x.1 none))
      ∧ (∀ d off : Nat, r.src = .shelf d off → w.backed (slicePhys d (off * 64)) (i.rowPiece t r).2 = false →
        Runs (.rowFetchIssue c k) s (w.failInst i ⟨.gu, i.cluster⟩ .xlate (leBytes 8 (i.rowPiece t r).1)))
      ∧ ((r.src = .home ∨ (∃ e, r.src = .sourceRow e) ∨ (r.src = .default ∧ (i.rowPiece t r).1 ≠ 0)) →
        let p := i.rowPiece t r
        let x := w.readVa (w.dev.ctxOf i.gid) p.1 p.2 (i.reader w.dev)
        let y := x.2.tierCounter (w.dev.ctxOf i.gid) p.1 (i.reader w.dev)
        (∀ l : List PByte, x.1 = .ok l → Runs (.rowFetchIssue c k) s
          ((((y.2.count ⟨.gu, i.cluster⟩ y.1).count ⟨.gu, i.cluster⟩ 8 (chargedBytes [p])).rowState i.iid r.ref
            .flying).addFetch i 1 (.row r.ref) false [p] [p] l none))
        ∧ (∀ e : Nat, x.1 = .error e → Runs (.rowFetchIssue c k) s (x.2.failInst i ⟨.gu, i.cluster⟩ .xlate (leBytes 8 e))))
      ∧ (r.src = .default → (i.rowPiece t r).1 = 0 →
        Runs (.rowFetchIssue c k) s (w.landRow i.iid r.ref (List.replicate (i.rowPiece t r).2 (0, false))))
      ∧ (∀ d : Nat, r.src = .remote d →
        let p := i.rowPiece t r
        (∀ port : Nat, w.reach d none = .ok port →
          let v := ((((w.count ⟨.gu, i.cluster⟩ 7).count ⟨.gu, i.cluster⟩ 8 (chargedBytes [(0, p.2)])).rowState i.iid r.ref
            .flying).addFetch i 1 (.row r.ref) false [p] [p] [] (some (d, r.row)))
          Runs (.rowFetchIssue c k) s (v.sendPacket port (mkPacket 2 0 (w.dev.ctxOf i.gid) d v.self
            (leBytes 4 w.dev.nextId ++ leBytes 2 t.gather.remoteTable) (some (leBytes 8 r.row ++ leBytes 4 p.2)) [])))
        ∧ (∀ n : Nat, w.reach d none = .error n → Runs (.rowFetchIssue c k) s (w.failInst i ⟨.gu, i.cluster⟩ .linkLost (leBytes 1 n)))))
    ∧ (∀ (s : State) (id : Nat) (f : Fetch) (i : Inst) (t : Task), s.dev.fetches.find? (fun f => f.id == id && f.remote.isSome) = some f →
      let w := (s.work.passTo f.dueAt).dropFetch id
      w.stale f = false → w.dev.inst? f.iid = some i → i.task? w.dev = some t → t.state.live = true →
      Runs (.remoteTimeout id) s ((w.raise ⟨.gu, f.cluster⟩ .remoteTimeout ⟨2, some f.ctx, t.gather.remoteTable, f.cluster, []⟩).failOnly
        f.gid f.ti Err.remoteTimeout.code))

/-- SCATTER_UPDATE, SCATTER_ENTRY_ARRIVE, SCATTER_HOLD_EXPIRE and VERSION_BUMP. The first occurrence of a scatter instance, once
its source row has landed, leaves the instance and its update enters the combining queue: merged into the entry of the same
target row, or entered, the least recently updated entry being sent when the queue is full; with the queue off the update is
sent at once; the whole queue is sent once the list, or the occurrence's closed window, is through. Under POISON_POLICY STOP a
poisoned source row or weight fails the task with ERR_POISON_STOP instead. An entry that reaches its die node is merged into
the held entry of the same target row, mode and context; with no such entry it takes space, the oldest held entries being
applied first until there is room. A held entry whose tasks have sent their final entries is applied at once, otherwise the
one idle longest is, when HOLD_BEATS have passed: its target row is read, combined and written once. The report of an UPDATE
raises VERSION by one in the row's directory entry, where its bucket holds one, and in no other. -/
def Obligations.ScatterUpdatesAreCombined : Prop :=
  (∀ (s : State) (c k : Nat) (i : Inst) (t : Task) (o : Occ) (r : RowEnt), let w := s.work.stepBeat c
      w.dev.instIn? c k = some i → i.task? w.dev = some t → i.occs.head? = some o →
      i.rows.find? (fun r => r.ref == o.ref && r.st == .landed) = some r → w.gathers i t = true → t.gather.scatter.isSome = true →
      (i.stopPolicy = true → (r.data.any (·.2) = true ∨ o.idx.weight.p = true) →
        Runs (.scatterUpdate c k) s (w.poisonStop i t (firstPoison (i.rowPiece t r).1 r.data)))
      ∧ ((i.stopPolicy = false ∨ (r.data.any (·.2) = false ∧ o.idx.weight.p = false)) →
        let v := ((w.setInst i.iid (fun i => { i with occs := i.occs.drop 1, rows := i.rows.filter (fun q => q.ref != o.ref) })).count
          ⟨.gu, c⟩ 11).combine i t o.idx.id (i.updateOf t o.idx r.data)
        let l := i.stream t v.self
        let through : Bool := (l.2 && i.idxPos == l.1.length && (i.occs.drop 1).isEmpty)
          || (!t.gather.noCoalesce && ({ i with occs := i.occs.drop 1 } : Inst).drained o.win)
        Runs (.scatterUpdate c k) s (((if through then v.flushComb i.iid else v).updateBags i.iid).endScatter i.iid))
      ∧ (∀ e, i.comb.find? (fun e => e.row == o.idx.id) = some e → ∀ (w : Work) (val : List Elem),
        w.combine i t o.idx.id val = w.setInst i.iid (fun i => { i with
          comb := i.comb.filter (fun e => e.row != o.idx.id)
            ++ [⟨o.idx.id, (e.val.zip val).map (fun (a, b) => scatterElem (t.gather.scatter.getD .add) t.gather.u32 a b), w.dev.beat⟩] })))
    ∧ (∀ (s : State) (node : Nat),
      (∀ e, s.dev.scat.find? (fun e => e.node == node && !e.held) = some e →
        let held := (dropMoving node s.dev.scat).filter (fun x => x.node == node && x.held)
        let w := (((s.work.upd (fun d => { d with scat := dropMoving node d.scat })).count ⟨.chNode, node⟩ 2).count ⟨.chNode, node⟩ 4
          (ceilDiv e.body 256))
        (∀ h, held.find? (fun x => x.target == e.target && x.op == e.op && x.ctx == e.ctx) = some h →
          Runs (.scatterEntryArrive node) s (w.upd (fun d => { d with
            scat := d.scat.map (fun x => if x.held && x.node == node && x.target == e.target && x.op == e.op && x.ctx == e.ctx then
              { h with val := (h.val.zip e.val).map (fun (a, b) => scatterElem e.op e.u32 a b), stamp := w.dev.beat,
                       update := h.update || e.update, parts := h.parts ++ e.parts } else x) })))
        ∧ (held.find? (fun x => x.target == e.target && x.op == e.op && x.ctx == e.ctx) = none →
          Runs (.scatterEntryArrive node) s ((w.makeRoom node e.body held.length).upd (fun d => { d with
            scat := d.scat ++ [{ e with held := true, stamp := w.dev.beat, since := w.dev.beat }] }))))
      ∧ (∀ (w : Work) (bytes : Nat), bytes ≤ 2097152 →
        (w.makeRoom node bytes (w.dev.scat.filter (fun x => x.node == node && x.held)).length).dev.scatRoom node bytes = true
        ∧ (w.dev.scatRoom node bytes = true → ∀ n, w.makeRoom node bytes n = w))
      ∧ (∀ e, (s.dev.scat.filter (fun x => x.node == node && x.held)).find? (fun e => s.dev.finalSent e) = some e →
        Runs (.scatterHoldExpire node) s (s.work.applyHeld e))
      ∧ (∀ e l₁ l₂, s.dev.scat.filter (fun x => x.node == node && x.held) = l₁ ++ e :: l₂ →
        (∀ x ∈ l₁ ++ e :: l₂, s.dev.finalSent x = false) → (∀ x ∈ l₁, e.stamp < x.stamp) → (∀ x ∈ l₂, e.stamp ≤ x.stamp) →
        Runs (.scatterHoldExpire node) s ((s.work.passTo (e.stamp + s.work.rf ⟨.chNode, node⟩ .chNodeCfg 11 0)).applyHeld e))
      ∧ (∀ (b : BumpDue) (l₁ l₂ : List BumpDue), s.dev.bumps = l₁ ++ b :: l₂ → (∀ x ∈ l₁, x.cluster ≠ b.cluster) →
        let w := s.work.upd (fun d => { d with bumps := l₁ ++ l₂ })
        let rd : Reader := ⟨some b.ctx, b.obj, b.cluster⟩
        let x := w.readBucket b.ctx b.dir rd
        (b.dir = 0 → Runs (.versionBump b.cluster) s w)
        ∧ (b.dir ≠ 0 → (x.1 = .poisoned ∨ ∃ e, x.1 = .fault e) → Runs (.versionBump b.cluster) s x.2)
        ∧ (∀ bytes : List Byte, b.dir ≠ 0 → x.1 = .ok bytes →
          (matchEntry bytes b.row = none → Runs (.versionBump b.cluster) s x.2)
          ∧ (∀ k y z : Nat, matchEntry bytes b.row = some (k, y, z) →
            Runs (.versionBump b.cluster) s
              (((x.2.writeVa b.ctx (b.dir + 16 * k) ((leBytes 4 (y % 2 ^ 32 + 1)).map (·, false)) rd).2).count pgEb 4)))))

/-- TAG_GRANT. The first request for a tag, among those of contexts below their limit, is granted the lowest free tag of the
256, on the sixth beat after the request at the earliest, and its wait is counted. The hub must stand in the hub directory with
its first neighbour and its degree; where it does not, or where an entry read is poisoned or out of order, its task fails with
ERR_TOPO_META and the entry's address, and where an entry does not translate with ERR_XLATE. -/
def Obligations.HubTagIsGranted : Prop :=
  ∀ (s : State) (h : Hub) (tag : Nat) (i : Inst) (t : Task), s.work.tagRequest = some h → s.dev.freeTag = some tag →
    let w := s.work.passTo (h.askedAt + 6)
    let w := w.count ⟨.wh, h.cluster⟩ 4 (w.dev.beat - h.askedAt)
    let w := w.setHub h.iid h.seg (fun h => { h with tag := some tag, creditAt := w.dev.beat })
    let x := w.hubListed i t h
    w.dev.inst? h.iid = some i → i.task? w.dev = some t →
    (x.1 = .ok → Runs .tagGrant s x.2)
    ∧ (∀ va : Nat, x.1 = .bad va → Runs .tagGrant s (x.2.failInst i ⟨.wh, i.cluster⟩ .topoMeta (leBytes 8 va)))
    ∧ (∀ va : Nat, x.1 = .fault va → Runs .tagGrant s (x.2.failInst i ⟨.gu, i.cluster⟩ .xlate (leBytes 8 va)))
    ∧ (∀ u ∈ s.dev.hubs, u.tag ≠ some tag) ∧ (∀ y ∈ s.dev.abortedTags, y.1 ≠ tag) ∧ tag < 256 ∧ (∀ k < tag, k ∈ s.dev.tagsUsed)

/-- SLAB_DEAL and DEAL_WAIT_EXPIRE. The next slab of 1,024 neighbours of the hub that an instance deals goes to the first
cluster in rotation after the last one that has a credit, in its lowest free lane; with no candidate at all, or when
WAIT_BEATS have passed without a credit, the owner serves it itself, one at a time. After the last slab CLOSE is sent with
the count. -/
def Obligations.SlabsAreDealt : Prop :=
  ∀ (s : State) (c k : Nat) (i : Inst) (t : Task) (h : Hub) (p : Pitch), s.work.dealer c k = some (i, t, h, p) →
    (∀ d n, s.work.rotation p h.lastCand (i.table t).slot ≠ [] → (s.work.rotation p h.lastCand (i.table t).slot).find? s.work.credit = some d →
      (List.range 8).find? (fun k => (s.dev.instIn? d (8 + k)).isNone) = some n →
      let w := (s.work.placeSlab i h d (8 + n)).setHub h.iid h.seg (fun h => { h with lastCand := p.rel d })
      Runs (.slabDeal c k) s ((if d = c then w else w.count ⟨.wh, c⟩ 1).closeIfDealt p h.iid h.seg))
    ∧ (s.work.rotation p h.lastCand (i.table t).slot = [] → (s.dev.instIn? i.cluster (16 + i.slot.getD 0)).isSome = false →
      Runs (.slabDeal c k) s (((s.work.placeSlab i h i.cluster (16 + i.slot.getD 0)).count ⟨.wh, i.cluster⟩ 2).closeIfDealt p h.iid h.seg))
    ∧ ((s.work.rotation p h.lastCand (i.table t).slot).any s.work.credit = false →
      (s.dev.instIn? i.cluster (16 + i.slot.getD 0)).isSome = false →
      let w := s.work.passTo (h.creditAt + s.work.rf ⟨.wh, c⟩ .whDeal 15 0)
      Runs (.dealWaitExpire c k) s (((w.placeSlab i h i.cluster (16 + i.slot.getD 0)).count ⟨.wh, i.cluster⟩ 2).closeIfDealt p h.iid h.seg))
    ∧ (∀ (w : Work) (d n : Nat), ∃ lane, (w.placeSlab i h d n).dev.insts = w.dev.insts ++ [lane] ∧ lane.cluster = d ∧ lane.slot = some n
        ∧ lane.lo = h.first + 1024 * h.dealt ∧ lane.hi = min (h.first + 1024 * (h.dealt + 1)) (h.first + h.degree) ∧ lane.tag = h.tag.getD 0)

/-- SLAB_PARTIAL_SEND, HUB_ENTRY_MERGE, CLOSE_ARRIVE and AGGREGATE_ARRIVE. A slab that has been served sends its aggregate and
count, its poison widened to whole granules of the body, to the die node of its cluster's die, and one that is stopped, or has
nothing, a VOID entry; its lane is then free. A node merges the first entry that comes to it, if its tag is live, into the
tag's slot: slab counts and element counts add, bodies reduce, and a VOID body adds nothing; a CLOSE with a count gives the
slot the number it waits for; a slot whose number is met is forwarded, by a die node to the root and by the root to the owner.
An aggregate that reaches its owner frees the tag, is kept under the hub's segment, and lets the instance's next hub ask for a
tag. An aborted tag only counts its slabs, and is free when all have come. -/
def Obligations.HubPartialsAreMerged : Prop :=
  ∀ (s : State),
    (∀ (c lane : Nat) (i : Inst) (t : Task), s.dev.instIn? c (8 + lane) = some i → i.task? s.dev = some t →
      (i.ended = true ∨ i.stopOrdered = true) →
      let body := if i.stopOrdered then none else i.agg.map (mapPoison false .fp32)
      let e : MergeEntry := { tag := i.tag, op := t.gather.reduce, ctx := s.dev.ctxOf i.gid, n := (i.table t).n, slabs := 1,
                              count := if i.stopOrdered then 0 else i.aggCount, body := body, abort := i.stopOrdered }
      let w := s.work.upd (fun d => { d with tree := d.tree ++ [.entry (dieOfCluster c) e] })
      let v := if body = none then w.count ⟨.wh, c⟩ 5 else w
      Runs (.slabPartialSend c lane) s ((if lane < 8 then v.count ⟨.wh, c⟩ 3 else v).dropInst i.iid))
    ∧ (∀ (node : Nat) (e : MergeEntry) (l₁ l₂ : List TreeMsg), s.dev.tree = l₁ ++ .entry node e :: l₂ →
      (∀ x ∈ l₁, ∀ f : MergeEntry, x ≠ .entry node f) →
      let w := (((s.work.upd (fun d => { d with tree := l₁ ++ l₂ })).count (chPage node) 0).count (chPage node) 5 (b2n e.body.isNone)).count
        (chPage node) 4 (ceilDiv ((e.body.map (fun l => l.length * 4)).getD 0) 256)
      let h := (s.dev.hubSlot? node e.tag).getD (emptySlot e.tag)
      (s.dev.abortedTags.any (fun x => x.1 == e.tag) = false →
        Runs (.hubEntryMerge node) s ((w.setHubSlot node { h with
          op := e.op, ctx := e.ctx, n := e.n,
          slabs := h.slabs + e.slabs, count := h.count + e.count, body := mergeBodies e.op h.body e.body }).forward node e.tag))
      ∧ (s.dev.abortedTags.any (fun x => x.1 == e.tag) = true → Runs (.hubEntryMerge node) s (w.drainTag e.tag e.slabs)))
    ∧ (∀ (node tag count mask : Nat) (l₁ l₂ : List TreeMsg), s.dev.tree = l₁ ++ .close node tag count mask :: l₂ →
      (∀ x ∈ l₁, ∀ t n m : Nat, x ≠ .close node t n m) →
      let w := s.work.upd (fun d => { d with tree := l₁ ++ l₂ })
      (count ≠ 0 → s.dev.abortedTags.any (fun x => x.1 == tag) = false → s.dev.hubs.any (fun h => h.tag == some tag) = true →
        Runs (.closeArrive node) s ((w.setHubSlot node { (w.dev.hubSlot? node tag).getD (emptySlot tag) with
          close := some count, mask := mask }).forward node tag))
      ∧ (s.dev.abortedTags.any (fun x => x.1 == tag) = true → Runs (.closeArrive node) s w.freeDrained)
      ∧ (s.dev.abortedTags.any (fun x => x.1 == tag) = false → (count = 0 ∨ s.dev.hubs.any (fun h => h.tag == some tag) = false) →
        Runs (.closeArrive node) s w))
    ∧ (∀ (tag count : Nat) (body : Option (List Elem)) (l₁ l₂ : List TreeMsg) (h : Hub), s.dev.tree = l₁ ++ .aggregate tag count body :: l₂ →
      (∀ x ∈ l₁, ∀ (t n : Nat) (b : Option (List Elem)), x ≠ .aggregate t n b) → s.dev.hubs.find? (fun h => h.tag == some tag) = some h →
      Runs .aggregateArrive s ((s.work.upd (fun d => { d with
        tree := l₁ ++ l₂, hubs := d.hubs.filter (fun x => !(x.iid == h.iid && x.seg == h.seg)),
        insts := updFirst (fun i => i.iid == h.iid) (fun i => { i with hubDone := i.hubDone ++ [(h.seg, body, count)] }) d.insts })).askTag h.iid))

/-- MCAST_ROW_SEND, MCAST_ROW_RECEIVE, MCAST_TIMEOUT and MCAST_DETACH. On a beat on which the cluster runs, with its WH and PT pages
enabled: a cluster that sends no stream begins the one of the COPY instance that has waited longest, with its receivers, once a
wake from a cell is over; the next row of a stream that has been read goes out when every attached receiver has credit, to the
receivers of this device and by packets to remote ones; while it has not been read, and the reservation and the tags have room,
the Porter reads the next one. Of a stopped stream the rows whose reads had been issued still go out, in order, without credit. A
receiver in the device writes the next row at its place in the receiving slice and returns a
credit. When a stream has waited for its timeout on receivers' credit: under HOLD the task fails with ERR_MCAST_TIMEOUT naming the
receiver that is furthest behind, and the stream stops; under DETACH every receiver that kept it waiting is detached,
ERR_MCAST_MISSED is raised in the WH page of each that is in the device, and the stream goes on. -/
def Obligations.MulticastRowsAreSentAndLand : Prop :=
  ((∀ (s : State) (c : Nat), let w := s.work.stepBeat c
        w.pageOn ⟨.wh, c⟩ = true → w.pageOn ⟨.pt, c⟩ = true → let v := w.sweepStream c
        (∀ m t row l, v.dev.stream? c = some m → v.dev.task? m.gid m.ti = some t → m.stopped = false →
          m.staged.find? (fun x => x.1 == m.sent) = some (row, l) → m.maySend t.stream.credits = true →
          Runs (.mcastRowSend c) s (v.sendRow m (some t) row l))
        ∧ (∀ m t i, v.dev.stream? c = some m → v.dev.task? m.gid m.ti = some t → v.dev.inst? m.iid = some i → m.stopped = false →
          i.stopOrdered = false → m.staged.find? (fun x => x.1 == m.sent) = none → m.read < t.stream.rows → v.dev.tags m.cluster < 2048 →
          (let used := v.dev.porterBytes m.iid + m.staged.foldl (fun a x => a + x.2.length) 0
           used = 0 ∨ used + (tableOf (t.fmt fmtTable)).rowBytes ≤ t.landing * 1024) →
          Runs (.mcastRowSend c) s (v.readStreamRow i t m))
        ∧ (∀ m row l, v.dev.stream? c = some m → m.stopped = true → (row, l) ∈ m.staged →
          (∀ x ∈ m.staged, x ≠ (row, l) → row < x.1) → Runs (.mcastRowSend c) s (v.sendRow m (v.dev.task? m.gid m.ti) row l))
        ∧ (∀ m, v.dev.stream? c = some m → m.stopped = true → m.staged = [] → Runs (.mcastRowSend c) s v)
        ∧ (∀ i t p, v.dev.stream? c = none → v.streamSender c = some (i, t, p) →
          let x := v.passTo (v.dev.wokenAt i.iid)
          let m : McStream := { iid := i.iid, gid := i.gid, ti := i.ti, cluster := c, sent := 0, ctx := x.dev.ctxOf i.gid,
                                off := t.stream.off, slotBytes := (tableOf (t.fmt fmtTable)).slot, read := 0, staged := [],
                                waitAt := x.dev.beat, recvs := x.receivers p t.stream, rows := [], ended := false, stopped := false }
          Runs (.mcastRowSend c) s ((x.upd (fun d => { d with streams := d.streams ++ [m] })).streamNext m)))
      ∧ (∀ (s : State) (c r row : Nat) (m : McStream) (x : McRecv) (l : List PByte), s.dev.stream? c = some m →
        m.recvs.find? (fun x => !x.remote && x.who == r && !x.detached) = some x → m.rows[x.landed]? = some (row, l) →
        let a := slicePhys r (m.off + row * m.slotBytes)
        let w := (((s.work.writePhys a l).count ⟨.wh, r⟩ 7).count ⟨.pt, c⟩ 2 (chargedBytes [(a, l.length)])).poisonWrote m.gid
          (poisonGranules a l)
        Runs (.mcastRowReceive c r) s (((w.setStream c (fun m => { m with
          recvs := updFirst (fun x => !x.remote && x.who == r) (fun x => { x with landed := x.landed + 1, credited := row + 1 }) m.recvs })).count
            ⟨.pt, c⟩ 4 (b2n (m.stopped && m.recvs.all (fun y => y.remote || y.detached || y.who == r || decide (x.landed < y.landed))))).sweepStream
              c)))
    ∧ (∀ (s : State) (c : Nat) (m : McStream) (t : Task) (r : McRecv) (l : List McRecv),
      (s.work.mcWaiting c false = some (m, t, r, l) → t.state.live = true →
        let w := (s.work.passTo (m.waitAt + t.stream.timeoutUs * 250)).raise ⟨.wh, c⟩ .mcastTimeout ⟨2, some m.ctx, t.stream.id, r.code, []⟩
        Runs (.mcastTimeout c) s (((w.setStream c (fun m => { m with stopped := true })).failOnly m.gid m.ti Err.mcastTimeout.code).sweepStream c))
      ∧ (s.work.mcWaiting c true = some (m, t, r, l) →
        let w := (s.work.passTo (m.waitAt + t.stream.timeoutUs * 250)).each (l.filter (fun r => !r.remote)) (fun r w =>
          w.raise ⟨.wh, r.who⟩ .mcastMissed ⟨1, some m.ctx, t.stream.id, r.code, leBytes 4 r.credited ++ leBytes 4 (t.stream.rows - 1)⟩)
        Runs (.mcastDetach c) s (((w.setStream c (fun m => { m with
          waitAt := w.dev.beat,
          recvs := m.recvs.map (fun x => if l.any (fun r => r.remote == x.remote && r.who == x.who) then { x with detached := true } else x)
            })).count ⟨.wh, c⟩ 8 l.length).sweepStream c)))

/-- MIGRATION_GO, MIGRATE, MIGRATE_ROW_LANDED and MIGRATE_ATTEMPT_TIMEOUT. An accepted GO with entries to work on and no list
running starts the list with the table read once; a table that may not be used ends it at once with ERR_TABLE_INVALID. A
migrate entry for a row that is in no directory entry, with a free entry in its bucket, claims that entry as PENDING and
makes the first attempt. A clean row that lands in time is written to its slot of the Shelf slice and its directory Deal is
issued, comparing the version read and the claim; a poisoned row is given up and its entry restored. An attempt that
outlives 65,536 beats counts as a mismatch. -/
def Obligations.RowsMigrateIntoTheShelf : Prop :=
  ∀ (s : State) (c : Nat),
    (∀ (who : Agent) (ctx table : Nat), ctx < 32 → table < s.work.rf pgEb .ebTables 30 16 ctx → table < 16384 →
      s.work.rf ⟨.sh, c⟩ .shMigCount 15 0 ≠ 0 → s.dev.mig? c = none →
      Accepted s who ⟨.sh, c⟩ .shMigCtl 0 (atBit 1 31 ||| atBit ctx 16 ||| atBit table 0) →
      Runs (.migrationGo who c ctx table) s
        ((s.work.storeRw ⟨.sh, c⟩ (regOf ⟨.sh, c⟩ .shMigCtl) 0 (atBit 1 31 ||| atBit ctx 16 ||| atBit table 0)).startList c ctx table))
    ∧ (∀ (m : Migration) (e k : Nat) (b : List Byte), s.dev.mig? c = some m → m.entryVa = none → s.work.pageOn ⟨.sh, c⟩ = true →
      let l := s.work.readVa m.ctx (m.listVa + 8 * m.done) 8 (m.reader s.work)
      let va := bucketVa m.dir (dirBuckets m.dirHdr) (fieldN e 31 0)
      let y := l.2.readBucket m.ctx va (m.reader l.2)
      let x := y.2.writeVa m.ctx (va + 16 * k)
        ((leBytes 8 (fieldN e 31 0 * 2 ^ 32)).map (·, false) ++ (leBytes 8 (wbPending c)).map (·, false)) (m.reader y.2)
      l.1 = .ok ((leBytes 8 e).map (·, false)) → e < 2 ^ 64 → entryBad m e = false → fieldN e 51 48 = 1 →
      y.1 = .ok b → matchEntry b (fieldN e 31 0) = none →
      (List.range 4).find? (fun k => match (bucketEntries b)[k]? with
        | some (_, y) => wbState y == 0
        | none => false) = some k → x.1 = .ok () →
      Runs (.migrate c) s ((x.2.setMig c (fun m => { m with
        row := fieldN e 31 0, slot := fieldN e 47 32, entryVa := some (va + 16 * k), prior := 0, attempt := 0 })).attemptMig c))
    ∧ (∀ (m : Migration) (e : Nat) (es : List CellError), s.dev.mig? c = some m → m.entryVa = some e →
      m.copying = true → s.dev.beat ≤ m.readAt + 65536 →
      let x := s.work.arrived m.ctx false [(m.T.rowVa m.row, m.T.rowBytes)] m.copy es (m.reader s.work)
      (x.1.any (·.2) = false → Runs (.migrateRowLanded c es) s
        ((((x.2.writePhys (slicePhys c (m.slot * 64)) x.1).count ⟨.sh, c⟩ 6 x.1.length).setMig c (fun m => { m with
          copying := false, copy := [] })).migDeal c 0 [⟨e, dword (m.row * 2 ^ 32 + m.version), 0, true, false, false⟩,
            ⟨e + 8, dword (wbPending c), dword (wbValid c m.slot m.version), true, false, true⟩]))
      ∧ (x.1.any (·.2) = true → Runs (.migrateRowLanded c es) s (x.2.restoreEntry m 9 false)))
    ∧ (∀ m : Migration, s.dev.mig? c = some m → m.copying = true →
      Runs (.migrateAttemptTimeout c) s
        (((s.work.passTo (m.readAt + 65536)).setMig c (fun m => { m with copying := false })).mismatch c))

/-- EVICT and TABLE_PAUSE. An evict entry for a row whose directory entry is VALID issues a Deal that writes word A and clears
word B, comparing word B with what was read; a row that is in no entry, or in one that is not VALID, is recorded as not
resident, and the list goes on. An accepted write of EB_TBL_CTL on a selected table below COUNT stores PAUSED and VERSIONED
for that table's slot and for no other, unless it would set PAUSED with VERSIONED set, or change VERSIONED while PAUSED is
set: then it is rejected with REJ_STATE and changes nothing else. -/
def Obligations.RowsAreEvictedAndTablesPaused : Prop :=
  ∀ (s : State),
    (∀ (c : Nat) (m : Migration) (e : Nat) (b : List Byte), s.dev.mig? c = some m → m.cluster = c → m.entryVa = none →
      s.work.pageOn ⟨.sh, c⟩ = true →
      let l := s.work.readVa m.ctx (m.listVa + 8 * m.done) 8 (m.reader s.work)
      let va := bucketVa m.dir (dirBuckets m.dirHdr) (fieldN e 31 0)
      let x := l.2.readBucket m.ctx va (m.reader l.2)
      l.1 = .ok ((leBytes 8 e).map (·, false)) → e < 2 ^ 64 → entryBad m e = false → fieldN e 51 48 = 2 → x.1 = .ok b →
      (∀ k a y : Nat, matchEntry b (fieldN e 31 0) = some (k, a, y) →
        (wbState y = 2 → Runs (.evict c) s
          ((x.2.setMig c (fun m => { m with row := fieldN e 31 0, prior := y, attempt := m.attempt + 1, entryVa := some (va + 16 * k) })).migDeal c 2
            [⟨va + 16 * k, 0, 0, false, false, true⟩, ⟨va + 16 * k + 8, dword y, 0, true, false, true⟩]))
        ∧ (wbState y ≠ 2 → Runs (.evict c) s (x.2.finishEntry m 8)))
      ∧ (matchEntry b (fieldN e 31 0) = none → Runs (.evict c) s (x.2.finishEntry m 8)))
    ∧ (∀ (who : Agent) (ctx : Nat) (paused versioned : Bool),
      Accepted s who pgEb .ebTblCtl ctx (atBit (b2n paused) 31 ||| atBit (b2n versioned) 30) →
      s.work.rf pgEb .ebTblSel 13 0 ctx < s.work.rf pgEb .ebTables 30 16 ctx →
      let old := look 0 (s.work.selSlot ctx) s.dev.tblCtl
      let bad := (paused = true ∧ bitOf old 31 = false ∧ (bitOf old 30 = true ∨ versioned = true))
        ∨ (bitOf old 31 = true ∧ bitOf old 30 ≠ versioned)
      (¬ bad → RunsTo (.tablePause who ctx paused versioned) s { s.dev with
        tblCtl := put 0 (s.work.selSlot ctx) (atBit (b2n paused) 31 ||| atBit (b2n versioned) 30) s.dev.tblCtl })
      ∧ (bad → RunsTo (.tablePause who ctx paused versioned) s { s.dev with
        rejs := put 0 (rejKey pgEb who)
          (atBit 1 31 ||| atBit (at_ pgEb .ebTblCtl ctx % 0x1000) 16 ||| atBit Rej.state.code 0) s.dev.rejs }))

/-- DISPATCH, TILE_WRITE and COPY_DESCRIPTOR_READ. The dispatcher of a cluster runs one step of the first resident instance in
its order that has one ready and that no STALL waiter of equal or higher PRIORITY holds back, on the first beat on which that
instance may step. A finished tile leaves the epilogue while fewer than four wait. A TRANSFORM row step whose operands have landed
advances its N-panel, and the last one ends it. A VECTOR step of an element-wise run computes its elements and writes them. A MATCH
step probes one landed chunk and counts and keeps what it finds. A group of landed rows is pooled. A step that would read poison
under STOP fails the task instead. The oldest finished tile is written into its slot and counted, or its task fails with ERR_XLATE.
The Porter reads the instance's next descriptor: a poisoned or malformed one fails the task with ERR_COPY_RANGE; of any other the
next row is read, and is on its way, or under ZERO is written. -/
def Obligations.EnginesTakeSteps : Prop :=
  ∀ (s : State) (c : Nat),
    (∀ (i : Inst) (t : Task), let v := (s.work.startDue c).noteStarving c
      let y := (v.passTo (v.dev.wokenAt i.iid)).stepBeat c
      (v.dev.dispatchOrder c).find? (fun i => (v.instStep i).isSome && !v.heldByStall i) = some i → i.task? y.dev = some t →
      i.cluster = c →
      (∀ (o : TileOut) (rest : List TileOut), i.outTiles = o :: rest → (y.cluster c).tiles.length < 4 →
        Runs (.dispatch c) s ((y.setCluster c (fun cl => { cl with tiles := cl.tiles ++ [o] })).setInst i.iid (fun i => { i with outTiles := rest })))
      ∧ (i.outTiles = [] → i.stopOrdered = false → i.voided = false → (i.started = true ∨ i.isLane = true) → i.ended = false →
        (∀ st : TStep, t.kind = some .transform → y.pageOn ⟨.ta, c⟩ = true → i.tstep t.xform = some st → i.tready t.xform st = true →
          (i.merge && st.np == 0) = false ∨ y.matcherFree i = true →
          (∀ va : Nat, i.stopPolicy = true → i.tpoison t t.xform st = some va → Runs (.dispatch c) s (y.poisonStop i t va))
          ∧ ((i.stopPolicy = false ∨ i.tpoison t t.xform st = none) →
            let z := if st.np = 0 ∧ i.sub = 0 then y.seed else (i.hseed, y)
            let u := ((z.2.setInst i.iid (fun i => { i with hseed := z.1, sub := i.sub + 1 })).whenB (i.merge && st.np == 0)
              (fun w => w.holdMatcher i true))
            let u := u.whenB i.merge (fun w => w.setCluster c (fun cl => { cl with mergeAt := w.dev.beat }))
            (st.last = false → Runs (.dispatch c) s u)
            ∧ (∀ j : Inst, st.last = true → u.dev.inst? i.iid = some j → Runs (.dispatch c) s (u.panelEnd j t st))))
        ∧ (t.kind = some .vector → y.pageOn ⟨.ve, c⟩ = true → i.pos < t.ops → (t.f 80 8 = 0 ∨ (i.got sScal 0).isSome = true) →
          let b := t.vop i.pos
          let n := i.winCount
          let len := i.runLength b n
          opSegmented (byteAt b 0) = false → vopDyn b = false → vopWhole b = false → i.nanFault = false →
          len ≤ opCount b 0 → len ≠ 0 → i.stepReady t i.pos n len i.sub = true →
          let e0 := i.sub * vopLanes b
          let e1 := min len (e0 + vopLanes b)
          (i.stopPolicy = false ∨ (i.srcPoison t i.pos n len e0 e1 = none ∧ i.dstPoison t i.pos n len e0 e1 = none)) →
          let cut (l : List Elem) : List Elem := (l.drop e0).take (e1 - e0)
          let q := i.operand t i.pos 1 n len
          let r := elemStep b (cut (i.operand t i.pos 0 n len)) ((List.range (e1 - e0)).map (fun k => q.getD ((e0 + k) / opGroup b) ⟨.zero, false⟩))
            (cut (if readsD b then i.operand t i.pos 2 n len else []))
          let u := ((y.veStep i (vopLanes b) len (e1 - e0)).count ⟨.ve, c⟩ 4 r.2).writeRun i t i.pos n e0 len r.1
          Runs (.dispatch c) s (if e1 = len then u.runDone i t (i.runs b) (n + 1) else u.setInst i.iid (fun i => { i with sub := i.sub + 1 })))
        ∧ (∀ (e p n z : Nat) (l : List PByte), t.kind = some .matchT → y.pageOn ⟨.sp, c⟩ = true →
          y.matcherFree i = true → i.lo + i.pos < i.hi → (i.matchIds t).map (fun x => x.any (fun q => q.2.isNone)) = some false →
          i.matchLists t = some (e, some p) → i.building = false → i.chunkKeys ≠ [] → i.probe = 0 → i.part = some (n, z) → n < z →
          i.got sNeigh (nItem p n) = some l → i.stopPolicy = false → y.dev.inst? i.iid = some i →
          let found := intersect (chunkIds l) i.chunkKeys
          let u := y.setInst i.iid (fun i => { i.took p n with
            part := some (n + (chunkIds l).length, z), prev := (chunkIds l).getLast?, hits := i.hits + found.length,
            common := (i.common ++ found).take (t.f 98 2) })
          Runs (.dispatch c) s (((u.count ⟨.sp, c⟩ 12 (chunkIds l).length).count ⟨.sp, c⟩ 13 found.length).holdMatcher i true))
        ∧ (∀ (os : List Occ) (last : Bool), t.kind = some .gather ∨ t.kind = some .embedBag → y.pageOn ⟨.ve, c⟩ = true →
          t.gather.scatter = none → (i.isLane = true ∨ i.hubReady t y.self = none) → i.poolNext t y.self = .group os last →
          Runs (.dispatch c) s (y.poolGroup i t os last))))
    ∧ (∀ (o : TileOut) (rest : List TileOut), (s.work.cluster c).tiles = o :: rest →
      let x := (s.work.setCluster c (fun cl => { cl with tiles := rest })).writeVa o.ctx o.va o.data ⟨some o.ctx, s.dev.codeOf o.gid o.ti, c⟩
      (x.1 = .ok () → Runs (.tileWrite c) s ((((x.2.poisonWrote o.gid (poisonGranules o.va o.data)).count ⟨.sp, c⟩
        (if o.dense then 1 else 0)).count ⟨.sp, c⟩ 2 o.data.length).count ⟨.ta, c⟩ 8 (b2n o.approx)))
      ∧ (∀ e : Nat, x.1 = .error e → Runs (.tileWrite c) s (x.2.failTask o.gid o.ti ⟨.ta, c⟩ .xlate c (leBytes 8 e))))
    ∧ (∀ (k : Nat) (i : Inst) (t : Task), let w := s.work.stepBeat c
      w.dev.instIn? c k = some i → i.task? w.dev = some t → t.kind = some .copy → t.f 72 1 = 0 → i.started = true →
      i.stopOrdered = false → i.ended = false → w.pageOn ⟨.pt, c⟩ = true → i.lo + i.pos < i.hi →
      let v := w.passTo (w.dev.wokenAt i.iid)
      let x := v.readVa (v.dev.ctxOf i.gid) (t.f 64 8 + 32 * (i.lo + i.pos)) 32 (i.reader v.dev)
      (i.desc ≠ [] → Runs (.copyDescriptorRead c k) s (v.copyNext i t))
      ∧ (∀ b : List PByte, i.desc = [] → x.1 = .ok b →
        let u := x.2.poisonRead i.gid (poisonGranules (t.f 64 8 + 32 * (i.lo + i.pos)) b)
        ((b.any (·.2) || copyBad b) = true →
          Runs (.copyDescriptorRead c k) s (u.failInst i ⟨.pt, c⟩ .copyRange (leBytes 8 (t.f 64 8 + 32 * (i.lo + i.pos)))))
        ∧ ((b.any (·.2) || copyBad b) = false →
          Runs (.copyDescriptorRead c k) s ((u.setInst i.iid (fun i => { i with desc := b, row := 0, off := 0 })).copyNext
            { i with desc := b, row := 0, off := 0 } t))))
    ∧ (∀ (w : Work) (i : Inst) (t : Task), (copyOf i.desc).zero = false → i.row = 0 → i.off = 0 → w.dev.tags i.cluster < 2048 →
      (copyOf i.desc).rows = 1 → (copyOf i.desc).len ≤ t.landing * 1024 → w.dev.porterBytes i.iid = 0 →
      let d := copyOf i.desc
      let x := w.readVa (w.dev.ctxOf i.gid) d.src d.len (i.reader w.dev)
      ∀ l : List PByte, x.1 = .ok l → ∃ f : Fetch, (w.copyNext i t).dev.fetches = x.2.dev.fetches ++ [f] ∧ f.copy = l
        ∧ f.pieces = [(d.src, d.len)] ∧ f.dest = .copy i.pos 0 d.dst true true ∧ f.iid = i.iid ∧ f.unit = 2)

/-- OP_ADD, OP_TAKE, OP_INIT, OP_READ, OP_WAIT and OP_UNWAIT on an object of this device. Accepted by the slot's own writer,
with no operation busy in the slot, on an object whose ID translates to an entry of this device: ADD and TAKE apply their
count to the entry, wake the waits whose target is reached, and end DONE with the entry's value, or end with the error they
raise; INIT of an object on which nobody waits writes a legal configuration; READ copies the entry; WAIT registers the slot
as a waiter on its argument; UNWAIT removes its wait. An object whose ID does not translate, or that is not in use, ends every
operation but INIT with ERR_SYNC_XLATE. On an object of another device ADD and TAKE leave as a signal, UNWAIT removes the slot's wait,
and the others are rejected with REJ_RANGE. The operation completes with the write. -/
def Obligations.SlotOperationsOnObjects : Prop :=
  ∀ (s : State) (who : Agent) (k op : Nat) (fence own : Bool) (p : Nat) (c : Instr),
    (op, c) ∈ [(1, Instr.opAdd who k fence), (2, .opTake who k fence), (3, .opInit who k), (4, .opRead who k), (5, .opWait who k),
      (6, .opUnwait who k)] →
    Accepted s who pgSy .syOpCtl k (atBit (b2n (fence && decide (op ≤ 2))) 4 ||| atBit op 0) →
    let obj := s.work.reg pgSy .syOpObj k
    let ctx := if k < 32 then k else fld obj 28 24
    isCellId (fld obj 19 0) = false → (op ≤ 2 → fld (s.work.reg pgSy .syOpArg k) 15 0 ≠ 0) → (s.work.sySlot k).busy = false →
    let y := (if op = 5 then s.work else s.work.setSySlot k (fun x => { x with
      thread := if x.waiting then x.thread else Agent.thread who })).object ctx (fld obj 19 0)
    let w := y.2
    (y.1 = .here p own →
      let e := w.syEnt p
      let arg := w.reg pgSy .syOpArg k
      (op = 1 → e.kind ≠ 0 → Runs c s ((w.applyRes p ctx (fld obj 19 0) (codeSlot k) (e.add (fld arg 15 0))).syDone k p (e.add (fld arg 15 0))))
      ∧ (op = 2 → e.kind ≠ 0 → Runs c s ((w.applyRes p ctx (fld obj 19 0) (codeSlot k) (e.take (fld arg 15 0))).syDone k p (e.take (fld arg 15 0))))
      ∧ (op = 3 → w.dev.sync.waits.any (fun x => x.phys == p) = false →
          initOk (w.reg pgSy .syOpInit k) (w.reg pgSy .syOpMask k) arg = true →
          let n : SyEnt := ⟨arg, if fld (w.reg pgSy .syOpInit k) 31 30 = 1 ∧ bitOf (w.reg pgSy .syOpInit k) 29 = true then arg else 0,
            w.reg pgSy .syOpInit k, w.reg pgSy .syOpMask k⟩
          Runs c s (((w.setEnt p n).count pgSy 0).syEnd k 1 0 (some n)))
      ∧ (op = 4 → e.kind ≠ 0 →
          Runs c s (((w.count pgSy 0).syEnd k 1 0 (some e)).setSySlot k (fun x => { x with aux := e.aux })))
      ∧ (op = 5 → e.kind ≠ 0 → serialDiff arg.toNat e.value.toNat ≤ e.reachLimit →
          Runs c s ((((w.syUnwait k).setSySlot k (fun x => { x with
            waiting := true, outcome := 1, code := 0, value := e.value, thread := Agent.thread who })).registerWait
            p ctx (fld obj 19 0) arg (.slot k)).2))
      ∧ (op = 6 → e.kind ≠ 0 → Runs c s ((w.syUnwait k).syEnd k 1 0 none))
      ∧ (e.kind = 0 → op ≠ 3 → Runs c s ((w.raise pgSy .syncXlate ⟨1, some ctx, fld obj 19 0, codeSlot k, []⟩).syEnd
          k 2 Err.syncXlate.code none)))
    ∧ (y.1 = .bad → Runs c s ((w.raise pgSy .syncXlate ⟨1, some ctx, fld obj 19 0, codeSlot k, []⟩).syEnd k 2 Err.syncXlate.code none))
    ∧ (∀ d rctx rid : Nat, y.1 = .remote d rctx rid →
      (op = 6 → Runs c s ((w.syUnwait k).syEnd k 1 0 none))
      ∧ (op ∈ [3, 4, 5] → Runs c s (w.syEnd k 4 Rej.range.code none))
      ∧ (op ≤ 2 → (∀ q : Nat, w.reach d none = .ok q →
          Runs c s ((w.sendSignal q rctx d rid op (fld (w.reg pgSy .syOpArg k) 15 0) fence []).syEnd k 1 0 none))
        ∧ (∀ e : Nat, w.reach d none = .error e → Runs c s (w.syEnd k 2 Err.linkLost.code none))))

/-- What ADD and TAKE do to a Tally, a Bell and a masked Bell. A Tally's VALUE gains n modulo 2^32, unless it is a ring and
would then lead AUX by more than its limit; a ring's TAKE advances AUX by n, unless VALUE does not lead it by n; a Bell
counts n toward its limit, rings exactly at the limit, raising VALUE by one and clearing the count, and overruns beyond it;
a masked Bell sets bit n - 1, once each, and rings when all its bits are set, and overruns on a bit that it does not take or has. TAKE
of anything but a ring is rejected. An operation that gives an error changes no entry. -/
def Obligations.ObjectArithmetic : Prop :=
  ∀ (e : SyEnt) (n : Nat),
    (e.kind = 1 → e.ring = false → e.add n = .ok { e with value := e.value + BitVec.ofNat 32 n } false)
    ∧ (e.kind = 1 → e.ring = true →
        (serialDiff (e.value + BitVec.ofNat 32 n).toNat e.aux.toNat ≤ e.limit → e.add n = .ok { e with value := e.value + BitVec.ofNat 32 n } false)
        ∧ ((e.limit : Int) < serialDiff (e.value + BitVec.ofNat 32 n).toNat e.aux.toNat → e.add n = .err .tallyOverrun)
        ∧ (n ≤ serialDiff e.value.toNat e.aux.toNat → e.take n = .ok { e with aux := e.aux + BitVec.ofNat 32 n } false)
        ∧ (serialDiff e.value.toNat e.aux.toNat < n → e.take n = .err .tallyUnderrun))
    ∧ (e.kind = 2 →
        (fld e.aux 15 0 + n < e.limit → e.add n = .ok { e with aux := atBit (fld e.aux 15 0 + n) 0 } false)
        ∧ (fld e.aux 15 0 + n = e.limit → e.add n = .ok { e with value := e.value + 1, aux := 0 } true)
        ∧ (e.limit < fld e.aux 15 0 + n → e.add n = .err .bellOverrun))
    ∧ (e.kind = 3 → 1 ≤ n → n ≤ 32 → bitOf e.mask (n - 1) = true → bitOf e.aux (n - 1) = false →
        (e.aux ||| atBit 1 (n - 1) = e.mask → e.add n = .ok { e with value := e.value + 1, aux := 0 } true)
        ∧ (e.aux ||| atBit 1 (n - 1) ≠ e.mask → e.add n = .ok { e with aux := e.aux ||| atBit 1 (n - 1) } false))
    ∧ (e.kind = 3 → n = 0 ∨ 32 < n ∨ bitOf e.mask (n - 1) = false ∨ bitOf e.aux (n - 1) = true → e.add n = .err .bellOverrun)
    ∧ (e.kind ≠ 0 → e.kind ≠ 1 ∨ e.ring = false → e.take n = .rej .range)
    ∧ (∀ (w : Work) (p ctx id sender : Nat) (x : Err), (w.applyRes p ctx id sender (.err x)).dev.sync.store = w.dev.sync.store)

/-- TASK_WAIT_REGISTER and TASK_SIGNAL. A WAITING task that waits on an object registers its wait once its other conditions
hold: on an entry of this device that is in use, the task becomes a waiter with the target it names, satisfied at once if
the target is reached; on an ID that does not translate to one, ERR_SYNC_XLATE is raised and the task fails. A task's signal
reaches the store on its due beat and adds its count to the object, waking the waits it reaches; a signal of an object of another device
leaves for it, fenced. -/
def Obligations.TasksWaitAndSignal : Prop :=
  ∀ (s : State) (r : TaskRef),
    (∀ (g : Graph) (t : Task), s.dev.graph? r.gid = some g → g.task? r.task = some t → t.state = .waiting → t.waitsObject = true → t.waitRegistered = false → t.waitMet = false → s.dev.edgesMet g r.task = true →
      let x := s.work.object g.ctx t.waitObj
      let refused := (x.2.raise pgSy .syncXlate ⟨2, some g.ctx, t.waitObj, s.dev.codeOf r.gid r.task, []⟩).failOnly r.gid r.task Err.syncXlate.code
      (∀ (p : Nat) (own : Bool), x.1 = .here p own →
        ((x.2.syEnt p).kind ≠ 0 → Runs (.taskWaitRegister r) s
          ((x.2.setTask r.gid r.task (fun t => { t with waitRegistered := true, waitPhys := p })).registerWait p g.ctx t.waitObj
            (BitVec.ofNat 32 t.waitValue) (.task r.gid r.task)).2)
        ∧ ((x.2.syEnt p).kind = 0 → Runs (.taskWaitRegister r) s refused))
      ∧ ((∀ (p : Nat) (own : Bool), x.1 ≠ .here p own) → Runs (.taskWaitRegister r) s refused))
    ∧ (∀ (t : Task) (b : Nat), s.dev.anyTask? r.gid r.task = some t → t.signalDue = some b →
      let ctx := s.dev.ctxOf r.gid
      let code := s.dev.codeOf r.gid r.task
      let x := ((s.work.passTo b).setTask r.gid r.task (fun t => { t with signalDue := none })).object ctx t.signalObj
      (∀ (p : Nat) (own : Bool), x.1 = .here p own →
        Runs (.taskSignal r) s (x.2.applyRes p ctx t.signalObj code ((x.2.syEnt p).add t.signalAdd)))
      ∧ (x.1 = .bad → Runs (.taskSignal r) s (x.2.raise pgSy .syncXlate ⟨1, some ctx, t.signalObj, code, []⟩))
      ∧ (∀ d rctx rid : Nat, x.1 = .remote d rctx rid →
        (∀ p : Nat, x.2.reach d none = .ok p → Runs (.taskSignal r) s (x.2.sendSignal p rctx d rid 1 t.signalAdd true []))
        ∧ (∀ n : Nat, x.2.reach d none = .error n →
          Runs (.taskSignal r) s (x.2.raise pgEx .linkLost ⟨2, some ctx, code, codeNone, leBytes 1 n⟩))))

/-- SY_CELL_ADD and CELL_ADD_LAND. An accepted SY_CELL_ADD in a cluster of a pitch whose owner is not saved adds n to the cell
at once; a completing instance's add lands on its due beat, the earliest first, and is dropped where the cluster lies in no
pitch. An add counts, and satisfies the waits on the cell that its value reaches: their instances may step two beats later,
or one under STALL. -/
def Obligations.CellsAreAddedTo : Prop :=
  ∀ (s : State),
    (∀ (who : Agent) (c k n : Nat), k ≤ 47 → 0 < n → n < 65536 → s.work.cellsShut c = false →
      Accepted s who ⟨.sy, c⟩ .syCellAdd 0 (atBit k 16 ||| atBit n 0) →
      Runs (.syCellAdd who c k n) s
        (((s.work.setReg ⟨.sy, c⟩ .syCell (s.work.reg ⟨.sy, c⟩ .syCell k + BitVec.ofNat 32 n) k).count ⟨.sy, c⟩ 0).testCell c k))
    ∧ (∀ (l₁ l₂ : List CellAdd) (a : CellAdd), s.dev.sync.adds = l₁ ++ a :: l₂ → (∀ x ∈ l₁, a.due < x.due) → (∀ x ∈ l₂, a.due ≤ x.due) →
      let w := (s.work.passTo a.due).updSync (fun y => { y with adds := l₁ ++ l₂ })
      ((w.pitchAt a.cluster).isSome = true → Runs .cellAddLand s (w.cellAdd a.cluster a.cell a.n))
      ∧ ((w.pitchAt a.cluster).isNone = true → Runs .cellAddLand s w))
    ∧ (∀ (w : Work) (c k : Nat),
      let due (x : CellWait) : Prop := x.cluster = c ∧ x.cell = k ∧ x.wakeAt = none ∧ x.never = false
        ∧ 0 ≤ serialDiff (w.reg ⟨.sy, c⟩ .syCell k).toNat x.target.toNat
      ((∀ x ∈ w.dev.sync.cellWaits, ¬ due x) → w.testCell c k = w)
      ∧ (∀ x : CellWait, w.dev.sync.cellWaits = [x] → due x →
        (∀ (i : Inst) (t : Task), w.dev.inst? x.iid = some i → i.task? w.dev = some t → t.kind ≠ some .embedBag) →
        (w.testCell c k).dev.sync.cellWaits = [{ x with wakeAt := some (w.dev.beat + if w.cellWs c k / 128 = 1 then 1 else 2) }]))

/-- SYNC_TIMEOUT, WATCHDOG_TICK, PARK_TIMEOUT and PARKED_SIGNAL_RELEASE. Without the watchdog, the earliest timeout of a wait
that has not been reported comes on the first 1 µs tick late enough, and every wait that is then over time is counted and
reported with ERR_SYNC_TIMEOUT, and stays registered. Under the watchdog each tick reports the waits that were marked at the
tick before and marks the others. The signal parked longest in a port is discarded with ERR_SIGNAL_PARK_TIMEOUT when
SY_PARK_TO has passed; a parked signal whose fence is met reaches the store first. -/
def Obligations.WaitsAreReported : Prop :=
  ∀ (s : State),
    (s.work.rb pgSy .syCfg 31 = false →
      let dues := s.dev.sync.waits.filterMap (fun x => x.dueAt s.work) ++ s.dev.sync.cellWaits.filterMap (fun x => x.dueAt s.work)
      ∀ t ∈ dues, (∀ u ∈ dues, t ≤ u) →
        let w := s.work.passToTime t
        let past (o : Option Nat) : Bool := o.any (fun u => decide (u ≤ w.dev.time))
        Runs .syncTimeout s ((w.each (w.dev.sync.waits.filter (fun x => past (x.dueAt w))) (fun x w => w.reportWait x)).each
          (w.dev.sync.cellWaits.filter (fun x => past (x.dueAt w))) (fun x w => w.reportCell x)))
    ∧ (s.work.rb pgSy .syCfg 31 = true → s.work.rf pgSy .syCfg 15 0 ≠ 0 →
      let P := s.work.rf pgSy .syCfg 15 0 * 1000
      let t := max P (roundUp (max s.dev.time (s.dev.crier.lastWatch + 1)) P)
      let w := (s.work.passToTime t).upd (fun d => { d with crier := { d.crier with lastWatch := t } })
      let v := (w.each (w.dev.sync.waits.filter (fun x => x.marked && !x.reported)) (fun x w => w.reportWait x)).each
        (w.dev.sync.cellWaits.filter (fun x => x.marked && !x.reported && x.wakeAt.isNone)) (fun x w => w.reportCell x)
      Runs .watchdogTick s (v.updSync (fun y => { y with
        waits := y.waits.map (fun x => { x with marked := true }), cellWaits := y.cellWaits.map (fun x => { x with marked := true }) })))
    ∧ (∀ (port : Nat) (p : Parked), s.dev.sync.parked.find? (fun p => p.port == port) = some p →
      Runs (.parkTimeout port) s ((s.work.passTo (p.since + s.work.rf pgSy .syParkTo 15 0 * 250)).discardParked p .signalParkTimeout))
    ∧ (∀ (port : Nat) (p : Parked), s.work.releasable port = some p →
      Runs (.parkedSignalRelease port) s
        (((s.work.updSync (fun y => { y with parked := dropOne p y.parked })).returnCredit p.port).applySignal p))

/-- CRIER_TICK, EPOCH_BOUNDARY, EPOCH_OUT_PULSE and TIME_XFER_SEND. While the time base counts, each periodic event passes time
to the value it is due on and then happens. A tick moves the next one 1,000 ns on. A boundary raises CR_EPOCH_NUM, closes
the epoch that ended for every hot entry, takes the length written, interrupts every control core with source 1 and pulses
the TRIG_OUT outputs of SOURCE 4. EPOCH_OUT rises on a multiple of the epoch period in effect, for 100 ns. A time exchange
leaves every port that is up and keeps time with its partner, one transfer period after the last. -/
def Obligations.TimeEventsComeWhenDue : Prop :=
  ∀ s : State,
    (s.dev.counting = true →
      (let w := s.work.passToTime s.dev.crier.nextTick;
        Runs .crierTick s (w.crier (fun c => { c with tickNo := c.tickNo + 1, nextTick := c.nextTick + 1000 })))
      ∧ (s.work.rb pgCr .crCfg 4 = true →
        let w := s.work.freeExpected
        let p := w.dev.crier.period
        Runs .epochOutPulse s ((w.passToTime (ceilDiv w.dev.time p * p)).pulse 0))
      ∧ (let w := s.work.passToTime s.dev.crier.nextEpoch;
        let n := w.reg pgCr .crEpochNum
        let len := ((w.setReg pgCr .crEpochNum (n + 1)).reg pgCr .crEpochLen).toNat
        let next := (w.dev.crier.nextEpoch / len + 1) * len
        let v := (w.setReg pgCr .crEpochNum (n + 1)).upd (fun d => { d with
          closedEpoch := some n
          crier := { d.crier with epochLen := len, nextEpoch := next }
          insts := d.insts.map (fun i => i.closeEpoch (((i.task? w.dev).map (fun t => t.gather.noCoalesce)).getD false)) })
        Runs .epochBoundary s ((v.each (List.range 8) (fun c w => w.coreInt c 1)).pulseSource 4)))
    ∧ (let w := s.work.passTo (s.dev.crier.lastXfer + s.work.rf pgCr .crXfer 15 0);
      Runs .timeXferSend s ((w.crier (fun c => { c with lastXfer := w.dev.beat })).each (List.range 16) (fun p w =>
        if w.portUp p ∧ (w.port p).keepsTime then
          (w.crier (fun c => { c with echo := put 0 p (w.dev.time % 2 ^ 40 + 1) c.echo })).sendTime p false 0 0
        else w)))

/-- LOAD_ARM, TIME_LOAD, EPOCH_EDGE, EPOCH_MISSED and REFCLK_LOST. An accepted ARM arms a load that is not armed. Under FREE the
load takes CR_LOAD on the next beat; under RACK on the first beat at or after the edge plus COMP_NS, and the edge that comes
while a load is armed is kept for it. A good edge gives the offset against the nearest multiple of the period, steps the time base by one beat when the offset is 4 ns or more, and
clears the missed run; an edge outside the window only counts. A missed epoch is counted; the first in a row raises
ERR_EPOCH_MISSED, and the second sets TIME_UNLOCKED and raises ERR_TIME_UNLOCKED. Losing RACK_REF clears REF_LOCK and sets TIME_UNLOCKED, once. -/
def Obligations.TimeBaseIsLoadedAndSteered : Prop :=
  ∀ s : State,
    (∀ who : Agent, Accepted s who pgCr .crLoadCtl 0 1 → s.dev.crier.armed = false → Runs (.loadArm who) s s.work.armLoad)
    ∧ (s.dev.counting = true → s.dev.crier.armed = true →
      (s.work.source = 0 → Runs .timeLoad s ((s.work.pass 1).loadTime s.work.loadValue))
      ∧ (∀ e : Nat, s.work.source = 1 → s.dev.crier.loadEdge = some e →
        let w := s.work.passToTime (roundUp (e + s.work.rf pgCr .crLock 23 16) 4)
        Runs .timeLoad s (w.loadTime s.work.loadValue)))
    ∧ (∀ tick : Nat, s.dev.counting = true → s.work.source = 1 → (s.dev.power.inputs.getD 0 .reset).lastEdge = some tick →
      s.dev.crier.judged ≠ some tick → s.dev.crier.armed = true →
      Runs (.epochEdge tick) s ((s.work.crier (fun c => { c with judged := some tick })).crier (fun c => { c with loadEdge := some tick })))
    ∧ (∀ tick : Nat, s.dev.counting = true → s.work.source = 1 → (s.dev.power.inputs.getD 0 .reset).lastEdge = some tick →
      s.dev.crier.judged ≠ some tick → s.dev.crier.armed = false →
      let w := s.work.crier (fun c => { c with judged := some tick })
      let p := s.dev.crier.period
      let at_ := tick + s.work.rf pgCr .crLock 23 16
      let k := (2 * at_ + p) / (2 * p) * p
      let offset : Int := (at_ : Int) - k
      ((s.work.rf pgCr .crLock 31 24 : Int) < offset.natAbs → Runs (.epochEdge tick) s (w.count pgCr 6))
      ∧ (offset.natAbs ≤ s.work.rf pgCr .crLock 31 24 →
        let v := (w.setRf pgCr .crStatus 15 0 (sat16 offset)).whenB (decide (4 ≤ offset.natAbs)) (fun w => w.steer (decide (offset < 0)))
        let x := ((v.crier (fun c => { c with goodRun := c.goodRun + 1, missedRun := 0 })).setRf pgCr .crStatus 27 24 0).setRf pgCr .crStatus 29 29 0
        Runs (.epochEdge tick) s (x.whenB (decide (s.dev.crier.expected ≤ k)) (fun w => w.nextExpected k)).tryLock))
    ∧ (s.dev.counting = true → s.work.source = 1 →
      let w := s.work.passToTime (s.dev.crier.expected + s.work.rf pgCr .crLock 31 24)
      let n := w.dev.crier.missedRun + 1
      let v := (((w.crier (fun c => { c with missedRun := n, goodRun := 0 })).setRf pgCr .crStatus 27 24 (min n 15)).setRf pgCr
        .crStatus 29 29 1).count pgCr 7
      let x := (v.whenB (decide (n = 1)) (fun w => w.raise pgCr .epochMissed ⟨1, none, codeNone, codeNone, []⟩)).whenB
        (decide (2 ≤ n)) (fun w => w.setRf pgCr .crStatus 28 28 1)
      Runs .epochMissed s ((x.whenB (decide (n = 2)) (fun w => w.raise pgCr .timeUnlocked ⟨1, none, codeNone, codeNone, []⟩)).nextExpected 0))
    ∧ (s.dev.crier.refLost = false →
      Runs .refclkLost s ((((s.work.crier (fun c => { c with refLost := true })).setRf pgCr .crStatus 30 30 0).setRf pgCr .crStatus 28 28 1).raise
        pgCr .refclkLost ⟨1, none, codeNone, codeNone, []⟩))

/-- LAUNCH_ENTRY_TAKE, LAUNCH and BALLAST_STEP. A RELEASED timed task that is no SIGNAL takes one of the 512 launch entries, and
its order arrives 16 beats later. On the launch beat, a task that may not be late fails with ERR_TIME_UNLOCKED under a source
that is not FREE and is not locked, and with ERR_LAUNCH_LATE while an instance lacks its slot or its order; otherwise the
launch is recorded, with outcome 1, or 2 where some of its instances are late, those are marked late, its ballast is dropped,
and its instances start. Ballast steps come one at a time, the earliest first: up from 256 beats before a launch to 16 before
it, at most 16 times; down, for a launch that needs it no more. -/
def Obligations.LaunchesKeepTheirBeat : Prop :=
  ∀ (s : State),
    (∀ (r : TaskRef) (t : Task), s.dev.task? r.gid r.task = some t → t.state = .released → t.timed = true →
      (t.launchTaken = false → t.kind ≠ some .signal → s.dev.launchEntries < 512 →
        Runs (.launchEntryTake r) s ((s.work.setTask r.gid r.task (fun t => { t with launchTaken := true, orderAt := s.dev.beat + 16 })).say
          (.launchOrder r.gid r.task)))
      ∧ (t.inLaunch = true →
        let w := s.work.passToTime t.launchTime
        let f := w.flatten t.launchTime
        let all := w.dev.instsOf r.gid r.task
        let bad := all.filter (fun i => i.slot.isNone || !decide (t.orderAt ≤ w.dev.beat))
        let v := w.whenB (decide (f.span ≠ 0) || f.ballast) (fun w =>
          w.whenB (!(w.dev.launchesAt t.launchTime).any (fun (_, _, u) => u.launched)) (fun w => w.count pgPm 3))
        let unlocked : Bool := v.unlocked && decide (v.source ≠ 0)
        (unlocked = true → t.lateFail = true →
          Runs (.launch r) s (v.launchFails r t.launchTime .timeUnlocked f bad.length codeNone))
        ∧ (unlocked = false → t.lateFail = true → bad ≠ [] →
          Runs (.launch r) s (v.launchFails r t.launchTime .launchLate f bad.length
            ((bad.head?.map (fun i => codeInst 0 i.cluster)).getD codeNone)))
        ∧ (t.lateFail = false ∨ unlocked = false ∧ bad = [] →
          let x := ((v.whenB unlocked (fun w => w.count pgCr 8)).recordLaunch t.launchTime (if bad = [] then 1 else 2) f bad.length).count pgCr 0
          let y := (x.whenB (decide (f.span ≠ 0)) (fun w => w.count pgCr 3)).crier (fun c => { c with
            ballasts := c.ballasts.filter (fun b => b.time != t.launchTime) })
          let z := y.each bad (fun i w => w.setInst i.iid (fun i => { i with late := true }))
          Runs (.launch r) s ((z.setTask r.gid r.task (fun u => { u with
            launched := true, launchBeat := z.dev.beat, span := f.span
            state := if u.kind = some .collective then .active else u.state })).startTask r.gid r.task))))
    ∧ (∀ (up : Bool) (l₁ l₂ : List (Nat × Ballast)) (b : Nat) (x : Ballast), s.work.ballastSteps up = l₁ ++ (b, x) :: l₂ →
      (∀ y ∈ l₁, b < y.1) → (∀ y ∈ l₂, b ≤ y.1) →
      Runs (.ballastStep up) s ((s.work.passTo b).crier (fun c => { c with
        ballasts := c.ballasts.filter (fun y => y.time != x.time) ++ (if x.downs < 16 then [x] else []) })))
    ∧ (∀ (b : Nat) (x : Ballast), (b, x) ∈ s.work.ballastSteps true →
      let l := s.dev.beat + s.work.beatsTo x.time
      x.ups ≤ 16 ∧ b + 16 ≤ l ∧ l ≤ b + 256 ∧ s.dev.beat ≤ b ∧ x.due = b + 16 ∧ x.time ∈ s.work.ballastTimes)
    ∧ (∀ (b : Nat) (x : Ballast), (b, x) ∈ s.work.ballastSteps false →
      s.dev.beat ≤ b ∧ x.due = b + 16 ∧ x.time ∉ s.work.ballastTimes
      ∧ ∃ y ∈ s.dev.crier.ballasts, y.time = x.time ∧ y.ups = x.ups ∧ x.downs = y.downs + 1)

/-- SCRUB and MEM_FAILED. The scrubber of a stack or channel that exists, is enabled and has not failed counts the granule it
reads; a clean one changes no memory; a corrected one is counted as such; an uncorrectable one raises ERR_MEM_UE and is
rewritten as poison, its cells good again. A unit that fails in service reports it in its status and raises ERR_MEM_FAILED,
once; the 256th uncorrectable granule that it sees within one second makes it fail. -/
def Obligations.MemoryIsScrubbedAndFails : Prop :=
  ∀ (s : State) (block : Bool) (unit : Nat), s.work.hasMem block unit = true → s.work.memFailed (memPage block unit) = false →
    (∀ offset : Nat, s.work.rb (memPage block unit) .hmScrub 31 = true →
      offset < (s.work.reg (memPage block unit) .hmCap).toNat * 4096 →
      let w := s.work.count (memPage block unit) 3
      let g := s.work.unitKey block unit offset / 64
      (w.deadAt g = false → RunsTo (.scrub block unit offset none) s w.dev)
      ∧ (∀ k, w.deadAt g = false → Runs (.scrub block unit offset (some (.corrected k))) s (w.correctedError (memPage block unit)))
      ∧ (∀ e, w.deadAt g = true ∨ (∃ k, e = some (.uncorrectable k)) → Runs (.scrub block unit offset e) s
          ((w.raiseUe (memPage block unit) (s.work.unitKey block unit offset) {}).emit [.dead g false, .poison false g true])))
    ∧ Runs (.memFailed block unit) s (((s.work.setRf (memPage block unit) .hmStat 28 28 1).upd (fun d =>
        { d with broken := d.broken ++ [memPage block unit] })).raise (memPage block unit) .memFailed ⟨3, none, codeNone, codeNone, []⟩)
    ∧ (∀ w : Work,
      let l := w.dev.recentUe (memPage block unit)
      let v := w.upd (fun d => { d with ueBeats := put [] (memPage block unit).base (w.dev.beat :: l) d.ueBeats })
      (l.length < 255 → w.noteUe (memPage block unit) = v) ∧ (255 ≤ l.length → w.noteUe (memPage block unit) = v.failMem (memPage block unit)))

/-- FLIT_RECEIVE, NAK_GAP_TIMEOUT and REPLAY_TIMEOUT. On a live link of an open port: a flit of 256 bytes with a right CRC and a
known type gives its ACK and credit to the port and is then taken by its type; a flit that is not is dropped, counted and
answered with a NAK, and the sixteenth such in a row fails the link. A gap that stays open for 64 beats sends a NAK again.
With flits outstanding and no ACK for 256 beats, the oldest is sent again. -/
def Obligations.FlitsAreTakenAndResent : Prop :=
  ∀ (s : State) (p : Nat),
    (∀ (link : Nat) (b : List Byte) (l : PLink), s.work.liveLink p link = some l →
      let w := s.work.setLink p link (fun l => { l with lastRx := s.dev.beat })
      (b.length = 256 → bytesAt b 248 8 = crc64 (b.take 248) → byteAt b 4 ≤ 2 →
        Runs (.flitReceive p link b) s (((w.setLink p link (fun l => { l with crcRun := 0, heard := true })).takeAck p b).takeFlit p b))
      ∧ ((b.length ≠ 256 ∨ bytesAt b 248 8 ≠ crc64 (b.take 248) ∨ 2 < byteAt b 4) →
        let v := ((w.count ⟨.tp, p⟩ 2).setLink p link (fun l => { l with crcRun := l.crcRun + 1 })).sendNak p
        (l.crcRun < 15 → Runs (.flitReceive p link b) s v)
        ∧ (15 ≤ l.crcRun → Runs (.flitReceive p link b) s (v.failLink p link))))
    ∧ ((s.work.port p).state.open = true →
      (∀ b : Nat, (s.work.port p).gapSince = some b →
        let w := (s.work.passTo (b + 64)).sendNak p
        Runs (.nakGapTimeout p) s (w.setPort p (fun q => { q with gapSince := some w.dev.beat })))
      ∧ (∀ (r : Replay) (rest : List Replay), (s.work.port p).replay = r :: rest →
        let w := (s.work.passTo (max (s.work.port p).ackAt r.sentAt + 256)).resend p r
        Runs (.replayTimeout p) s (w.setPort p (fun q => { q with ackAt := w.dev.beat }))))

/-- A DATA flit is delivered in the order of its number, once, and acknowledged flits leave the replay buffer. A good DATA flit
with the expected number, nothing waiting behind it, advances that number by one modulo 65,536 and appends the packets that
its slots complete; one whose number is behind the expected one, or already held while the expected one is missing, changes no
delivered packet and no number.
An ACK removes from the replay buffer exactly the flits up to it, in 16-bit serial order. -/
def Obligations.FlitsComeInOrder : Prop :=
  ∀ (w : Work) (p : Nat) (b : List Byte), p < w.dev.ports.length →
    (byteAt b 4 = 1 → bytesAt b 0 2 = (w.port p).rxNext → (w.port p).reorder = [] → (w.port p).rxNext < 65536 →
      ((w.takeFlit p b).port p).rxNext = ((w.port p).rxNext + 1) % 65536
      ∧ ((w.takeFlit p b).port p).packets = (w.port p).packets
          ++ (takePackets 4096 ((w.port p).rxBytes ++ (b.drop 8).take 240)).1.filter
              (fun x => (classOf (byteAt x 0)).isSome || byteAt x 0 == 9)
      ∧ ((w.takeFlit p b).port p).gapSince = none)
    ∧ (byteAt b 4 = 1 → diff16 (bytesAt b 0 2) (w.port p).rxNext < 0 ∨ (∃ x ∈ (w.port p).reorder, x.1 = bytesAt b 0 2) →
      (∀ x ∈ (w.port p).reorder, x.1 ≠ (w.port p).rxNext) →
      ((w.takeFlit p b).port p).rxNext = (w.port p).rxNext ∧ ((w.takeFlit p b).port p).packets = (w.port p).packets)
    ∧ ((w.port p).queued = [] → ((w.takeAck p b).port p).replay
        = (w.port p).replay.filter (fun r => decide (0 < diff16 r.fseq (bytesAt b 2 2))))

/-- LINK_FAIL, LINK_SILENCE_TIMEOUT, PORT_LOST_TIMEOUT, RETRAIN and REJOIN. A live link fails at once, or after 256 beats of
silence; a port whose oldest flit has waited TP_LOSS microseconds is lost. A failure that leaves a live link degrades the
port, raises ERR_LINK_DEGRADE and resends the flits the link carried; one that leaves none loses the port, except a
QUARANTINED one, which goes DOWN. An accepted RETRAIN, in none of UP, DEGRADED and TRAINING, puts the port in TRAINING with
every link down; an accepted REJOIN, of links that have all failed, puts those links down to train again. -/
def Obligations.LinksFailAndPortsAreLost : Prop :=
  ∀ (s : State) (p : Nat),
    (∀ (link : Nat) (l : PLink), s.work.liveLink p link = some l →
      Runs (.linkFail p link) s (s.work.failLink p link)
      ∧ Runs (.linkSilenceTimeout p link) s ((s.work.passTo (l.lastRx + 256)).failLink p link))
    ∧ (∀ (r : Replay) (rest : List Replay), (s.work.port p).replay = r :: rest → s.work.portUp p = true → p < 16 →
      Runs (.portLostTimeout p) s ((s.work.passTo (r.sentAt + s.work.rf ⟨.tp, p⟩ .tpLoss 15 0 * 250)).losePort p))
    ∧ (∀ (w : Work) (link : Nat), let v := w.setLink p link (fun l => { l with state := .failed })
      ((v.port p).live ≠ [] → (w.port p).state ≠ .quarantined → w.failLink p link
        = ((((v.setPort p (fun q => { q with state := .degraded })).count ⟨.tp, p⟩ 5).tpError p .linkDegrade link 0).each
            ((w.port p).replay.filter (fun r => r.link == link)) (fun r w => w.resend p r)))
      ∧ ((v.port p).live = [] → (w.port p).state ≠ .quarantined → w.failLink p link = v.losePort p)
      ∧ ((v.port p).live ≠ [] → (w.port p).state = .quarantined → w.failLink p link = v)
      ∧ ((v.port p).live = [] → (w.port p).state = .quarantined →
        w.failLink p link = v.setPort p (fun q => { q with state := .down })))
    ∧ (∀ who : Agent, Accepted s who ⟨.tp, p⟩ .tpCtl 0 (atBit 1 31) →
      (s.work.port p).state = .down ∨ (s.work.port p).state = .lost ∨ (s.work.port p).state = .quarantined →
      Runs (.retrain who p) s (s.work.setPort p (fun q => { q with
        state := .training
        links := q.links.map (fun l => { l with state := .down, trained := false, helloSeen := false, crcRun := 0 }) })))
    ∧ (∀ (who : Agent) (links : Nat), links ≠ 0 → links < 65536 → Accepted s who ⟨.tp, p⟩ .tpCtl 0 (BitVec.ofNat 32 links) →
      (∀ i < 16, links / 2 ^ i % 2 = 1 → ((s.work.port p).links[i]?).map (·.state) = some .failed) →
      Runs (.rejoin who p links) s (s.work.setPort p (fun q => { q with links := q.links.mapIdx (fun i l =>
        if (links / 2 ^ i % 2 == 1) = true then { l with state := .down, trained := false, helloSeen := false, crcRun := 0 } else l) })))

/-- LINK_TRAINED, HELLO and HELLO_REPEAT. A link that is down, not trained, in a port that trains or is open, is trained and
sends HELLO, and repeats it every 256 beats until each side has received the other's. A partner's HELLO on a trained link is recorded in
the port's PEER registers and judged in the order of the table: a wrong partner is miswired, no common version keeps the
link down, a wrong digest or an old security version quarantines, and otherwise the link joins with the highest common
version and the common features, its time offset judged when both have the time feature or the partner relays time. -/
def Obligations.LinksComeUp : Prop :=
  ∀ (s : State) (p link : Nat) (l : PLink), (s.work.port p).link? link = some l →
    (∀ alternate : Bool, l.state = .down → l.trained = false → p < 16 →
      (s.work.port p).state = .training ∨ (s.work.port p).state.open = true →
      Runs (.linkTrained p link alternate) s
        ((s.work.setLink p link (fun l => { l with trained := true, method := alternate, helloSeen := false, heard := false, crcRun := 0 })).sendHello p link))
    ∧ (l.trained = true → l.helloSeen = false ∨ l.heard = false → Runs (.helloRepeat p link) s ((s.work.passTo (l.helloSentAt + 256)).sendHello p link))
    ∧ (∀ m : HelloMsg, p < 16 → l.trained = true → l.state = .down → (s.work.port p).state = .training ∨ (s.work.port p).state.open = true →
      let w := (s.work.peer p m).setLink p link (fun l => { l with helloSeen := true })
      (m.device % 4096 ≠ l.partnerDevice ∨ m.port ≠ l.partnerPort ∨ m.link ≠ l.partnerLink ∨ m.kind ≠ l.partnerKind →
        Runs (.hello p link m) s (w.joinLink p link .miswired))
      ∧ (m.device % 4096 = l.partnerDevice → m.port = l.partnerPort → m.link = l.partnerLink → m.kind = l.partnerKind →
        (min 3 m.vmax < max 2 m.vmin → Runs (.hello p link m) s (w.joinLink p link .noVersion))
        ∧ (max 2 m.vmin ≤ min 3 m.vmax → m.digest ≠ w.dev.exch.digest → Runs (.hello p link m) s (w.joinLink p link (.quarantined 3)))
        ∧ (max 2 m.vmin ≤ min 3 m.vmax → m.digest = w.dev.exch.digest → m.secVersion < w.dev.exch.secFloor →
          Runs (.hello p link m) s (w.joinLink p link (.quarantined 4)))
        ∧ (max 2 m.vmin ≤ min 3 m.vmax → m.digest = w.dev.exch.digest → w.dev.exch.secFloor ≤ m.secVersion →
          let f := Nat.land ownFeatures m.features
          Runs (.hello p link m) s ((w.whenB (f % 2 == 1 || m.features / 2 % 2 == 1) (fun w => w.judgePartner p (d40 m.time w.dev.time))).joinLink p link
            (.up (min 3 m.vmax) f)))))

/-- WRITE, READ, RESP and SIGNAL. A packet for this device, on a port that carries its class, leaves the receive buffer and owes
its credit. A WRITE of a valid group and GEN in an enabled context is written, or combined under a HALO, and its number
enters the sender's watermark; one that no group accepts is counted and dropped, and one to a context that is not enabled is
refused with ABORT. A READ is answered with the row in chunks of 256 bytes, or refused and counted. The last RESP of a row
lands it; a refusal fails the instance. A signal whose fence the sender's watermark has not reached is parked, and waits in
the receive buffer with 256 parked; any other takes effect, a fenced one after its sender's parked signals that may go. -/
def Obligations.PacketsAreTaken : Prop :=
  ∀ (s : State) (h : PktHdr), s.work.heeds h false = true →
    (∀ (addr gen pwseq group step : Nat) (data : List Byte) (g : Nat),
      let w := s.work.takePacket h.port (mkPacket 1 h.poison h.ctx h.dst h.src (leBytes 6 addr ++ leBytes 2 gen)
        (some (leBytes 4 pwseq ++ leBytes 2 group ++ leBytes 2 step)) data)
      w.genAgrees h.port = true →
      (w.groupOf group = some g → w.grpGen g = gen →
        (w.rb pgTt .ttCtxCfg 31 h.ctx = true →
          Runs (.write h addr gen pwseq group step data) s ((w.landWrite h g addr group gen (marked h.poison data)).posted h pwseq))
        ∧ (w.rb pgTt .ttCtxCfg 31 h.ctx = false →
          Runs (.write h addr gen pwseq group step data) s ((w.refusePosted h group gen).posted h pwseq)))
      ∧ (w.groupOf group = none → Runs (.write h addr gen pwseq group step data) s ((w.count pgEx 3).posted h pwseq)))
    ∧ (∀ tag exportId row rowBytes : Nat,
      let x := (s.work.takePacket h.port (mkPacket 2 0 h.ctx h.dst h.src (leBytes 4 tag ++ leBytes 2 exportId)
        (some (leBytes 8 row ++ leBytes 4 rowBytes)) [])).exported exportId row rowBytes
      (x.1 = none → Runs (.read h tag exportId row rowBytes) s ((x.2.count pgEx 7).sendResp h tag 0 1 []))
      ∧ (∀ l : List PByte, x.1 = some l → Runs (.read h tag exportId row rowBytes) s
          ((x.2.count pgEx 6).each ((chunksOf 256 l).zipIdx) (fun (ch, k) w => w.sendResp h tag k 0 ch))))
    ∧ (∀ (tag chunk : Nat) (data : List Byte) (f : Fetch) (row : Nat),
      s.dev.fetches.find? (fun f => f.id % 2 ^ 32 == tag && (match f.remote with
        | some (d, _) => d == h.src
        | none => false)) = some f → f.remote = some (h.src, row) →
      let w (refused : Bool) := s.work.takePacket h.port
        (mkPacket 3 h.poison h.ctx h.dst h.src (leBytes 4 tag ++ leBytes 2 chunk ++ leBytes 1 (b2n refused)) none data)
      let n := f.pieces.foldl (fun a x => a + x.2) 0
      let l := f.copy ++ (marked h.poison data).take (n - f.copy.length)
      (chunk * 256 = f.copy.length → n ≤ l.length → Runs (.resp h tag chunk false data) s ((w false).landRemote f l))
      ∧ (chunk * 256 = f.copy.length → l.length < n → Runs (.resp h tag chunk false data) s ((w false).upd (fun d => { d with
          fetches := updFirst (fun x => x.id == f.id) (fun x => { x with copy := l }) d.fetches })))
      ∧ (∀ i : Inst, s.dev.inst? f.iid = some i → (w true).stale f = false →
          Runs (.resp h tag chunk true data) s
            (((w true).dropFetch f.id).failInst i ⟨.gu, f.cluster⟩ .remoteRefused (leBytes 2 h.src ++ leBytes 6 row))))
    ∧ (∀ m : SignalMsg, m.op = 1 ∨ m.op = 2 →
      let w := s.work.takeSignal h.port (mkPacket 4 0 h.ctx h.dst h.src
        (leBytes 4 (m.rid % 2 ^ 20 + m.op * 2 ^ 24 + b2n m.fenced * 2 ^ 31) ++ leBytes 2 m.n)
        (some (leBytes 4 m.fence ++ leBytes 2 m.group ++ leBytes 2 m.step ++ leBytes 2 m.gen ++ leBytes 1 m.cop ++ leBytes 1 m.format
          ++ leBytes 4 m.elements)) [])
      let p : Parked := { port := h.port, sender := h.src, ctx := h.ctx, rid := m.rid, op := m.op, n := m.n, fence := m.fence,
                          since := s.dev.beat, group := m.group, step := m.step, gen := m.gen, cop := m.cop, format := m.format,
                          elements := m.elements }
      (m.fenced = true → s.work.fenceReached h.port h.src m.fence = true →
          Runs (.signal h m) s ((w.releaseBefore h.port h.src).applySignal p))
      ∧ (m.fenced = false → Runs (.signal h m) s ((w.count pgSy 4).applySignal p))
      ∧ (m.fenced = true → s.work.fenceReached h.port h.src m.fence = false → (s.dev.parkedAt h.port).length < 256 →
          Runs (.signal h m) s ((w.updSync (fun y => { y with parked := y.parked ++ [p] })).count pgSy 3))
      ∧ (m.fenced = true → s.work.fenceReached h.port h.src m.fence = false → 256 ≤ (s.dev.parkedAt h.port).length →
          RunsTo (.signal h m) s s.dev))

/-- TIME. On a port that keeps time with its partner, the packet gives the partner's FABRIC_GEN, and the upstream partner says
whether it is unlocked. A request is answered with the times of its arrival and sending. A reply that answers the exchange in
progress gives half the difference of the two 40-bit delays, rounded toward zero, as the port's offset; the port's partner is
judged against the bound, and the upstream partner under SOURCE LINK loads or steers the time base. A reply to no exchange
does no more. -/
def Obligations.TimePacketsSteer : Prop :=
  ∀ (s : State) (h : PktHdr) (unlocked : Bool) (tSend fabricGen tEchoRx tEchoTx tRx : Nat), s.work.heeds h false = true →
    h.port < 16 → (s.work.port h.port).keepsTime = true →
    let w (reply : Bool) := ((s.work.takePacket h.port (mkPacket 5 0 h.ctx h.dst h.src
      (leBytes 1 (b2n reply + 2 * b2n unlocked) ++ leBytes 5 tSend ++ leBytes 2 fabricGen) (some (leBytes 5 tEchoRx ++ leBytes 5 tEchoTx))
      [])).setReg ⟨.tp, h.port⟩ .tpPeerGen (atBit (fabricGen % 65536) 0)).upstreamSays h.port unlocked
    Runs (.time h false unlocked tSend fabricGen tEchoRx tEchoTx tRx) s
      ((w false).tryLock.sendTime h.port true (tRx % 2 ^ 40) (tSend % 2 ^ 40))
    ∧ (look 0 h.port (w true).dev.crier.echo ≠ tEchoTx % 2 ^ 40 + 1 →
      Runs (.time h true unlocked tSend fabricGen tEchoRx tEchoTx tRx) s (w true))
    ∧ (look 0 h.port (w true).dev.crier.echo = tEchoTx % 2 ^ 40 + 1 →
      let offset := (d40 tEchoRx tEchoTx - d40 tRx tSend).tdiv 2
      let v := (((w true).crier (fun c => { c with echo := put 0 h.port 0 c.echo })).setReg pgCr .crPortOfs
        (atBit 1 31 ||| atBit (sat16 offset) 0) h.port).judgePartner h.port offset
      ((v.source ≠ 2 ∨ h.port ≠ v.rf pgCr .crCfg 11 8) →
        Runs (.time h true unlocked tSend fabricGen tEchoRx tEchoTx tRx) s v.tryLock)
      ∧ (v.source = 2 → h.port = v.rf pgCr .crCfg 11 8 → v.dev.counting = true →
        Runs (.time h true unlocked tSend fabricGen tEchoRx tEchoTx tRx) s (v.upstream offset).tryLock))
    ∧ (s.work.source = 2 → h.port = s.work.rf pgCr .crCfg 11 8 → (s.work.upstreamSays h.port unlocked).dev.crier.upUnlocked = unlocked
        ∧ (unlocked = true → s.work.unlocked = false →
          s.work.upstreamSays h.port true = ((s.work.crier (fun c => { c with upUnlocked := true })).setRf pgCr .crStatus 28 28 1).raise pgCr
            .timeUnlocked ⟨1, none, codeNone, codeNone, leBytes 1 h.port⟩))

/-- ABORT, MCAST, MCREDIT and MGMT. The first ABORT of a group and GEN is passed on to every other member and ends the group's
collective, and with ERR_COLL_REFUSED also the streams to the group; a repeated one only counts. The last chunk of a multicast row,
after the chunks before it, is written into every Shelf slice of the member's pitch; another chunk is kept; a row for a context that
is not enabled is refused with ABORT. Rows are credited in order, up to the last before which none is missing. A credit gives the
receiver that row and all before it, and the sender's kept rows are swept. A MGMT packet that is one whole message for this endpoint
is answered in MGMT packets. -/
def Obligations.GroupPacketsAreTaken : Prop :=
  ∀ (s : State) (h : PktHdr),
    (∀ (group gen code origin g : Nat), s.work.heeds h false = true →
      let w := s.work.takePacket h.port (mkPacket 6 0 h.ctx h.dst h.src (leBytes 2 group ++ leBytes 2 gen ++ leBytes 2 code ++ leBytes 2 origin)
        none [])
      w.genAgrees h.port = true → w.groupOf group = some g → w.grpGen g = gen →
      ((w.count pgEx 5).dev.exch.aborts.contains (g, gen) = true → Runs (.abort h group gen code origin) s (w.count pgEx 5))
      ∧ ((w.count pgEx 5).dev.exch.aborts.contains (g, gen) = false →
        let v := (w.count pgEx 5).abortOthers g gen code origin
        let u := ((v.dev.exch.colls.find? (fun c => c.group == g && c.gen == gen)).map (fun c =>
          v.endParticipant c (if code = Err.collRefused.code then .collRefused else .linkLost) (leBytes 2 origin))).getD v
        (code ≠ Err.collRefused.code → Runs (.abort h group gen code origin) s u)
        ∧ (code = Err.collRefused.code → Runs (.abort h group gen code origin) s (u.each (u.dev.streamsTo g) (fun (m, t) w =>
          w.failTask m.gid m.ti pgEx .collRefused group (leBytes 2 origin ++ leBytes 2 t.stream.id))))))
    ∧ (∀ (streamId group gen row destOffset pwseq chunk : Nat) (last : Bool) (data : List Byte), s.work.heeds h false = true →
      let w := s.work.takePacket h.port (mkPacket 7 h.poison h.ctx h.dst h.src (leBytes 2 streamId ++ leBytes 2 group ++ leBytes 2 gen)
        (some (leBytes 4 row ++ leBytes 4 destOffset ++ leBytes 4 pwseq ++ leBytes 2 chunk)) data)
      (w.genAgrees h.port = false →
        Runs (.mcast h streamId group gen row destOffset pwseq chunk last data) s ((w.count ⟨.tp, h.port⟩ 7).posted h pwseq))
      ∧ (w.genAgrees h.port = true →
        (w.groupOf group = none → Runs (.mcast h streamId group gen row destOffset pwseq chunk last data) s ((w.count pgEx 3).posted h pwseq))
        ∧ (∀ g : Nat, w.groupOf group = some g →
          (w.grpGen g ≠ gen → Runs (.mcast h streamId group gen row destOffset pwseq chunk last data) s ((w.count pgEx 3).posted h pwseq))
          ∧ (w.grpGen g = gen → w.rb pgTt .ttCtxCfg 31 h.ctx = false →
            Runs (.mcast h streamId group gen row destOffset pwseq chunk last data) s ((w.refusePosted h group gen).posted h pwseq))
          ∧ (w.grpGen g = gen → w.rb pgTt .ttCtxCfg 31 h.ctx = true →
            let v := w.count pgEx 2 data.length
            let mine (x : McRow) : Bool := x.src == h.src && x.stream == streamId && x.group == g && x.row == row
            let l := (if chunk = 0 then [] else ((v.dev.exch.mcRx.find? mine).map McRow.data).getD []) ++ marked h.poison data
            let y := v.exch (fun x => { x with mcRx := x.mcRx.filter (fun z => !mine z) })
            (last = true → Runs (.mcast h streamId group gen row destOffset pwseq chunk last data) s
              ((y.landMcast h g streamId group gen row destOffset l).posted h pwseq))
            ∧ (last = false → Runs (.mcast h streamId group gen row destOffset pwseq chunk last data) s
              ((y.exch (fun x => { x with mcRx := x.mcRx ++ [(⟨h.src, streamId, g, row, l⟩ : McRow)] })).posted h pwseq))))))
    ∧ (∀ (w : Work) (g streamId group gen row destOffset d ctx pitch : Nat) (p : Pitch) (l : List PByte),
      w.dev.member g (w.grpRank g) = some (d, ctx, pitch) → w.pitchFor ctx pitch = some p →
      let off := destOffset + row * (64 * ceilDiv l.length 64)
      (off + l.length ≤ 3145728 → w.landMcast h g streamId group gen row destOffset l
        = (w.each p.clusters (fun c w => (w.writePhys (slicePhys c off) l).count ⟨.wh, c⟩ 7)).creditMcast h.src streamId group row)
      ∧ (3145728 < off + l.length → w.landMcast h g streamId group gen row destOffset l = w.refusePosted h group gen))
    ∧ (∀ (m : McIn) (row : Nat), (m.next = row → m.later = [] → m.gain row = { m with next := row + 1 })
      ∧ (m.next < row → m.next ∉ m.later → row ∉ m.later → (m.gain row).next = m.next))
    ∧ (∀ (streamId group row : Nat) (m : McStream) (rest : List McStream), s.work.heeds h true = true →
      let w := s.work.takePacket h.port (mkPacket 8 0 h.ctx h.dst h.src (leBytes 2 streamId ++ leBytes 2 group ++ leBytes 4 row) none [])
      w.dev.streams.filter (fun m => match w.dev.task? m.gid m.ti with
        | some t => t.stream.id == streamId && w.grpId t.stream.group == group
        | none => false) = m :: rest →
      Runs (.mcredit h streamId group row) s ((w.setStream m.cluster (fun m => { m with recvs := m.recvs.map (fun x =>
        if x.remote && x.who == h.src && !x.detached then
          { x with landed := max x.landed (row + 1), credited := max x.credited (row + 1) } else x) })).sweepStream m.cluster))
    ∧ (∀ m : List Byte, s.work.heeds h true = true → s.work.mgmtUp = true →
      let w := s.work.takePacket h.port (mkPacket 10 h.poison h.ctx h.dst h.src [] none m)
      byteAt m 3 / 64 = 3 → (byteAt m 1 = 0 ∨ byteAt m 1 = w.dev.eid) →
      let x := w.mctpAnswer (m.drop 4)
      Runs (.mgmt h m) s (x.2.sendMctp h (byteAt m 2) (byteAt m 3) (x.1.getD [])))

/-- COLLECTIVE_START and GROUP_VALID. A COLLECTIVE task that may start, in a valid group that runs none, with fewer than 64
running, becomes ACTIVE under the group's GEN, copies its own part where the operation keeps one, and moves as far as the READY and
STEP signals that came early allow; a HALO sends its rows. An accepted GROUP_VALID on a group that is not busy, with a legal size and
rank, its own fabric ID, and a readable member list that names this device and the owner at that rank, sets VALID and keeps the list. -/
def Obligations.CollectivesStart : Prop :=
  ∀ (s : State),
    (∀ (r : TaskRef) (t : Task), s.dev.task? r.gid r.task = some t → collMay t = true → s.dev.coll? r.gid r.task = none →
      s.work.grpValid (t.f 64 1) = true → s.dev.exch.colls.any (fun c => c.group == t.f 64 1) = false → s.dev.exch.colls.length < 64 →
      let g := t.f 64 1
      let x := s.work.collPar t
      let c : Coll := { gid := r.gid, ti := r.task, group := g, gen := s.work.grpGen g
                        dests := if x.sends = 0 then [] else ((s.dev.member g x.next).map (fun m => [m.1])).getD []
                        applied := 0, sent := 0, buf := none, readySeen := [], readySent := 0, haloFrom := [], finalBytes := []
                        stopPolicy := s.work.rf pgTt .ttCtxCfg 29 28 (s.dev.ctxOf r.gid) == 1 }
      let w := (s.work.exch (fun y => { y with
        colls := y.colls ++ [c]
        early := y.early.filter (fun e => e.group != g) })).setTask r.gid r.task (fun t => { t with state := .active })
      let early (w : Work) : Work :=
        w.each (s.dev.exch.early.filter (fun e => e.group == g && e.gen == s.work.grpGen g)) (fun e w => w.exEvent e)
      (x.cop = 5 → Runs (.collectiveStart r) s (early (w.haloRun c t)))
      ∧ (x.cop = 3 →
        Runs (.collectiveStart r) s (early ((w.collCopy c x.src x.dst (x.r * (x.els * x.es)) (x.els * x.es)).collGo r.gid r.task)))
      ∧ ((x.cop = 4 ∧ x.place = 0) ∨ ((x.cop = 1 ∨ x.cop = 2) ∧ x.p = 1) →
        Runs (.collectiveStart r) s (early ((w.collCopy c x.src x.dst 0 (x.els * x.es)).collGo r.gid r.task)))
      ∧ ((x.cop = 4 ∧ x.place ≠ 0) ∨ ((x.cop = 1 ∨ x.cop = 2) ∧ x.p ≠ 1) →
        Runs (.collectiveStart r) s (early (w.collGo r.gid r.task))))
    ∧ (∀ (who : Agent) (owner gen : Nat), owner < 32 → gen < 65536 →
      let cfg : Word := atBit 1 31 ||| atBit owner 24 ||| atBit gen 0
      Accepted s who pgEx .exGrpCfg 0 cfg →
      let g := s.work.grpSel (writerOf who)
      let n := s.work.grpSize g
      let x := s.work.readClean owner (fld (s.work.grp g 3) 31 2 * 4 + fld (s.work.grp g 4) 11 0 * 2 ^ 32) (4 * n)
        ⟨some owner, 0xFFFFFFFF, 0xFFFFFFFF⟩
      s.work.grpBusy g = false → n ≠ 0 → n ≤ 4096 → s.work.grpRank g < n →
      (∀ h < 256, h ≠ g → s.work.grpValid h = true → s.work.grpId h ≠ s.work.grpId g) →
      ∀ b : List Byte, x.1 = some b →
        let es : List Word := (List.range n).map (fun k => BitVec.ofNat 32 (bytesAt b (4 * k) 4))
        fld (es.getD (s.work.grpRank g) 0) 11 0 = x.2.self → fld (es.getD (s.work.grpRank g) 0) 16 12 = owner →
        Runs (.groupValid who owner gen) s ((x.2.setGrp g 0 cfg).exch (fun y => { y with
          members := y.members.filter (fun m => m.group != g) ++ [⟨g, es⟩]
          early := y.early.filter (fun e => e.group != g || e.gen == gen) })))

/-- APERTURE_READ, APERTURE_WRITE, ATS_*, VF_ENABLE, PCIE_LINK_*, HOST_COMPLETION_TIMEOUT, FLR, PF_FLR and FLR_COMPLETE. An
aperture access inside the BAR, by a function that answers, goes to the device memory that its window names: the PF by its
physical window, another function through its own translation; a read completes with the bytes and the poison mark, a write
puts the bytes there with the poison it came with; an access that leads nowhere changes no memory, is recorded with
ERR_HOST_APERTURE, and a read of it completes with all ones. An ATS invalidation that no access in flight uses completes and
is counted; ATS Enable is stored by function; VF Enable is stored except that it is not set in recovery; a link that trains
is reported in PX_LINK, and one that is up goes down with ERR_PCIE_LINK_DOWN, the host accesses in flight failing. A host
access that times out fails its task with ERR_XLATE. FLR takes the function's share of the reset, its admissions with it, and the
function stays in reset until nothing issued for it is outstanding; a PF FLR does so for every function, resets the PF's registers and clears VF Enable. -/
def Obligations.HostAccessesAndFunctionReset : Prop :=
  ∀ s : State,
    (∀ off len : Nat, off + len ≤ aperBytes 0 → s.work.answers (.fn 0) = true →
      let a := fld (s.work.reg pgPx .pxAperLo) 31 28 * 2 ^ 28 + fld (s.work.reg pgPx .pxAperHi) 15 0 * 2 ^ 32 + off
      (s.work.backed a len = true → let x := s.work.readPhys a len (aperReader 0)
        Runs (.apertureRead 0 off len) s (x.2.say (.completion 0 (x.1.map (·.1)) (x.1.any (·.2)))))
      ∧ (s.work.backed a len = false →
        Runs (.apertureRead 0 off len) s ((s.work.aperFault 0 off).say (.completion 0 (List.replicate len 0xFF) false))))
    ∧ (∀ (off : Nat) (data : List Byte) (poisoned : Bool), off + data.length ≤ aperBytes 0 → s.work.answers (.fn 0) = true →
      let w := s.work.whenB poisoned (fun w => w.count pgPx 6)
      let a := fld (w.reg pgPx .pxAperLo) 31 28 * 2 ^ 28 + fld (w.reg pgPx .pxAperHi) 15 0 * 2 ^ 32 + off
      (w.backed a data.length = true →
        Runs (.apertureWrite 0 off data poisoned) s (w.writePhys a (data.map (fun b => (b, poisoned)))))
      ∧ (w.backed a data.length = false → Runs (.apertureWrite 0 off data poisoned) s (w.aperFault 0 off)))
    ∧ (∀ (fn off len : Nat), fn ≠ 0 → off + len ≤ aperBytes fn → s.work.answers (.fn fn) = true →
      let va := fld (s.work.reg pgPx .pxFnAperLo fn) 31 30 * 2 ^ 30 + fld (s.work.reg pgPx .pxFnAperHi fn) 11 0 * 2 ^ 32 + off
      let x := s.work.translateRange fn va len false (aperReader fn)
      let missed := (x.2.aperFault fn off).say (.completion fn (List.replicate len 0xFF) false)
      (∀ ps : List (Nat × Nat), x.1.toOption.map (·.map (fun t => (t.1, t.2.2))) = some (ps.map (fun q => (Target.dev q.1, q.2))) →
        let y := ps.foldl (fun (acc : List PByte × Work) q =>
          (acc.1 ++ (acc.2.readPhys q.1 q.2 (aperReader fn)).1, (acc.2.readPhys q.1 q.2 (aperReader fn)).2)) ([], x.2)
        Runs (.apertureRead fn off len) s (y.2.say (.completion fn (y.1.map (·.1)) (y.1.any (·.2)))))
      ∧ (∀ l a, x.1 = .ok l → a ∈ l → (∀ b, a.1 ≠ .dev b) → Runs (.apertureRead fn off len) s missed)
      ∧ (∀ e, x.1 = .error e → Runs (.apertureRead fn off len) s missed))
    ∧ (∀ (fn off : Nat) (data : List Byte) (poisoned : Bool), fn ≠ 0 → off + data.length ≤ aperBytes fn → s.work.answers (.fn fn) = true →
      let w := s.work.whenB poisoned (fun w => w.count pgPx 6)
      let va := fld (w.reg pgPx .pxFnAperLo fn) 31 30 * 2 ^ 30 + fld (w.reg pgPx .pxFnAperHi fn) 11 0 * 2 ^ 32 + off
      let x := w.translateRange fn va data.length true (aperReader fn)
      (∀ ps : List (Nat × Nat), x.1.toOption.map (·.map (fun t => (t.1, t.2.2))) = some (ps.map (fun q => (Target.dev q.1, q.2))) →
        Runs (.apertureWrite fn off data poisoned) s (ps.foldl (fun (acc : Nat × Work) q =>
          (acc.1 + q.2, acc.2.writePhys q.1 (((data.drop acc.1).take q.2).map (fun b => (b, poisoned))))) (0, x.2)).2)
      ∧ (∀ l a, x.1 = .ok l → a ∈ l → (∀ b, a.1 ≠ .dev b) → Runs (.apertureWrite fn off data poisoned) s (x.2.aperFault fn off))
      ∧ (∀ e, x.1 = .error e → Runs (.apertureWrite fn off data poisoned) s (x.2.aperFault fn off)))
    ∧ (∀ fn addr len : Nat, s.work.atsBusy fn addr len = false →
      Runs (.atsInvalidate fn addr len) s ((s.work.count pgPx 5).say (.atsDone fn)))
    ∧ (∀ (fn : Nat) (on : Bool), s.work.answers (.fn fn) = true →
      RunsTo (.atsEnable fn on) s { s.dev with atsEn := put false fn on s.dev.atsEn })
    ∧ (∀ on : Bool, s.work.answers (.fn 0) = true →
      ((on = false ∨ s.dev.boot.mode ≠ .recovery) → RunsTo (.vfEnable on) s { s.dev with vfEnabled := on })
      ∧ (on = true → s.dev.boot.mode = .recovery → RunsTo (.vfEnable on) s s.dev))
    ∧ (∀ (rate width : Nat) (flitMode : Bool), s.dev.power.state ≠ .off → s.dev.power.perst = false → linkOk rate width = true →
      Runs (.pcieLinkUp rate width flitMode) s
        (s.work.setReg pgPx .pxLink (atBit 1 31 ||| atBit (b2n flitMode) 30 ||| atBit rate 24 ||| atBit width 16)))
    ∧ (s.work.linkUp = true →
      Runs .pcieLinkDown s (((s.work.setReg pgPx .pxLink 0).raise pgPx .pcieLinkDown ⟨1, none, codeNone, codeNone, []⟩).each
        (s.dev.fetches.filterMap (fun f => (s.work.fetchHost f).map (fun a => (f, a)))) (fun (f, a) w => w.hostFail f.gid f.ti f.cluster a)))
    ∧ (∀ (r : TaskRef) (c addr : Nat) (t : Task), (s.dev.resident c).any (fun i => i.gid == r.gid && i.ti == r.task) = true →
      s.dev.task? r.gid r.task = some t →
      Runs (.hostCompletionTimeout r c addr) s (s.work.failTask r.gid r.task (t.page c) .xlate c (leBytes 8 addr)))
    ∧ (∀ fn : Nat, 1 ≤ fn → fn < 32 → s.work.answers (.fn fn) = true →
      Runs (.flr fn) s (s.work.flrShare fn (s.work.ownPages fn))
      ∧ (s.work.flrShare fn (s.work.ownPages fn)).dev.flrBusy.contains fn = true
      ∧ (s.work.flrShare fn (s.work.ownPages fn)).dev.admissions.any (fun a => a.graph.ctx == fn) = false)
    ∧ (s.work.answers (.fn 0) = true →
      let own := (List.range 32).map s.work.ownPages
      Runs .pfFlr s ((s.work.each (List.range 32) (fun n w => w.flrShare n (own.getD n []))).resetPf.upd (fun d => { d with vfEnabled := false })))
    ∧ (∀ fn : Nat, s.dev.flrDrained fn = true →
      RunsTo (.flrComplete fn) s { s.dev with flrBusy := s.dev.flrBusy.filter (· != fn) })

/-- MCTP control, the four management commands and the eight SPDM requests. While the boot processor runs and its rails are
good, every request is answered by exactly one reply. MCTP control sets an endpoint ID from 8 to 254 and no other, reports
it, the version and the message types, and answers any other command as not supported; a message of a type that is not
answered here gets the error of its type. GET_HEALTH, READ_REG, GET_JOURNAL and GET_ERRORS reply with the health bytes, the
register as the PF reads it, the journal entries from an age on and the newest error records. SPDM requests are answered by
their own response; KEY_EXCHANGE is not supported; a challenge and a signed measurement take a fresh nonce and are signed.
No request changes memory. Layouts and codes that the spec leaves to its standards are the model's (logs 41 and 42). -/
def Obligations.ManagementAnswers : Prop :=
  ∀ s : State, s.work.mgmtUp = true →
    (∀ (src command : Nat) (body : List Byte),
      let ans (d : Dev) (code : Nat) (l : List Nat) : Prop := RunsTo (.mctpControl src command body) s
        { d with sent := d.sent ++ [.mgmt src 0 (([0, command, code] ++ l).map (BitVec.ofNat 8))] }
      (command = 1 → 8 ≤ byteAt body 1 → byteAt body 1 ≤ 254 → ans { s.dev with eid := byteAt body 1 } 0 [0, byteAt body 1, 0])
      ∧ (command = 1 → byteAt body 1 < 8 ∨ 254 < byteAt body 1 → ans s.dev 2 [])
      ∧ (command = 2 → ans s.dev 0 [s.dev.eid, 0, 0]) ∧ (command = 4 → ans s.dev 0 [1, 0xF1, 0xF3, 0xF1, 0])
      ∧ (command = 5 → ans s.dev 0 [3, 0, 5, 0x7E]) ∧ (command ∉ [1, 2, 4, 5] → ans s.dev 5 []))
    ∧ (∀ src type : Nat, type ∉ [0, 5, 0x7E] →
      RunsTo (.mctpOtherType src type) s { s.dev with sent := s.dev.sent ++ [.mgmt src type [BitVec.ofNat 8 type, 5]] })
    ∧ (∀ src : Nat,
      RunsTo (.getHealth src) s { s.dev with sent := s.dev.sent ++ [.mgmt src 0x7E (1 :: s.work.health)] }
      ∧ (∀ off : Nat, let x := s.work.readReg (off / 4 * 4) (.fn 0)
          RunsTo (.readReg src off) s { x.2.dev with sent := x.2.dev.sent ++ [.mgmt src 0x7E (2 :: leBytes 4 x.1.toNat)] })
      ∧ (∀ age count : Nat, RunsTo (.getJournal src age count) s
          { s.dev with sent := s.dev.sent ++ [.mgmt src 0x7E (3 :: ((s.dev.boot.journal.drop age).take count).flatMap JEntry.bytes)] })
      ∧ (∀ count : Nat, RunsTo (.getErrors src count) s
          { s.dev with sent := s.dev.sent ++ [.mgmt src 0x7E (4 :: s.work.errorBytes count)] }))
    ∧ (∀ (i : Instr) (r : SpdmReq), (i, r) ∈ [(Instr.getVersion, SpdmReq.version), (.getCapabilities, .capabilities), (.getDigests, .digests),
        (.keyExchange, .keyExchange)] →
      ∃ a : SpdmAns, (s.work.spdm r).1 = a ∧ (a.code = 0x7F ↔ r = .keyExchange) ∧ a.sig = [] ∧
        RunsTo i s { s.dev with sent := s.dev.sent ++ [.spdm a.code (leBytes 1 a.p1 ++ leBytes 1 a.p2 ++ a.body) []] })
    ∧ (∀ hashes sigs : Nat, RunsTo (.negotiateAlgorithms hashes sigs) s
        { s.dev with sent := s.dev.sent ++ [.spdm 0x63 ([0, 0] ++ (leBytes 4 (hashes / 2 % 2 * 2) ++ leBytes 4 (sigs % 2))) []] })
    ∧ (∀ slot off len : Nat,
      (slot = 0 → off ≤ s.work.chain.length →
        let part := (s.work.chain.drop off).take len
        RunsTo (.getCertificate slot off len) s { s.dev with sent := s.dev.sent ++ [.spdm 0x02
          ([0, 0] ++ (leBytes 2 part.length ++ leBytes 2 (s.work.chain.length - off - part.length) ++ part)) []] })
      ∧ (slot ≠ 0 ∨ s.work.chain.length < off →
        RunsTo (.getCertificate slot off len) s { s.dev with sent := s.dev.sent ++ [.spdm 0x7F [1, 0] []] }))
    ∧ (∀ (slot : Nat) (nonce : List Byte),
      (slot = 0 → let a := s.work.spdmSign ⟨0x03, 0, 1, Config.sha384 s.work.chain ++ Config.nonce s.dev.free ++ nonce, []⟩
        RunsTo (.challenge slot nonce) s { s.dev with
          free := s.dev.free + 1, sent := s.dev.sent ++ [.spdm 0x03 ([0, 1] ++ a.body) a.sig] })
      ∧ (slot ≠ 0 → RunsTo (.challenge slot nonce) s { s.dev with sent := s.dev.sent ++ [.spdm 0x7F [1, 0] []] }))
    ∧ (∀ (index : Nat) (signed : Bool) (nonce : List Byte),
      let body := leBytes 1 (measured index).length ++ (measured index).flatMap (fun k => leBytes 1 k ++ s.work.measurement k)
      (index ≠ 0 → measured index ≠ [] → signed = false →
        RunsTo (.getMeasurements index signed nonce) s { s.dev with sent := s.dev.sent ++ [.spdm 0x60 ([10, 0] ++ body) []] })
      ∧ (index = 0 → signed = false →
        RunsTo (.getMeasurements index signed nonce) s { s.dev with sent := s.dev.sent ++ [.spdm 0x60 [10, 0] []] })
      ∧ (index ≠ 0 → measured index = [] →
        RunsTo (.getMeasurements index signed nonce) s { s.dev with sent := s.dev.sent ++ [.spdm 0x7F [1, 0] []] })
      ∧ (index = 0 ∨ measured index ≠ [] → signed = true →
        let a := s.work.spdmSign ⟨0x60, 10, 0, body ++ Config.nonce s.dev.free ++ nonce, []⟩
        RunsTo (.getMeasurements index signed nonce) s { s.dev with
          free := s.dev.free + 1, sent := s.dev.sent ++ [.spdm 0x60 ([10, 0] ++ a.body) a.sig] }))

/-- The scheduler port, DELAY_EXPIRE, CORE_INTERRUPT, CC_MAILBOX and THREAD_FAULT. On one of the eight control cores, after the
switch that is due has completed: READY makes a BLOCKED or DELAYED slot ready at the tail of its level; BLOCK blocks the
running thread, or makes it ready again when an interrupt is pending for it; YIELD moves it to the tail of its level; DELAY
n puts it among the delays at its wake tick; CANCEL blocks a DELAYED slot; SETPRIO sets a priority up to 31; BIND binds a
source to a slot that is not EMPTY; each answers its status, and a refused one changes nothing but that. Delays whose tick
has come end in order. An interrupt wakes the BLOCKED thread bound to its source, stays pending for another, and is counted
as lost with no thread. A mailbox write interrupts its core with source 3. A faulting thread is BLOCKED, its open Deal is
abandoned, its wait removed, and ERR_CC_FAULT raised. -/
def Obligations.CoresScheduleThreads : Prop :=
  ∀ (s : State) (n : Nat), n < 8 →
    let w := s.work.settle
    let c := w.core n
    (∀ t : Nat,
      ((c.thread t).state = .blocked ∨ (c.thread t).state = .delayed →
        Runs (.schedReady n t) s ((w.setCore n (c.makeReady t)).say (.status n true)))
      ∧ ((c.thread t).state = .empty ∨ (c.thread t).state = .ready → Runs (.schedReady n t) s (w.say (.status n false)))
      ∧ ((c.thread t).state = .delayed →
        Runs (.schedCancel n t) s (((w.setCore n (c.blockNow t).1).whenB (c.blockNow t).2 (fun w => w.count ⟨.cc, n⟩ 2)).say (.status n true)))
      ∧ ((c.thread t).state ≠ .delayed → Runs (.schedCancel n t) s (w.say (.status n false)))
      ∧ (∀ p : Nat, p ≤ 31 → (c.thread t).state ≠ .ready →
        Runs (.schedSetprio n t p) s ((w.setCore n (c.setThread t (fun x => { x with prio := p }))).say (.status n true)))
      ∧ (∀ p : Nat, p ≤ 31 → (c.thread t).state = .ready → let x := c.setThread t (fun x => { x with prio := p })
        Runs (.schedSetprio n t p) s ((w.setCore n { x with ready := x.ready.filter (· != t) ++ [t] }).say (.status n true)))
      ∧ (∀ p : Nat, 31 < p → Runs (.schedSetprio n t p) s (w.say (.status n false)))
      ∧ (∀ src : Nat, (c.thread t).state ≠ .empty →
        Runs (.schedBind n src t) s ((w.setCore n { c with binds := updAt (fun _ => some t) src c.binds }).say (.status n true)))
      ∧ (∀ src : Nat, (c.thread t).state = .empty → Runs (.schedBind n src t) s (w.say (.status n false)))
      ∧ (c.running = some t →
        Runs (.schedBlock n) s
          ((((w.setCore n (c.blockNow t).1).whenB (c.blockNow t).2 (fun w => w.count ⟨.cc, n⟩ 2)).say (.status n true)).settle)
        ∧ Runs (.schedYield n) s (((w.setCore n { c with ready := c.ready.filter (· != t) ++ [t] }).say (.status n true)).settle)
        ∧ (∀ k : Nat, 1 ≤ k → k ≤ 1048575 →
          Runs (.schedDelay n k) s (((w.setCore n { c.unready t .delayed with
            delays := insertDelay t (w.dev.crier.tickNo + k) (c.unready t .delayed).delays }).say (.status n true)).settle))))
    ∧ (∀ k : Nat, k = 0 ∨ 1048575 < k → Runs (.schedDelay n k) s (s.work.say (.status n false)))
    ∧ Runs (.delayExpire n) s (s.work.setCore n
        (((s.work.core n).delays.filter (fun d => decide (d.2 ≤ s.dev.crier.tickNo))).foldl (fun c d => c.makeReady d.1) (s.work.core n)))
    ∧ (∀ src : Nat,
      let b := s.work.core n
      (∀ t : Nat, b.binds.getD src none = some t → (b.thread t).state = .blocked →
        Runs (.coreInterrupt n src) s ((s.work.setCore n (b.makeReady t)).count ⟨.cc, n⟩ 2))
      ∧ (∀ t : Nat, b.binds.getD src none = some t → (b.thread t).state = .ready ∨ (b.thread t).state = .delayed → b.pends.contains t = false →
        Runs (.coreInterrupt n src) s (s.work.setCore n { b with pends := b.pends ++ [t] }))
      ∧ (b.binds.getD src none = none → Runs (.coreInterrupt n src) s ((s.work.setCore n b).count ⟨.cc, n⟩ 3)))
    ∧ (∀ (who : Agent) (value : Nat), Accepted s who ⟨.cc, n⟩ .ccMailbox 0 (BitVec.ofNat 32 value) →
      Runs (.ccMailbox who n value) s ((s.work.storeRw ⟨.cc, n⟩ (regOf ⟨.cc, n⟩ .ccMailbox) 0 (BitVec.ofNat 32 value)).coreInt n 3))
    ∧ (∀ slot addr : Nat, ((s.work.core n).thread slot).state ≠ .empty →
      let v := s.work.setCore n ((s.work.core n).unready slot .blocked)
      let deal : Bool := (v.deal_ (32 + n)).state == .opened && (v.deal_ (32 + n)).thread == slot
      let wait : Bool := (v.sySlot (32 + n)).waiting && (v.sySlot (32 + n)).thread == slot
      let x := if deal then v.abandonDeal (32 + n) else v
      let y := if wait then x.syUnwait (32 + n) else x
      Runs (.threadFault n slot addr) s
        (y.raise ⟨.cc, n⟩ .ccFault ⟨1, none, slot, 0xFFFFFFFF, leBytes 6 addr ++ leBytes 1 (b2n deal + 2 * b2n wait)⟩))

/-- START, BOOT_STEP_END, BOOT_WATCHDOG, RESTART and RESET_PLAN. A start, while the rails are good and PERST_N is deasserted,
loses everything outside flash, raises the start number and begins step 0x01; with PERST_N asserted it waits. A running step
that ends records its result, code, duration and detail in its journal entry: one that passes has its effect and is followed
by the steps that wait on it, the last bringing the device into service; a required one that fails is attempted once more
under the other method, and after that the device is in recovery, with the step and its code; one that is not required is
passed over. A training does not pass with a
channel that its population or SPD fails, or with a unit that has failed in service. A step that runs for 30 s begins a new
start, of which POWER counts only the ramp. RESTART begins a start, with a plan reset first from recovery;
RESET_PLAN, when no start is under way, writes its journal entry. -/
def Obligations.StartsAndBootSteps : Prop :=
  ∀ s : State,
    (s.dev.power.state ≠ .off → s.dev.power.modPg = true →
      (s.dev.power.perst = false → Runs .start s (Work.runSteps 20 [1] s.work.startReset))
      ∧ (s.dev.power.perst = true → Runs .start s (s.work.startReset.boot (fun b => { b with held := true, begun := true })))
      ∧ s.work.startReset.dev.boot.startNo = (s.dev.boot.startNo + 1) % 65536 ∧ s.work.startReset.dev.boot.flash = s.dev.boot.flash
      ∧ s.work.startReset.dev.boot.floors = s.dev.boot.floors ∧ s.work.startReset.dev.boot.journal = s.dev.boot.journal
      ∧ s.work.startReset.dev.graphs = [] ∧ s.work.startReset.dev.boot.mode = .booting)
    ∧ (∀ (k : Nat) (r : StepEnd) (e : JEntry), s.dev.boot.running.find? (fun e => e.step == k) = some e →
      let w := s.work.passTo (s.dev.boot.startBeat + (e.tUs + r.durUs) * 250)
      let q := w.stepResult k r
      (k ≠ 10 → k ≠ 11 → q = r) ∧ (w.badUnits k = [] → q = r) ∧ (w.badUnits k ≠ [] → q.pass = false) ∧
      (k = 7 → s.work.rb pgPm .pmStat 29 = false → Runs (.bootStepEnd k r) s s.work) ∧
      ((k = 7 → s.work.rb pgPm .pmStat 29 = true) →
      let sec := match typeOfStep k with
        | some t => ((w.dev.boot.image t (e.method / 128)).map (·.sec)).getD 0
        | none => q.detail % 2 ^ 64
      let e' := { e with
        result := if q.pass then 1 else 2, code := if q.pass then 0 else q.code % 65536, durUs := q.durUs % 2 ^ 32, detail := sec }
      let u := w.boot (fun b => { b with
        running := b.running.filter (fun x => x.step != k), journal := updFirst (fun x => x.seq == e.seq) (fun _ => e') b.journal })
      let v := if k = 12 then (u.upd (fun d => { d with ports := d.ports.map (fun p =>
        ({ p with links := updAll (fun l => q.detail / 2 ^ l.num % 2 == 1) (fun l => { l with state := .failed }) p.links } : Port).settled) })).linksEnd else u
      let carried (w : Work) := w.boot (fun b => { b with carried := b.carried ++ [(k, e.seq)] })
      (q.pass = true →
        let x := (v.passStep k (e.method % 2) (e.method / 128)).boot (fun b => { b with ended := b.ended ++ [k] })
        (k = 14 → Runs (.bootStepEnd k r) s x.enterService)
        ∧ (k ≠ 14 → Runs (.bootStepEnd k r) s (Work.runSteps 20 (x.dev.boot.follow k) x)))
      ∧ (q.pass = false → stepRequired k = false →
        let x := v.boot (fun b => { b with carried := b.carried ++ [(k, e.seq)], ended := b.ended ++ [k] })
        Runs (.bootStepEnd k r) s (Work.runSteps 20 (x.dev.boot.follow k) x))
      ∧ (q.pass = false → stepRequired k = true →
        let y := ((carried v).whenB (k == 10) (fun w => w.trained .hm w.variant.stacks (e.method % 2) q.detail q.code)).whenB (k == 11)
          (fun w => w.trained .dd w.variant.channels (e.method % 2) q.detail q.code)
        (e.attempt = 1 → Runs (.bootStepEnd k r) s (y.attempt k 2 (1 - e.method % 2)))
        ∧ (e.attempt ≠ 1 → Runs (.bootStepEnd k r) s (y.boot (fun b => { b with
            mode := .recovery, failStep := k, failCode := q.code % 256, running := [] }))))))
    ∧ (let due (e : JEntry) (b : Nat) : Prop := let t := s.dev.boot.startBeat + e.tUs * 250
        if e.step = 7 then s.work.rb pgPm .pmStat 29 = true ∧ b = max t s.dev.power.rampAt + 7500000000 else b = t + 7500000000
      ∀ (e : JEntry) (b : Nat), e ∈ s.dev.boot.running → due e b → (∀ f ∈ s.dev.boot.running, ∀ x : Nat, due f x → b ≤ x) →
        Runs .bootWatchdog s ((s.work.passTo b).beginStart))
    ∧ (∀ who : Agent,
      (Accepted s who pgBt .btCtl 0 1 →
        (s.dev.boot.mode = .recovery → Runs (.restart who) s ((s.work.journalNote 0 5).beginStart))
        ∧ (s.dev.boot.mode ≠ .recovery → Runs (.restart who) s s.work.beginStart))
      ∧ (Accepted s who pgBt .btCtl 0 2 → s.dev.boot.mode ≠ .booting → Runs (.resetPlan who) s (s.work.journalNote 0 5)))

/-- UPDATE_FLASH, UPDATE_THREAD, UPDATE_IMAGE_CHECK, FLOOR_RAISE and TAP_LEAVE_BYPASS. An accepted update, of a length an image
can have, with none in progress and no start under way, takes the target, address and length; a THREAD update needs the
device out of recovery. When the image has been read, it is checked in the order of the table: the first failing check's
code is the result, ERR_IMAGE_REFUSED is raised and no flash changes; an image that passes is loaded as a thread, or
replaces the image of its type in the slot that is not booted. An accepted floor write raises each named floor to the
security version in use, lowers none, and with a failed flash write raises ERR_GUARD and changes no floor. Leaving bypass
marks measurement 10. -/
def Obligations.UpdatesAreCheckedAndFloorsRise : Prop :=
  ∀ s : State,
    (∀ (who : Agent) (target : Nat) (i : Instr), (target, i) ∈ [(0, Instr.updateFlash who), (1, .updateThread who)] →
      Accepted s who pgBt .btUpdCtl 0 (atBit 1 31 ||| atBit target 0) →
      6144 ≤ s.work.rf pgBt .btUpdLen 25 0 → s.work.rf pgBt .btUpdLen 25 0 ≤ 33554432 →
      s.dev.boot.updTarget = none → s.dev.boot.mode ≠ .booting → (target = 1 → s.dev.boot.mode ≠ .recovery) →
      Runs i s ((s.work.storeRw pgBt (regOf pgBt .btUpdCtl) 0 (atBit 1 31 ||| atBit target 0)).boot (fun b => { b with
        updTarget := some target
        updAddr := (s.work.reg pgBt .btUpdLo).toNat + (s.work.reg pgBt .btUpdHi).toNat * 2 ^ 32
        updLen := s.work.rf pgBt .btUpdLen 25 0 })))
    ∧ (∀ (target : Nat) (flashError : Bool), s.dev.boot.updTarget = some target →
      let x := s.work.readHost s.dev.boot.updAddr s.dev.boot.updLen
      let w := x.2
      let img := (x.1.getD []).map (·.1)
      (x.1 = none → Runs (.updateImageCheck flashError) s w) ∧ (x.1.isSome = true →
      (∀ code : Nat, w.imageCode img (target == 1) flashError = some code →
        Runs (.updateImageCheck flashError) s ((w.boot (fun b => { b with updTarget := none, updResult := code })).raise pgBt .imageRefused
          ⟨1, none, codeNone, codeNone, leBytes 1 code⟩))
      ∧ (w.imageCode img (target == 1) flashError = none →
        let v := w.boot (fun b => { b with updTarget := none, updResult := 1 })
        (target = 1 → Runs (.updateImageCheck flashError) s (v.loadThread img))
        ∧ (target ≠ 1 → Runs (.updateImageCheck flashError) s (v.boot (fun b => { b with
            flash := (b.flash.filter (fun x => !(x.1 == imgType img && x.2.1 == b.updateSlot (imgType img))))
              ++ [(imgType img, b.updateSlot (imgType img), ⟨imgSec img, byteAt img 6, bytesAt img 16 8, imgBody img⟩)] }))))))
    ∧ (∀ (who : Agent) (key : Bool) (types : Nat) (flashError : Bool), types < 64 →
      Accepted s who pgBt .btFloorCtl 0 (atBit (b2n key) 8 ||| atBit types 0) → s.dev.boot.mode = .service →
      (∀ t < 6, types / 2 ^ t % 2 = 1 → (s.dev.boot.secOf t).isSome = true) →
      Runs (.floorRaise who key types flashError) s (s.work.raiseFloors key types flashError)
      ∧ (∀ t < 6, s.dev.boot.floors.getD t 0 ≤ (s.work.raiseFloors key types flashError).dev.boot.floors.getD t 0)
      ∧ (flashError = true → (s.work.raiseFloors key types flashError).dev.boot.floors = s.dev.boot.floors))
    ∧ RunsTo .tapLeaveBypass s { s.dev with boot := { s.dev.boot with tap := true } }

/-- MOD_EN, MOD_PG, PERST_N and VIN. MOD_EN that rises is noted with its beat; 20 ms on, OFF becomes LOW-POWER; 30 ms after that
MOD_PG asserts and a start begins. MOD_EN that falls, and VIN below 48.0 V, turn the module OFF: everything outside flash is
lost and MOD_PG deasserts. PERST_N that asserts ends the running start; once it deasserts, the start it held runs on the
next beat, or a new one begins. VIN above 70.0 V, or from 48.0 V to below 56.0 V, is reported and trips a module in FULL
with its cause: LOW-POWER, PM_TRIP, and what the dies held is lost; in any other state it is only reported. -/
def Obligations.PowerStatesChange : Prop :=
  ∀ s : State,
    (s.dev.power.modEn = false →
      RunsTo .modEnAssert s { s.dev with power := { s.dev.power with modEn := true, enAt := s.dev.beat } })
    ∧ (s.dev.power.state = .off → s.dev.power.modEn = true →
      let w := s.work.passTo (s.dev.power.enAt + 5000000)
      Runs .lowpowerEntry s (w.power (fun p => { p with state := .low, lowAt := w.dev.beat })))
    ∧ (s.dev.power.state = .low → s.dev.power.modPg = false →
      let w := s.work.passTo (s.dev.power.lowAt + 7500000)
      Runs .modPg s (((w.power (fun p => { p with modPg := true })).say (.pin 0 true)).beginStart))
    ∧ Runs .modEnDeassert s (s.work.power (fun p => { p with modEn := false })).goOff
    ∧ Runs .vinOff s s.work.goOff
    ∧ (∀ w : Work, w.goOff.dev.power.state = .off ∧ w.goOff.dev.power.modPg = false ∧ w.goOff.dev.boot.flash = w.dev.boot.flash
        ∧ w.goOff.dev.boot.journal = w.dev.boot.journal ∧ w.goOff.dev.graphs = [] ∧ w.goOff.dev.insts = []
        ∧ w.goOff.out = .clear 0 (2 ^ 48) :: w.out)
    ∧ (s.dev.power.perst = false →
      Runs .perstAssert s (((s.work.power (fun p => { p with perst := true })).setReg pgPx .pxLink 0).boot (fun b => { b with
        mode := .booting, running := [], held := true, begun := false })))
    ∧ (s.dev.power.perst = true →
      let w := s.work.power (fun p => { p with perst := false })
      (s.dev.boot.held = true → s.dev.boot.begun = true →
        Runs .perstDeassert s (Work.runSteps 20 [1] ((w.pass 1).boot (fun b => { b with held := false, begun := false }))))
      ∧ (s.dev.boot.held = true → s.dev.boot.begun = false → Runs .perstDeassert s (w.pass 1).beginStart)
      ∧ (s.dev.boot.held = false → Runs .perstDeassert s w))
    ∧ (∀ vin : Nat, let w := s.work.setRf pgPm .pmVin 31 16 vin
      (7000 < vin → Runs (.vinHigh vin) s (w.trip 6 0)) ∧ (vin ≤ 7000 → Runs (.vinHigh vin) s w)
      ∧ (4800 ≤ vin → vin < 5600 → Runs (.vinLow vin) s (w.trip 7 0)) ∧ (vin < 4800 ∨ 5600 ≤ vin → Runs (.vinLow vin) s w))
    ∧ (∀ (w : Work) (cause unit : Nat), (w.dev.power.state ≠ .full → w.trip cause unit = w)
      ∧ (w.dev.power.state = .full → w.trip cause unit
        = ((((w.power (fun p => { p with state := .low })).setRf pgPm .pmStat 31 31 1).setReg pgPm .pmTrip
            (atBit 1 31 ||| atBit (unit % 16) 8 ||| atBit cause 0)).loseDies).raise pgPm .trip ⟨3, none, codeNone, codeNone, []⟩))

/-- Flow, temperature, the power cap and the conditioned inputs and outputs. A flow reading is reported, sets FLOW_OK from 2.4
L/min up, and while the module is FULL starts or ends the low-flow times; after 1 s below 3.0 L/min ERR_FLOW_LOW is raised
once, and after 2 s below 2.4 L/min the module trips. A temperature reading is reported; with nothing at a limit it raises
nothing and asks for no skipped beats. Where a rule of the cap would break, the skip level rises at once to the lowest of 0 to
56 at which all three hold for the load, and where a lower level keeps them it falls by one step after 1 µs. An accepted edge is kept with its tick, counted, and
triggers a snapshot or a pulse where it is routed; one that comes too soon, or on a stuck input, is counted as dropped. A
level that lasts STUCK_US raises ERR_INPUT_STUCK and the input is ignored until the level has been inactive. PM_TRIG_OUT
pulses under SOURCE 1; PM_IN_CLR clears the drop counts of the named inputs. -/
def Obligations.SensorsCapAndPins : Prop :=
  ∀ s : State,
    (∀ flow : Nat, s.dev.power.state ≠ .off →
      let w := (s.work.setRf pgPm .pmFlow 15 0 (min flow 65535)).setRf pgPm .pmStat 29 29 (b2n (decide (240 ≤ flow)))
      let v := w.whenB (decide (240 ≤ flow) && !s.work.rb pgPm .pmStat 29) (fun w => w.power (fun p => { p with rampAt := w.dev.beat }))
      Runs (.flowSample flow) s (v.power (fun p => { p with
        flowCap := decide (s.dev.power.state = .full) && decide (flow < 240)
        lowFlow := p.lowFlow && decide (flow < 300)
        lowSince := if s.dev.power.state = .full ∧ flow < 300 then some (p.lowSince.getD s.dev.beat) else none
        tripSince := if s.dev.power.state = .full ∧ flow < 240 then some (p.tripSince.getD s.dev.beat) else none })))
    ∧ (∀ b : Nat, s.dev.power.lowSince = some b → s.dev.power.lowFlow = false →
      Runs .flowLow s (((s.work.passTo (b + 250000000)).power (fun p => { p with lowFlow := true })).raise pgPm .flowLow
        ⟨1, none, codeNone, codeNone, []⟩))
    ∧ (∀ b : Nat, s.dev.power.tripSince = some b → Runs .flowTrip s ((s.work.passTo (b + 500000000)).trip 4 0))
    ∧ (∀ t : Temps, s.dev.power.state ≠ .off → (∀ x ∈ t.dies, x ≤ 95) → (∀ x ∈ t.hbms, x < 100) → (∀ x ∈ t.dimms, x < 100) →
      t.vps < 110 → t.inlet ≤ 40 →
      ∃ d, RunsTo (.tempSample t) s d ∧ d.stock = s.dev.stock ∧ d.power.state = s.dev.power.state ∧ d.power.hotDies = []
        ∧ d.power.hotStacks = [] ∧ d.power.hotDimms = [] ∧ d.power.hotInlet = false ∧ d.power.inletDrop = 0 ∧ d.ctrs = s.dev.ctrs
        ∧ (s.dev.power.state = .full → s.dev.power.thermSkip.length = 4 → ∀ i < s.variant.dies, d.power.thermSkip[i]? = some 0)
        ∧ d.graphs = s.dev.graphs ∧ d.beat = s.dev.beat)
    ∧ (∀ power engine : Nat, s.dev.power.state = .full →
      let k := s.work.capLevel power engine
      let v := (s.work.drawAt power engine s.dev.power.capSkip).pass 250
      (s.dev.power.capSkip ≤ k → Runs (.capAdjust power engine) s (s.work.drawAt power engine k))
      ∧ (k < s.dev.power.capSkip → Runs (.capAdjust power engine) s (v.drawAt power engine (v.dev.power.capSkip - 1))))
    ∧ (∀ (now win cap : Nat) (since : Option Nat) (drawn : List (Nat × Nat)) (power engine : Nat),
      let holds (k : Nat) : Bool := rulesHold now win cap since drawn (loadAt power engine k)
      let lv := capLevel now win cap since drawn power engine
      lv ≤ 56 ∧ (∀ k < lv, holds k = false) ∧ ((∃ k, k ≤ 56 ∧ holds k = true) → holds lv = true))
    ∧ (∀ i tick : Nat, i < 5 → s.dev.power.state ≠ .off →
      let w := s.work.passToTime tick
      let v := w.setInput i (fun x => { x with level := true, since := tick })
      let soon : Bool := match (w.input i).lastEdge with
        | some t => decide (tick < t + w.rf pgPm .pmInCfg 31 16 i)
        | none => false
      ((w.input i).stuck = true ∨ soon = true → Runs (.inputEdge i tick) s (v.setInput i dropEdge))
      ∧ ((w.input i).stuck = false → soon = false →
        let x := (v.setInput i (fun x => { x with lastEdge := some tick })).count pgPm 4
        (i = 0 → Runs (.inputEdge i tick) s x)
        ∧ (i ≠ 0 → let y := x.whenB (bitOf (x.reg pgSk .skCfg) (23 + i)) (fun w => w.trigger 2)
          Runs (.inputEdge i tick) s (y.whenB (y.rf pgPm .pmTrigOut 2 0 (i - 1) == 3) (fun w => w.pulse i)))))
    ∧ (∀ i : Nat, i < 5 → (s.work.input i).level = true → (s.work.input i).stuck = false →
      Runs (.inputStuck i) s (((s.work.passToTime ((s.work.input i).since + s.work.rf pgPm .pmInCfg 14 0 i * 1000)).setInput i
        (fun x => { x with stuck := true })).raise pgPm .inputStuck ⟨1, none, i, codeNone, []⟩))
    ∧ (∀ i : Nat, i < 5 → (s.work.input i).stuck = true →
      Runs (.inputUnstuck i) s (s.work.setInput i (fun x => { x with stuck := false, level := false })))
    ∧ (∀ (who : Agent) (k : Nat), k < 4 → Accepted s who pgPm .pmTrigOut k (atBit 1 31 ||| atBit 1 0) →
      Runs (.trigOutPulse who k 1) s ((s.work.storeRw pgPm (regOf pgPm .pmTrigOut) k (atBit 1 31 ||| atBit 1 0)).pulse (k + 1)))
    ∧ (∀ (who : Agent) (mask : Nat), Accepted s who pgPm .pmInClr 0 (BitVec.ofNat 32 mask) →
      Runs (.pmInClr who mask) s (s.work.each (List.range 5) (fun k w =>
        if bitOf (BitVec.ofNat 32 mask) k then w.setInput k (fun x => { x with drops := 0 }) else w)))

/-- SK_TRIGGER, SK_ARM_AT, SK_DISARM, SK_RELEASE, SK_AT_ORDER, SNAPSHOT_LATCH, LOG_WRITE and the counter commands. An accepted
trigger latches 24 beats on, joins a snapshot already pending, or is discarded and counted while the last one is HELD.
ARM_AT takes SK_AT with at least 24 beats to go, and otherwise latches late; it is rejected while a time is armed, unless DISARM goes
with it; DISARM drops what is armed, RELEASE clears
HELD. The order of an armed time leaves 24 beats before it. The latch raises SK_SEQ, keeps every page's status, the counters
and the time, and pulses what is routed to it; a time trigger that falls while HELD is discarded. The log writes the oldest
queued record into the ring and advances its head, discards it when the ring holds 4,096, and sets ERR_FIRST of a page whose
error stands without one. COUNTER_CLEAR zeroes a page's counters and keeps FREEZE; a read of a low word gives that word and
latches the high one for the reader. -/
def Obligations.SnapshotsLogAndCounters : Prop :=
  ∀ s : State,
    (∀ who : Agent,
      (Accepted s who pgSk .skCtl 0 1 →
        (s.work.rb pgSk .skStat 30 = true → Runs (.skTrigger who) s (s.work.count pgSk 2))
        ∧ (s.work.rb pgSk .skStat 30 = false → s.dev.stock.pending ≠ [] → Runs (.skTrigger who) s (s.work.count pgSk 1))
        ∧ (s.work.rb pgSk .skStat 30 = false → s.dev.stock.pending = [] →
          RunsTo (.skTrigger who) s { s.dev with stock := { s.dev.stock with pending := [⟨s.dev.beat + 24, 1, false⟩] } }))
      ∧ (Accepted s who pgSk .skCtl 0 2 → s.dev.stock.armed = none →
        (s.dev.time + 96 ≤ roundUp s.work.skAt 4 → RunsTo (.skArmAt who false) s { s.dev with
          stock := { s.dev.stock with armed := some (roundUp s.work.skAt 4), armLate := false } })
        ∧ (roundUp s.work.skAt 4 < s.dev.time + 96 → RunsTo (.skArmAt who false) s { s.dev with stock := { s.dev.stock with
          armed := some (roundUp s.work.skAt 4), armLate := true, pending := s.dev.stock.pending ++ [⟨s.dev.beat + 24, 3, true⟩] } }))
      ∧ (Accepted s who pgSk .skCtl 0 2 → s.dev.stock.armed.isSome = true → RunsTo (.skArmAt who false) s { s.dev with
          rejs := put 0 (rejKey pgSk who) (atBit 1 31 ||| atBit (at_ pgSk .skCtl % 0x1000) 16 ||| atBit Rej.state.code 0) s.dev.rejs })
      ∧ (Accepted s who pgSk .skCtl 0 10 → Runs (.skArmAt who true) s s.work.disarm.armAt)
      ∧ (Accepted s who pgSk .skCtl 0 8 → RunsTo (.skDisarm who) s { s.dev with stock := { s.dev.stock with
          armed := none, armLate := false, pending := s.dev.stock.pending.filter (fun p => !p.timed) } })
      ∧ (Accepted s who pgSk .skCtl 0 4 → Runs (.skRelease who) s (s.work.setRf pgSk .skStat 30 30 0)))
    ∧ (∀ t : Nat, s.dev.stock.armed = some t → s.dev.stock.pending.any (·.timed) = false → s.dev.counting = true →
      let w := s.work.passToTime (t - 96)
      Runs .skAtOrder s (w.stock (fun x => { x with pending := x.pending ++ [⟨w.dev.beat + w.beatsTo t, 3, true⟩] })))
    ∧ (∀ p : Pending, firstPending s.dev.stock.pending = some p →
      let w := (s.work.passTo p.beat).stock (fun x => { x with pending := x.pending.erase p })
      (p.timed = true → w.rb pgSk .skStat 30 = true →
        Runs .snapshotLatch s ((w.stock (fun x => { x with armed := none, armLate := false })).count pgSk 2))
      ∧ (p.timed = false ∨ w.rb pgSk .skStat 30 = false → Runs .snapshotLatch s (w.latch p)
        ∧ (w.latch p).dev.stock.snap = some ⟨w.reg pgSk .skSeq + 1, w.dev.time, w.allStats, w.gatedPages, w.dev.ctrs⟩))
    ∧ (∀ (r : ErrRec) (rest : List ErrRec), s.dev.stock.queue = r :: rest →
      let w := (s.work.passTo s.dev.stock.logAt).stock (fun x => { x with
        queue := rest, logAt := (s.work.passTo s.dev.stock.logAt).dev.beat + 1 })
      let head := w.reg pgSk .skLogHead
      (serialDiff head.toNat (w.reg pgSk .skLogTail).toNat = 4096 → Runs .logWrite s (w.count pgSk 4))
      ∧ (∀ p : Page, serialDiff head.toNat (w.reg pgSk .skLogTail).toNat ≠ 4096 → pageAt r.page = some p →
        let v := (w.stock (fun x => { x with log := put [] (head.toNat % 4096) r.bytes x.log })).setReg pgSk .skLogHead (head + 1)
        Runs .logWrite s (v.whenB (!v.rb p .errFirst 31 && v.reg p .errStat != 0)
          (fun w => w.setReg p .errFirst (atBit 1 31 ||| atBit (head.toNat % 4096 * 32) 0)))))
    ∧ (∀ (who : Agent) (p : Page) (page : Nat) (freeze : Bool), cntCtlOff page = at_ p .cntCtl →
      Accepted s who p .cntCtl 0 (1 ||| atBit (b2n freeze) 1) →
      Runs (.counterClear who page freeze) s
        ((s.work.storeRw p (regOf p .cntCtl) 0 (1 ||| atBit (b2n freeze) 1)).clearCounters p)
      ∧ (∀ k, p.base ≤ k → k < p.base + 0x1000 →
        look (0, false) k ((s.work.storeRw p (regOf p .cntCtl) 0 (1 ||| atBit (b2n freeze) 1)).clearCounters p).dev.ctrs = (0, false)))
    ∧ (∀ (fn i : Nat) (p : Page) (r : Reg), s.work.answers (.fn fn) = true → pageAt (p.base + r.off + r.stride * i) = some p →
      findReg (pageRegs p.block) ((p.base + r.off + r.stride * i) % 0x1000) = some (r, i) → (p.base + r.off + r.stride * i) % 4 = 0 →
      p.present s.variant = true → s.work.pageOffline (some p) = false → s.work.maySee p r i (.fn fn) = true → s.work.pageOn p = true →
      let off := p.base + r.off + r.stride * i
      let w := s.work.count pgPx 0
      (r.id = .cntLo → w.variant = s.variant → w.pageOffline (some p) = false → w.maySee p r i (.fn fn) = true → w.pageOn p = true →
        Runs (.counterLoRead (.fn fn) off) s
          ((w.latchHi (off + 4) (.fn fn) (w.value p .cntHi i (.fn fn))).say (.completion fn (leBytes 4 (s.work.peek off (.fn fn)).toNat) false)))
      ∧ (r.id = .crTimeLo → off = pgCr.base + 0x100 → w.variant = s.variant → w.pageOffline (some p) = false →
        w.maySee p r i (.fn fn) = true → w.pageOn p = true →
        Runs (.crTimeLoRead (.fn fn)) s
          ((w.latchHi (off + 4) (.fn fn) (w.value p .crTimeHi i (.fn fn))).say (.completion fn (leBytes 4 (s.work.peek off (.fn fn)).toNat) false))))

/-- An unoccupied BAR0 page reads 0 and rejects every write. R397: at every DWORD of a page of BAR0 that no unit occupies, on
any variant and for any agent that answers, a read gives 0; every write, whatever its byte enables, changes nothing but the
hub page's record of it: the writer's REJ_INFO of the hub page holds VALID, the offset within the page and REJ_ABSENT, and
its HUB_REJ_ADDR holds VALID and the page's base. -/
def Obligations.UnoccupiedPageReadsZeroAndRejects : Prop :=
  ∀ (s : State) (who : Agent) (off : Nat) (v : Word) (be : Nat), s.work.answers who = true → off % 4 = 0 → off + 4 ≤ 2 ^ 26 →
    pageAt off = none → be % 16 ≠ 0 →
    (s.work.readReg off who).1 = 0
    ∧ RunsTo (.registerWrite who 0 off 4 v.toNat be) s { s.dev with
        rejs := put 0 (rejKey pgHub who) (atBit 1 31 ||| atBit (off % 0x1000) 16 ||| atBit Rej.absent.code 0) s.dev.rejs
        hubRej := put 0 (writerOf who) (atBit 1 31 ||| atBit (off / 0x1000 * 0x1000) 0) s.dev.hubRej }

/-- SK_LOG_TAIL. R493: an accepted write of SK_LOG_TAIL with a value behind the tail, or ahead of the head, in serial order, is
rejected with REJ_RANGE and changes nothing but the rejection record; any other value becomes the tail and nothing else
changes: in particular ERR_FIRST of every page keeps its value. -/
def Obligations.LogTailAdvancesWithinTheLog : Prop :=
  ∀ (s : State) (who : Agent) (tail : Nat), Accepted s who pgSk .skLogTail 0 (BitVec.ofNat 32 tail) →
    let v : Word := BitVec.ofNat 32 tail
    let bad := serialDiff v.toNat (s.work.reg pgSk .skLogTail).toNat < 0 ∨ serialDiff (s.work.reg pgSk .skLogHead).toNat v.toNat < 0
    (bad → RunsTo (.skLogTail who tail) s { s.dev with
        rejs := put 0 (rejKey pgSk who) (atBit 1 31 ||| atBit (at_ pgSk .skLogTail % 0x1000) 16 ||| atBit Rej.range.code 0) s.dev.rejs })
    ∧ (¬ bad → ∃ d, RunsTo (.skLogTail who tail) s d
        ∧ d = { s.dev with regs := put (resetOf s.variant .skLogTail 0 .sk) (regOff pgSk .skLogTail 0) v s.dev.regs }
        ∧ ∀ p : Page, regOff p .errFirst 0 ≠ regOff pgSk .skLogTail 0 →
          look (resetOf s.variant .errFirst 0 p.block) (regOff p .errFirst 0) d.regs = s.work.reg p .errFirst)
end

