-- ==== Sys2Proof/Laws/Memory.lean ====
section
/-! SUPPORT. Sparse maps and memory: a look after a put, and the canonical form that every operation keeps. -/

namespace Sys2Proof.Machine

section
variable {α : Type} [DecidableEq α]

theorem canonFrom_mono {d : α} {lo lo' : Nat} (h : lo' ≤ lo) : ∀ {m : SMap α}, canonFrom d lo m = true → canonFrom d lo' m = true
  | [], _ => rfl
  | (k, v) :: t, hm => by
    simp only [canonFrom, Bool.and_eq_true, decide_eq_true_eq] at hm ⊢
    exact ⟨⟨Nat.le_trans h hm.1.1, hm.1.2⟩, hm.2⟩

theorem canonFrom_put {d : α} {k : Nat} {v : α} : ∀ {m : SMap α} {lo : Nat}, lo ≤ k →
    canonFrom d lo m = true → canonFrom d lo (put d k v m) = true
  | [], lo, hk, _ => by
    by_cases hv : v = d <;> simp [put, hv, canonFrom, hk]
  | (k', v') :: t, lo, hk, hm => by
    simp only [canonFrom, Bool.and_eq_true, decide_eq_true_eq] at hm
    obtain ⟨⟨h1, h2⟩, h3⟩ := hm
    unfold put
    split
    · split
      · simp [canonFrom, h1, h2, h3]
      · rename_i hlt hv
        simp only [canonFrom, Bool.and_eq_true, decide_eq_true_eq]
        exact ⟨⟨hk, hv⟩, ⟨hlt, h2⟩, h3⟩
    · split
      · split
        · exact canonFrom_mono (Nat.le_trans h1 (Nat.le_succ _)) h3
        · rename_i heq hv
          subst heq
          simp [canonFrom, h1, hv, h3]
      · rename_i hlt hne
        simp only [canonFrom, Bool.and_eq_true, decide_eq_true_eq]
        exact ⟨⟨h1, h2⟩, canonFrom_put (by omega) h3⟩

/-- Setting one key keeps the canonical form. -/
theorem canon_put {d : α} {k : Nat} {v : α} {m : SMap α} (h : canon d m = true) : canon d (put d k v m) = true :=
  canonFrom_put (Nat.zero_le _) h

theorem canonFrom_filter {d : α} (p : Nat × α → Bool) : ∀ {m : SMap α} {lo : Nat},
    canonFrom d lo m = true → canonFrom d lo (m.filter p) = true
  | [], _, _ => rfl
  | (k, v) :: t, lo, hm => by
    simp only [canonFrom, Bool.and_eq_true, decide_eq_true_eq] at hm
    obtain ⟨⟨h1, h2⟩, h3⟩ := hm
    rw [List.filter_cons]
    split
    · simp only [canonFrom, Bool.and_eq_true, decide_eq_true_eq]
      exact ⟨⟨h1, h2⟩, canonFrom_filter p h3⟩
    · exact canonFrom_filter p (canonFrom_mono (Nat.le_trans h1 (Nat.le_succ _)) h3)

/-- Dropping a range of keys keeps the canonical form. -/
theorem canon_dropRange {d : α} {lo hi : Nat} {m : SMap α} (h : canon d m = true) : canon d (dropRange lo hi m) = true :=
  canonFrom_filter _ h

theorem look_of_canonFrom_lt {d : α} {k : Nat} : ∀ {m : SMap α} {lo : Nat}, canonFrom d lo m = true → k < lo → look d k m = d
  | [], _, _, _ => rfl
  | (k', v') :: t, lo, hm, hk => by
    simp only [canonFrom, Bool.and_eq_true, decide_eq_true_eq] at hm
    have hne : k' ≠ k := by omega
    simp only [look, hne, if_false]
    exact look_of_canonFrom_lt hm.2 (by omega)

/-- A read of the key last set gives what was set. -/
theorem look_put_self {d : α} {k : Nat} {v : α} : ∀ {m : SMap α} {lo : Nat}, canonFrom d lo m = true → look d k (put d k v m) = v
  | [], _, _ => by by_cases hv : v = d <;> simp [put, hv, look]
  | (k', v') :: t, lo, hm => by
    simp only [canonFrom, Bool.and_eq_true, decide_eq_true_eq] at hm
    obtain ⟨⟨h1, h2⟩, h3⟩ := hm
    unfold put
    split
    · rename_i hlt
      split
      · rename_i hv
        rw [hv]
        have hne : k' ≠ k := by omega
        simp only [look, hne, if_false]
        exact look_of_canonFrom_lt h3 (by omega)
      · simp [look]
    · split
      · rename_i heq
        subst heq
        split
        · rename_i hv
          rw [hv]; exact look_of_canonFrom_lt h3 (Nat.lt_succ_self _)
        · simp [look]
      · rename_i hne
        have hne' : k' ≠ k := fun h => hne h.symm
        simp only [look, hne', if_false]
        exact look_put_self h3

/-- Setting one key leaves every other key's value. -/
theorem look_put_of_ne {d : α} {k j : Nat} {v : α} (h : j ≠ k) : ∀ {m : SMap α}, look d j (put d k v m) = look d j m
  | [] => by
    have h' : k ≠ j := fun e => h e.symm
    by_cases hv : v = d <;> simp [put, hv, look, h']
  | (k', v') :: t => by
    have h' : k ≠ j := fun e => h e.symm
    unfold put
    split
    · split
      · rfl
      · simp [look, h']
    · split
      · rename_i heq
        subst heq
        split <;> simp [look, h']
      · simp only [look]
        split
        · rfl
        · exact look_put_of_ne h

end

/-! ### Memory -/

theorem Memory.wf_iff (m : Mem) : Memory.wf m ↔ canon (0 : Byte) m.cells = true ∧ canon false m.poison = true
    ∧ canon false m.dead = true ∧ canon (0 : Byte) m.host = true ∧ canon false m.hostPoison = true := by
  simp [Memory.wf, Bool.and_eq_true, and_assoc]

/-- One write keeps the canonical form. -/
theorem Memory.wf_write {m : Mem} (x : Write) (h : Memory.wf m) : Memory.wf (m.write x) := by
  rw [Memory.wf_iff] at h ⊢
  obtain ⟨h1, h2, h3, h4, h5⟩ := h
  cases x with
  | byte host a v => cases host with
    | false => exact ⟨canon_put h1, h2, h3, h4, h5⟩
    | true => exact ⟨h1, h2, h3, canon_put h4, h5⟩
  | poison host g b => cases host with
    | false => exact ⟨h1, canon_put h2, h3, h4, h5⟩
    | true => exact ⟨h1, h2, h3, h4, canon_put h5⟩
  | dead g b => exact ⟨h1, h2, canon_put h3, h4, h5⟩
  | clear lo hi => exact ⟨canon_dropRange h1, canon_dropRange h2, canon_dropRange h3, h4, h5⟩

/-- A command's writes keep the canonical form. -/
theorem Memory.wf_writeAll {m : Mem} (ws : List Write) (h : Memory.wf m) : Memory.wf (m.writeAll ws) := by
  induction ws with
  | nil => exact h
  | cons x t ih => exact Memory.wf_write x ih

@[simp] theorem Mem.writeAll_nil (m : Mem) : m.writeAll [] = m := rfl
@[simp] theorem Mem.writeAll_cons (m : Mem) (x : Write) (t : List Write) : m.writeAll (x :: t) = (m.writeAll t).write x := rfl
theorem Mem.writeAll_append (m : Mem) (a b : List Write) : m.writeAll (a ++ b) = (m.writeAll b).writeAll a := by
  simp [Mem.writeAll, List.foldr_append]

end Sys2Proof.Machine
end

