-- ==== Sys2Proof/Laws/State.lean ====
section
/-! SUPPORT. One lemma per named update of the working view, so that no proof unfolds one; and what a run of a command does to the
parts of the state. -/

namespace Sys2Proof.Machine

/-! ### The run of a command -/

@[simp] theorem State.work_variant (s : State) : s.work.variant = s.variant := rfl
@[simp] theorem State.work_mem (s : State) : s.work.mem = s.mem := rfl
@[simp] theorem State.work_dev (s : State) : s.work.dev = s.dev := rfl
@[simp] theorem State.work_out (s : State) : s.work.out = [] := rfl

/-- Everything a run can answer: one next state, with the queue and the ordering code as they were. -/
theorem State.run_eq_next_iff (f : Work → Work) (s t : State) :
    s.run f = .next t ↔ t = { s with mem := s.mem.writeAll (f s.work).out, dev := (f s.work).dev } :=
  ⟨fun h => by simp only [State.run, Host.Outcome.next.injEq] at h; exact h.symm, fun h => by rw [h]; rfl⟩

theorem State.run_pending {f : Work → Work} {s t : State} (h : s.run f = .next t) : t.pending = s.pending := by
  rw [State.run_eq_next_iff] at h; rw [h]

theorem State.run_variant {f : Work → Work} {s t : State} (h : s.run f = .next t) : t.variant = s.variant := by
  rw [State.run_eq_next_iff] at h; rw [h]

theorem State.run_mem {f : Work → Work} {s t : State} (h : s.run f = .next t) : t.mem = s.mem.writeAll (f s.work).out := by
  rw [State.run_eq_next_iff] at h; rw [h]

theorem State.run_dev {f : Work → Work} {s t : State} (h : s.run f = .next t) : t.dev = (f s.work).dev := by
  rw [State.run_eq_next_iff] at h; rw [h]

/-- A change of the view that writes nothing runs to the state with its device alone changed. -/
theorem State.run_of_out_nil {f : Work → Work} {s : State} (h : (f s.work).out = []) :
    s.run f = .next { s with dev := (f s.work).dev } := by
  simp [State.run, h, Mem.writeAll]

/-! ### Updates of the view -/

@[simp] theorem Work.upd_dev (w : Work) (f : Dev → Dev) : (w.upd f).dev = f w.dev := rfl
@[simp] theorem Work.upd_mem (w : Work) (f : Dev → Dev) : (w.upd f).mem = w.mem := rfl
@[simp] theorem Work.upd_out (w : Work) (f : Dev → Dev) : (w.upd f).out = w.out := rfl
@[simp] theorem Work.upd_variant (w : Work) (f : Dev → Dev) : (w.upd f).variant = w.variant := rfl

@[simp] theorem Work.emit_dev (w : Work) (l : List Write) : (w.emit l).dev = w.dev := rfl
@[simp] theorem Work.emit_mem (w : Work) (l : List Write) : (w.emit l).mem = w.mem := rfl
@[simp] theorem Work.emit_out (w : Work) (l : List Write) : (w.emit l).out = l ++ w.out := rfl
@[simp] theorem Work.emit_variant (w : Work) (l : List Write) : (w.emit l).variant = w.variant := rfl

@[simp] theorem Work.whenB_true (w : Work) (f : Work → Work) : w.whenB true f = f w := rfl
@[simp] theorem Work.whenB_false (w : Work) (f : Work → Work) : w.whenB false f = w := rfl

@[simp] theorem Work.each_nil {α : Type} (w : Work) (f : α → Work → Work) : w.each [] f = w := rfl
@[simp] theorem Work.each_cons {α : Type} (w : Work) (x : α) (l : List α) (f : α → Work → Work) :
    w.each (x :: l) f = (f x w).each l f := rfl

@[simp] theorem Work.say_dev (w : Work) (m : Sent) : (w.say m).dev = { w.dev with sent := w.dev.sent ++ [m] } := rfl
@[simp] theorem Work.say_mem (w : Work) (m : Sent) : (w.say m).mem = w.mem := rfl
@[simp] theorem Work.say_out (w : Work) (m : Sent) : (w.say m).out = w.out := rfl
@[simp] theorem Work.say_variant (w : Work) (m : Sent) : (w.say m).variant = w.variant := rfl

@[simp] theorem Work.draw_fst (w : Work) : w.draw.1 = Config.freeValue w.dev.free := rfl
@[simp] theorem Work.draw_dev (w : Work) : w.draw.2.dev = { w.dev with free := w.dev.free + 1 } := rfl
@[simp] theorem Work.draw_mem (w : Work) : w.draw.2.mem = w.mem := rfl
@[simp] theorem Work.draw_out (w : Work) : w.draw.2.out = w.out := rfl
@[simp] theorem Work.draw_variant (w : Work) : w.draw.2.variant = w.variant := rfl

@[simp] theorem Work.seed_dev (w : Work) : w.seed.2.dev = { w.dev with free := w.dev.free + 1 } := rfl
@[simp] theorem Work.seed_mem (w : Work) : w.seed.2.mem = w.mem := rfl
@[simp] theorem Work.seed_out (w : Work) : w.seed.2.out = w.out := rfl
@[simp] theorem Work.seed_variant (w : Work) : w.seed.2.variant = w.variant := rfl

@[simp] theorem Work.fresh_fst (w : Work) : w.fresh.1 = w.dev.nextId := rfl
@[simp] theorem Work.fresh_dev (w : Work) : w.fresh.2.dev = { w.dev with nextId := w.dev.nextId + 1 } := rfl
@[simp] theorem Work.fresh_mem (w : Work) : w.fresh.2.mem = w.mem := rfl
@[simp] theorem Work.fresh_out (w : Work) : w.fresh.2.out = w.out := rfl
@[simp] theorem Work.fresh_variant (w : Work) : w.fresh.2.variant = w.variant := rfl

@[simp] theorem Work.setReg_dev (w : Work) (p : Page) (id : RegId) (x : Word) (i : Nat) :
    (w.setReg p id x i).dev
      = { w.dev with regs := put (resetOf w.variant id i p.block) (regOff p id i) x w.dev.regs } := rfl
@[simp] theorem Work.setReg_mem (w : Work) (p : Page) (id : RegId) (x : Word) (i : Nat) : (w.setReg p id x i).mem = w.mem := rfl
@[simp] theorem Work.setReg_out (w : Work) (p : Page) (id : RegId) (x : Word) (i : Nat) : (w.setReg p id x i).out = w.out := rfl
@[simp] theorem Work.setReg_variant (w : Work) (p : Page) (id : RegId) (x : Word) (i : Nat) :
    (w.setReg p id x i).variant = w.variant := rfl

@[simp] theorem Work.setRf_dev (w : Work) (p : Page) (id : RegId) (hi lo x i : Nat) :
    (w.setRf p id hi lo x i).dev = (w.setReg p id (setFld (w.reg p id i) hi lo x) i).dev := rfl
@[simp] theorem Work.setRf_mem (w : Work) (p : Page) (id : RegId) (hi lo x i : Nat) : (w.setRf p id hi lo x i).mem = w.mem := rfl
@[simp] theorem Work.setRf_out (w : Work) (p : Page) (id : RegId) (hi lo x i : Nat) : (w.setRf p id hi lo x i).out = w.out := rfl
@[simp] theorem Work.setRf_variant (w : Work) (p : Page) (id : RegId) (hi lo x i : Nat) :
    (w.setRf p id hi lo x i).variant = w.variant := rfl

@[simp] theorem Work.setQreg_dev (w : Work) (q : Nat) (id : RegId) (x : Word) :
    (w.setQreg q id x).dev = { w.dev with regs := put (resetOf w.variant id 0 .hub) (qOff q id) x w.dev.regs } := rfl
@[simp] theorem Work.setQreg_mem (w : Work) (q : Nat) (id : RegId) (x : Word) : (w.setQreg q id x).mem = w.mem := rfl
@[simp] theorem Work.setQreg_out (w : Work) (q : Nat) (id : RegId) (x : Word) : (w.setQreg q id x).out = w.out := rfl
@[simp] theorem Work.setQreg_variant (w : Work) (q : Nat) (id : RegId) (x : Word) : (w.setQreg q id x).variant = w.variant := rfl

@[simp] theorem Work.setCore_dev (w : Work) (n : Nat) (c : Core) :
    (w.setCore n c).dev = { w.dev with cores := updAt (fun _ => c) n w.dev.cores } := rfl
@[simp] theorem Work.setCore_mem (w : Work) (n : Nat) (c : Core) : (w.setCore n c).mem = w.mem := rfl
@[simp] theorem Work.setCore_out (w : Work) (n : Nat) (c : Core) : (w.setCore n c).out = w.out := rfl
@[simp] theorem Work.setCore_variant (w : Work) (n : Nat) (c : Core) : (w.setCore n c).variant = w.variant := rfl

end Sys2Proof.Machine
end

