-- ==== Sys2Proof/Laws/Ops.lean ====
section
/-! SUPPORT. What the shared operations can change: for each, one equation that names every field it may touch, and from it the
fields it keeps. A proof cites these and never unfolds the operation. -/

namespace Sys2Proof.Machine

/-- A view equals another but for the parts of the device in which counting, messages and interrupts are recorded. -/
def Work.recorded (w v : Work) : Work :=
  { w with dev := { w.dev with regs := v.dev.regs, ctrs := v.dev.ctrs, msixPend := v.dev.msixPend, sent := v.dev.sent } }

/-- The same with the control cores' schedulers. -/
def Work.recordedC (w v : Work) : Work := { w.recorded v with dev := { (w.recorded v).dev with cores := v.dev.cores } }

/-- The same with the snapshot and log engine. -/
def Work.recordedS (w v : Work) : Work := { w.recordedC v with dev := { (w.recordedC v).dev with stock := v.dev.stock } }

/-- The same with the time that passes. -/
def Work.recordedT (w v : Work) : Work :=
  { w.recordedC v with dev := { (w.recordedC v).dev with
      beat := v.dev.beat, time := v.dev.time, crier := { w.dev.crier with hold := v.dev.crier.hold } } }

theorem Work.recorded_trans {w v x : Work} (h : v = w.recorded v) (h' : x = v.recorded x) : x = w.recorded x := by
  rw [h'] ; rw [h] ; rfl
theorem Work.recordedC_trans {w v x : Work} (h : v = w.recordedC v) (h' : x = v.recordedC x) : x = w.recordedC x := by
  rw [h'] ; rw [h] ; rfl
theorem Work.recordedS_trans {w v x : Work} (h : v = w.recordedS v) (h' : x = v.recordedS x) : x = w.recordedS x := by
  rw [h'] ; rw [h] ; rfl
theorem Work.recordedT_trans {w v x : Work} (h : v = w.recordedT v) (h' : x = v.recordedT x) : x = w.recordedT x := by
  rw [h'] ; rw [h] ; rfl

theorem Work.recordedC_of {w v : Work} (h : v = w.recorded v) : v = w.recordedC v := by rw [h]; rfl
theorem Work.recordedS_of {w v : Work} (h : v = w.recordedC v) : v = w.recordedS v := by rw [h]; rfl
theorem Work.recordedT_of {w v : Work} (h : v = w.recordedC v) : v = w.recordedT v := by rw [h]; rfl

theorem Work.each_recordedC {α : Type} (l : List α) (f : α → Work → Work) (h : ∀ x w, f x w = w.recordedC (f x w)) :
    ∀ w : Work, w.each l f = w.recordedC (w.each l f) := by
  induction l with
  | nil => intro w; rfl
  | cons x t ih => intro w; exact Work.recordedC_trans (h x w) (ih (f x w))

theorem Work.whenB_recordedC (w : Work) (c : Bool) (f : Work → Work) (h : f w = w.recordedC (f w)) :
    w.whenB c f = w.recordedC (w.whenB c f) := by
  cases c
  · rfl
  · exact h

@[simp] theorem Work.recorded_out (w v : Work) : (w.recorded v).out = w.out := rfl
@[simp] theorem Work.recorded_mem (w v : Work) : (w.recorded v).mem = w.mem := rfl
@[simp] theorem Work.recorded_variant (w v : Work) : (w.recorded v).variant = w.variant := rfl
@[simp] theorem Work.recorded_beat (w v : Work) : (w.recorded v).dev.beat = w.dev.beat := rfl
@[simp] theorem Work.recorded_time (w v : Work) : (w.recorded v).dev.time = w.dev.time := rfl
@[simp] theorem Work.recorded_counting (w v : Work) : (w.recorded v).dev.counting = w.dev.counting := rfl
@[simp] theorem Work.recorded_free (w v : Work) : (w.recorded v).dev.free = w.dev.free := rfl
@[simp] theorem Work.recorded_nextId (w v : Work) : (w.recorded v).dev.nextId = w.dev.nextId := rfl
@[simp] theorem Work.recorded_graphs (w v : Work) : (w.recorded v).dev.graphs = w.dev.graphs := rfl
@[simp] theorem Work.recorded_admissions (w v : Work) : (w.recorded v).dev.admissions = w.dev.admissions := rfl
@[simp] theorem Work.recorded_insts (w v : Work) : (w.recorded v).dev.insts = w.dev.insts := rfl
@[simp] theorem Work.recorded_clusters (w v : Work) : (w.recorded v).dev.clusters = w.dev.clusters := rfl
@[simp] theorem Work.recorded_fetches (w v : Work) : (w.recorded v).dev.fetches = w.dev.fetches := rfl
@[simp] theorem Work.recorded_deals (w v : Work) : (w.recorded v).dev.deals = w.dev.deals := rfl
@[simp] theorem Work.recorded_due (w v : Work) : (w.recorded v).dev.due = w.dev.due := rfl
@[simp] theorem Work.recorded_sync (w v : Work) : (w.recorded v).dev.sync = w.dev.sync := rfl
@[simp] theorem Work.recorded_crier (w v : Work) : (w.recorded v).dev.crier = w.dev.crier := rfl
@[simp] theorem Work.recorded_ports (w v : Work) : (w.recorded v).dev.ports = w.dev.ports := rfl
@[simp] theorem Work.recorded_exch (w v : Work) : (w.recorded v).dev.exch = w.dev.exch := rfl
@[simp] theorem Work.recorded_cores (w v : Work) : (w.recorded v).dev.cores = w.dev.cores := rfl
@[simp] theorem Work.recorded_boot (w v : Work) : (w.recorded v).dev.boot = w.dev.boot := rfl
@[simp] theorem Work.recorded_power (w v : Work) : (w.recorded v).dev.power = w.dev.power := rfl
@[simp] theorem Work.recorded_stock (w v : Work) : (w.recorded v).dev.stock = w.dev.stock := rfl
@[simp] theorem Work.recorded_flrBusy (w v : Work) : (w.recorded v).dev.flrBusy = w.dev.flrBusy := rfl

@[simp] theorem Work.recordedC_out (w v : Work) : (w.recordedC v).out = w.out := rfl
@[simp] theorem Work.recordedC_mem (w v : Work) : (w.recordedC v).mem = w.mem := rfl
@[simp] theorem Work.recordedC_variant (w v : Work) : (w.recordedC v).variant = w.variant := rfl
@[simp] theorem Work.recordedC_beat (w v : Work) : (w.recordedC v).dev.beat = w.dev.beat := rfl
@[simp] theorem Work.recordedC_time (w v : Work) : (w.recordedC v).dev.time = w.dev.time := rfl
@[simp] theorem Work.recordedC_counting (w v : Work) : (w.recordedC v).dev.counting = w.dev.counting := rfl
@[simp] theorem Work.recordedC_free (w v : Work) : (w.recordedC v).dev.free = w.dev.free := rfl
@[simp] theorem Work.recordedC_nextId (w v : Work) : (w.recordedC v).dev.nextId = w.dev.nextId := rfl
@[simp] theorem Work.recordedC_graphs (w v : Work) : (w.recordedC v).dev.graphs = w.dev.graphs := rfl
@[simp] theorem Work.recordedC_admissions (w v : Work) : (w.recordedC v).dev.admissions = w.dev.admissions := rfl
@[simp] theorem Work.recordedC_insts (w v : Work) : (w.recordedC v).dev.insts = w.dev.insts := rfl
@[simp] theorem Work.recordedC_clusters (w v : Work) : (w.recordedC v).dev.clusters = w.dev.clusters := rfl
@[simp] theorem Work.recordedC_fetches (w v : Work) : (w.recordedC v).dev.fetches = w.dev.fetches := rfl
@[simp] theorem Work.recordedC_deals (w v : Work) : (w.recordedC v).dev.deals = w.dev.deals := rfl
@[simp] theorem Work.recordedC_due (w v : Work) : (w.recordedC v).dev.due = w.dev.due := rfl
@[simp] theorem Work.recordedC_sync (w v : Work) : (w.recordedC v).dev.sync = w.dev.sync := rfl
@[simp] theorem Work.recordedC_crier (w v : Work) : (w.recordedC v).dev.crier = w.dev.crier := rfl
@[simp] theorem Work.recordedC_ports (w v : Work) : (w.recordedC v).dev.ports = w.dev.ports := rfl
@[simp] theorem Work.recordedC_exch (w v : Work) : (w.recordedC v).dev.exch = w.dev.exch := rfl
@[simp] theorem Work.recordedC_boot (w v : Work) : (w.recordedC v).dev.boot = w.dev.boot := rfl
@[simp] theorem Work.recordedC_power (w v : Work) : (w.recordedC v).dev.power = w.dev.power := rfl
@[simp] theorem Work.recordedC_stock (w v : Work) : (w.recordedC v).dev.stock = w.dev.stock := rfl
@[simp] theorem Work.recordedC_flrBusy (w v : Work) : (w.recordedC v).dev.flrBusy = w.dev.flrBusy := rfl

@[simp] theorem Work.recordedS_out (w v : Work) : (w.recordedS v).out = w.out := rfl
@[simp] theorem Work.recordedS_mem (w v : Work) : (w.recordedS v).mem = w.mem := rfl
@[simp] theorem Work.recordedS_variant (w v : Work) : (w.recordedS v).variant = w.variant := rfl
@[simp] theorem Work.recordedS_beat (w v : Work) : (w.recordedS v).dev.beat = w.dev.beat := rfl
@[simp] theorem Work.recordedS_time (w v : Work) : (w.recordedS v).dev.time = w.dev.time := rfl
@[simp] theorem Work.recordedS_counting (w v : Work) : (w.recordedS v).dev.counting = w.dev.counting := rfl
@[simp] theorem Work.recordedS_free (w v : Work) : (w.recordedS v).dev.free = w.dev.free := rfl
@[simp] theorem Work.recordedS_nextId (w v : Work) : (w.recordedS v).dev.nextId = w.dev.nextId := rfl
@[simp] theorem Work.recordedS_graphs (w v : Work) : (w.recordedS v).dev.graphs = w.dev.graphs := rfl
@[simp] theorem Work.recordedS_admissions (w v : Work) : (w.recordedS v).dev.admissions = w.dev.admissions := rfl
@[simp] theorem Work.recordedS_insts (w v : Work) : (w.recordedS v).dev.insts = w.dev.insts := rfl
@[simp] theorem Work.recordedS_clusters (w v : Work) : (w.recordedS v).dev.clusters = w.dev.clusters := rfl
@[simp] theorem Work.recordedS_fetches (w v : Work) : (w.recordedS v).dev.fetches = w.dev.fetches := rfl
@[simp] theorem Work.recordedS_deals (w v : Work) : (w.recordedS v).dev.deals = w.dev.deals := rfl
@[simp] theorem Work.recordedS_due (w v : Work) : (w.recordedS v).dev.due = w.dev.due := rfl
@[simp] theorem Work.recordedS_sync (w v : Work) : (w.recordedS v).dev.sync = w.dev.sync := rfl
@[simp] theorem Work.recordedS_crier (w v : Work) : (w.recordedS v).dev.crier = w.dev.crier := rfl
@[simp] theorem Work.recordedS_ports (w v : Work) : (w.recordedS v).dev.ports = w.dev.ports := rfl
@[simp] theorem Work.recordedS_exch (w v : Work) : (w.recordedS v).dev.exch = w.dev.exch := rfl
@[simp] theorem Work.recordedS_boot (w v : Work) : (w.recordedS v).dev.boot = w.dev.boot := rfl
@[simp] theorem Work.recordedS_power (w v : Work) : (w.recordedS v).dev.power = w.dev.power := rfl
@[simp] theorem Work.recordedS_flrBusy (w v : Work) : (w.recordedS v).dev.flrBusy = w.dev.flrBusy := rfl

@[simp] theorem Work.recordedT_out (w v : Work) : (w.recordedT v).out = w.out := rfl
@[simp] theorem Work.recordedT_mem (w v : Work) : (w.recordedT v).mem = w.mem := rfl
@[simp] theorem Work.recordedT_variant (w v : Work) : (w.recordedT v).variant = w.variant := rfl
@[simp] theorem Work.recordedT_counting (w v : Work) : (w.recordedT v).dev.counting = w.dev.counting := rfl
@[simp] theorem Work.recordedT_free (w v : Work) : (w.recordedT v).dev.free = w.dev.free := rfl
@[simp] theorem Work.recordedT_nextId (w v : Work) : (w.recordedT v).dev.nextId = w.dev.nextId := rfl
@[simp] theorem Work.recordedT_graphs (w v : Work) : (w.recordedT v).dev.graphs = w.dev.graphs := rfl
@[simp] theorem Work.recordedT_admissions (w v : Work) : (w.recordedT v).dev.admissions = w.dev.admissions := rfl
@[simp] theorem Work.recordedT_insts (w v : Work) : (w.recordedT v).dev.insts = w.dev.insts := rfl
@[simp] theorem Work.recordedT_clusters (w v : Work) : (w.recordedT v).dev.clusters = w.dev.clusters := rfl
@[simp] theorem Work.recordedT_fetches (w v : Work) : (w.recordedT v).dev.fetches = w.dev.fetches := rfl
@[simp] theorem Work.recordedT_deals (w v : Work) : (w.recordedT v).dev.deals = w.dev.deals := rfl
@[simp] theorem Work.recordedT_due (w v : Work) : (w.recordedT v).dev.due = w.dev.due := rfl
@[simp] theorem Work.recordedT_sync (w v : Work) : (w.recordedT v).dev.sync = w.dev.sync := rfl
@[simp] theorem Work.recordedT_ports (w v : Work) : (w.recordedT v).dev.ports = w.dev.ports := rfl
@[simp] theorem Work.recordedT_exch (w v : Work) : (w.recordedT v).dev.exch = w.dev.exch := rfl
@[simp] theorem Work.recordedT_boot (w v : Work) : (w.recordedT v).dev.boot = w.dev.boot := rfl
@[simp] theorem Work.recordedT_power (w v : Work) : (w.recordedT v).dev.power = w.dev.power := rfl
@[simp] theorem Work.recordedT_stock (w v : Work) : (w.recordedT v).dev.stock = w.dev.stock := rfl
@[simp] theorem Work.recordedT_flrBusy (w v : Work) : (w.recordedT v).dev.flrBusy = w.dev.flrBusy := rfl

theorem Work.bump_eq (w : Work) (p : Page) (k n : Nat) : (w.bump p k n).1 = w.recorded (w.bump p k n).1 := by
  unfold Work.bump; split <;> rfl

theorem Work.msixRaw_eq (w : Work) (fn vec : Nat) : (w.msixRaw fn vec).1 = w.recorded (w.msixRaw fn vec).1 := by
  unfold Work.msixRaw; split
  · rfl
  · split <;> rfl

theorem Work.wrapped_eq (w : Work) (key : Nat) : w.wrapped key = w.recorded (w.wrapped key) := by
  unfold Work.wrapped; split
  · dsimp only
    split
    · exact Work.recorded_trans (Work.recorded_trans rfl (Work.msixRaw_eq _ _ _)) (Work.bump_eq _ _ _ _)
    · exact Work.recorded_trans rfl (Work.msixRaw_eq _ _ _)
  · rfl

/-- Counting (R122, R488) changes counters, and at a wrap the record and the message of it; nothing else. -/
theorem Work.count_eq (w : Work) (p : Page) (k n : Nat) : w.count p k n = w.recorded (w.count p k n) := by
  unfold Work.count; dsimp only; split
  · exact Work.recorded_trans (Work.bump_eq _ _ _ _) (Work.wrapped_eq _ _)
  · exact Work.bump_eq _ _ _ _

@[simp] theorem Work.count_out (w : Work) (p : Page) (k n : Nat) : (w.count p k n).out = w.out := by rw [Work.count_eq, Work.recorded_out]
@[simp] theorem Work.count_mem (w : Work) (p : Page) (k n : Nat) : (w.count p k n).mem = w.mem := by rw [Work.count_eq, Work.recorded_mem]
@[simp] theorem Work.count_variant (w : Work) (p : Page) (k n : Nat) : (w.count p k n).variant = w.variant := by rw [Work.count_eq, Work.recorded_variant]
@[simp] theorem Work.count_beat (w : Work) (p : Page) (k n : Nat) : (w.count p k n).dev.beat = w.dev.beat := by rw [Work.count_eq, Work.recorded_beat]
@[simp] theorem Work.count_time (w : Work) (p : Page) (k n : Nat) : (w.count p k n).dev.time = w.dev.time := by rw [Work.count_eq, Work.recorded_time]
@[simp] theorem Work.count_counting (w : Work) (p : Page) (k n : Nat) : (w.count p k n).dev.counting = w.dev.counting := by rw [Work.count_eq, Work.recorded_counting]
@[simp] theorem Work.count_free (w : Work) (p : Page) (k n : Nat) : (w.count p k n).dev.free = w.dev.free := by rw [Work.count_eq, Work.recorded_free]
@[simp] theorem Work.count_nextId (w : Work) (p : Page) (k n : Nat) : (w.count p k n).dev.nextId = w.dev.nextId := by rw [Work.count_eq, Work.recorded_nextId]
@[simp] theorem Work.count_graphs (w : Work) (p : Page) (k n : Nat) : (w.count p k n).dev.graphs = w.dev.graphs := by rw [Work.count_eq, Work.recorded_graphs]
@[simp] theorem Work.count_admissions (w : Work) (p : Page) (k n : Nat) : (w.count p k n).dev.admissions = w.dev.admissions := by rw [Work.count_eq, Work.recorded_admissions]
@[simp] theorem Work.count_insts (w : Work) (p : Page) (k n : Nat) : (w.count p k n).dev.insts = w.dev.insts := by rw [Work.count_eq, Work.recorded_insts]
@[simp] theorem Work.count_clusters (w : Work) (p : Page) (k n : Nat) : (w.count p k n).dev.clusters = w.dev.clusters := by rw [Work.count_eq, Work.recorded_clusters]
@[simp] theorem Work.count_fetches (w : Work) (p : Page) (k n : Nat) : (w.count p k n).dev.fetches = w.dev.fetches := by rw [Work.count_eq, Work.recorded_fetches]
@[simp] theorem Work.count_deals (w : Work) (p : Page) (k n : Nat) : (w.count p k n).dev.deals = w.dev.deals := by rw [Work.count_eq, Work.recorded_deals]
@[simp] theorem Work.count_due (w : Work) (p : Page) (k n : Nat) : (w.count p k n).dev.due = w.dev.due := by rw [Work.count_eq, Work.recorded_due]
@[simp] theorem Work.count_sync (w : Work) (p : Page) (k n : Nat) : (w.count p k n).dev.sync = w.dev.sync := by rw [Work.count_eq, Work.recorded_sync]
@[simp] theorem Work.count_crier (w : Work) (p : Page) (k n : Nat) : (w.count p k n).dev.crier = w.dev.crier := by rw [Work.count_eq, Work.recorded_crier]
@[simp] theorem Work.count_ports (w : Work) (p : Page) (k n : Nat) : (w.count p k n).dev.ports = w.dev.ports := by rw [Work.count_eq, Work.recorded_ports]
@[simp] theorem Work.count_exch (w : Work) (p : Page) (k n : Nat) : (w.count p k n).dev.exch = w.dev.exch := by rw [Work.count_eq, Work.recorded_exch]
@[simp] theorem Work.count_cores (w : Work) (p : Page) (k n : Nat) : (w.count p k n).dev.cores = w.dev.cores := by rw [Work.count_eq, Work.recorded_cores]
@[simp] theorem Work.count_boot (w : Work) (p : Page) (k n : Nat) : (w.count p k n).dev.boot = w.dev.boot := by rw [Work.count_eq, Work.recorded_boot]
@[simp] theorem Work.count_power (w : Work) (p : Page) (k n : Nat) : (w.count p k n).dev.power = w.dev.power := by rw [Work.count_eq, Work.recorded_power]
@[simp] theorem Work.count_stock (w : Work) (p : Page) (k n : Nat) : (w.count p k n).dev.stock = w.dev.stock := by rw [Work.count_eq, Work.recorded_stock]
@[simp] theorem Work.count_flrBusy (w : Work) (p : Page) (k n : Nat) : (w.count p k n).dev.flrBusy = w.dev.flrBusy := by rw [Work.count_eq, Work.recorded_flrBusy]

/-- A message (R414) is sent or left pending, and counted; nothing else changes. -/
theorem Work.message_eq (w : Work) (fn vec : Nat) : w.message fn vec = w.recorded (w.message fn vec) := by
  unfold Work.message; dsimp only; split
  · exact Work.recorded_trans (Work.msixRaw_eq _ _ _) (Work.count_eq _ _ _ _)
  · exact Work.msixRaw_eq _ _ _

@[simp] theorem Work.message_out (w : Work) (fn vec : Nat) : (w.message fn vec).out = w.out := by rw [Work.message_eq, Work.recorded_out]
@[simp] theorem Work.message_mem (w : Work) (fn vec : Nat) : (w.message fn vec).mem = w.mem := by rw [Work.message_eq, Work.recorded_mem]
@[simp] theorem Work.message_variant (w : Work) (fn vec : Nat) : (w.message fn vec).variant = w.variant := by rw [Work.message_eq, Work.recorded_variant]
@[simp] theorem Work.message_beat (w : Work) (fn vec : Nat) : (w.message fn vec).dev.beat = w.dev.beat := by rw [Work.message_eq, Work.recorded_beat]
@[simp] theorem Work.message_time (w : Work) (fn vec : Nat) : (w.message fn vec).dev.time = w.dev.time := by rw [Work.message_eq, Work.recorded_time]
@[simp] theorem Work.message_counting (w : Work) (fn vec : Nat) : (w.message fn vec).dev.counting = w.dev.counting := by rw [Work.message_eq, Work.recorded_counting]
@[simp] theorem Work.message_free (w : Work) (fn vec : Nat) : (w.message fn vec).dev.free = w.dev.free := by rw [Work.message_eq, Work.recorded_free]
@[simp] theorem Work.message_nextId (w : Work) (fn vec : Nat) : (w.message fn vec).dev.nextId = w.dev.nextId := by rw [Work.message_eq, Work.recorded_nextId]
@[simp] theorem Work.message_graphs (w : Work) (fn vec : Nat) : (w.message fn vec).dev.graphs = w.dev.graphs := by rw [Work.message_eq, Work.recorded_graphs]
@[simp] theorem Work.message_admissions (w : Work) (fn vec : Nat) : (w.message fn vec).dev.admissions = w.dev.admissions := by rw [Work.message_eq, Work.recorded_admissions]
@[simp] theorem Work.message_insts (w : Work) (fn vec : Nat) : (w.message fn vec).dev.insts = w.dev.insts := by rw [Work.message_eq, Work.recorded_insts]
@[simp] theorem Work.message_clusters (w : Work) (fn vec : Nat) : (w.message fn vec).dev.clusters = w.dev.clusters := by rw [Work.message_eq, Work.recorded_clusters]
@[simp] theorem Work.message_fetches (w : Work) (fn vec : Nat) : (w.message fn vec).dev.fetches = w.dev.fetches := by rw [Work.message_eq, Work.recorded_fetches]
@[simp] theorem Work.message_deals (w : Work) (fn vec : Nat) : (w.message fn vec).dev.deals = w.dev.deals := by rw [Work.message_eq, Work.recorded_deals]
@[simp] theorem Work.message_due (w : Work) (fn vec : Nat) : (w.message fn vec).dev.due = w.dev.due := by rw [Work.message_eq, Work.recorded_due]
@[simp] theorem Work.message_sync (w : Work) (fn vec : Nat) : (w.message fn vec).dev.sync = w.dev.sync := by rw [Work.message_eq, Work.recorded_sync]
@[simp] theorem Work.message_crier (w : Work) (fn vec : Nat) : (w.message fn vec).dev.crier = w.dev.crier := by rw [Work.message_eq, Work.recorded_crier]
@[simp] theorem Work.message_ports (w : Work) (fn vec : Nat) : (w.message fn vec).dev.ports = w.dev.ports := by rw [Work.message_eq, Work.recorded_ports]
@[simp] theorem Work.message_exch (w : Work) (fn vec : Nat) : (w.message fn vec).dev.exch = w.dev.exch := by rw [Work.message_eq, Work.recorded_exch]
@[simp] theorem Work.message_cores (w : Work) (fn vec : Nat) : (w.message fn vec).dev.cores = w.dev.cores := by rw [Work.message_eq, Work.recorded_cores]
@[simp] theorem Work.message_boot (w : Work) (fn vec : Nat) : (w.message fn vec).dev.boot = w.dev.boot := by rw [Work.message_eq, Work.recorded_boot]
@[simp] theorem Work.message_power (w : Work) (fn vec : Nat) : (w.message fn vec).dev.power = w.dev.power := by rw [Work.message_eq, Work.recorded_power]
@[simp] theorem Work.message_stock (w : Work) (fn vec : Nat) : (w.message fn vec).dev.stock = w.dev.stock := by rw [Work.message_eq, Work.recorded_stock]
@[simp] theorem Work.message_flrBusy (w : Work) (fn vec : Nat) : (w.message fn vec).dev.flrBusy = w.dev.flrBusy := by rw [Work.message_eq, Work.recorded_flrBusy]

/-- An interrupt (R429) changes its core's scheduler and counts; nothing else. -/
theorem Work.coreInt_eq (w : Work) (n k : Nat) : w.coreInt n k = w.recordedC (w.coreInt n k) := by
  unfold Work.coreInt; dsimp only; split
  · exact Work.recordedC_trans rfl (Work.recordedC_of (Work.count_eq _ _ _ _))
  · exact Work.recordedC_trans rfl (Work.recordedC_of (Work.count_eq _ _ _ _))
  · rfl

@[simp] theorem Work.coreInt_out (w : Work) (n k : Nat) : (w.coreInt n k).out = w.out := by rw [Work.coreInt_eq, Work.recordedC_out]
@[simp] theorem Work.coreInt_mem (w : Work) (n k : Nat) : (w.coreInt n k).mem = w.mem := by rw [Work.coreInt_eq, Work.recordedC_mem]
@[simp] theorem Work.coreInt_variant (w : Work) (n k : Nat) : (w.coreInt n k).variant = w.variant := by rw [Work.coreInt_eq, Work.recordedC_variant]
@[simp] theorem Work.coreInt_beat (w : Work) (n k : Nat) : (w.coreInt n k).dev.beat = w.dev.beat := by rw [Work.coreInt_eq, Work.recordedC_beat]
@[simp] theorem Work.coreInt_time (w : Work) (n k : Nat) : (w.coreInt n k).dev.time = w.dev.time := by rw [Work.coreInt_eq, Work.recordedC_time]
@[simp] theorem Work.coreInt_counting (w : Work) (n k : Nat) : (w.coreInt n k).dev.counting = w.dev.counting := by rw [Work.coreInt_eq, Work.recordedC_counting]
@[simp] theorem Work.coreInt_free (w : Work) (n k : Nat) : (w.coreInt n k).dev.free = w.dev.free := by rw [Work.coreInt_eq, Work.recordedC_free]
@[simp] theorem Work.coreInt_nextId (w : Work) (n k : Nat) : (w.coreInt n k).dev.nextId = w.dev.nextId := by rw [Work.coreInt_eq, Work.recordedC_nextId]
@[simp] theorem Work.coreInt_graphs (w : Work) (n k : Nat) : (w.coreInt n k).dev.graphs = w.dev.graphs := by rw [Work.coreInt_eq, Work.recordedC_graphs]
@[simp] theorem Work.coreInt_admissions (w : Work) (n k : Nat) : (w.coreInt n k).dev.admissions = w.dev.admissions := by rw [Work.coreInt_eq, Work.recordedC_admissions]
@[simp] theorem Work.coreInt_insts (w : Work) (n k : Nat) : (w.coreInt n k).dev.insts = w.dev.insts := by rw [Work.coreInt_eq, Work.recordedC_insts]
@[simp] theorem Work.coreInt_clusters (w : Work) (n k : Nat) : (w.coreInt n k).dev.clusters = w.dev.clusters := by rw [Work.coreInt_eq, Work.recordedC_clusters]
@[simp] theorem Work.coreInt_fetches (w : Work) (n k : Nat) : (w.coreInt n k).dev.fetches = w.dev.fetches := by rw [Work.coreInt_eq, Work.recordedC_fetches]
@[simp] theorem Work.coreInt_deals (w : Work) (n k : Nat) : (w.coreInt n k).dev.deals = w.dev.deals := by rw [Work.coreInt_eq, Work.recordedC_deals]
@[simp] theorem Work.coreInt_due (w : Work) (n k : Nat) : (w.coreInt n k).dev.due = w.dev.due := by rw [Work.coreInt_eq, Work.recordedC_due]
@[simp] theorem Work.coreInt_sync (w : Work) (n k : Nat) : (w.coreInt n k).dev.sync = w.dev.sync := by rw [Work.coreInt_eq, Work.recordedC_sync]
@[simp] theorem Work.coreInt_crier (w : Work) (n k : Nat) : (w.coreInt n k).dev.crier = w.dev.crier := by rw [Work.coreInt_eq, Work.recordedC_crier]
@[simp] theorem Work.coreInt_ports (w : Work) (n k : Nat) : (w.coreInt n k).dev.ports = w.dev.ports := by rw [Work.coreInt_eq, Work.recordedC_ports]
@[simp] theorem Work.coreInt_exch (w : Work) (n k : Nat) : (w.coreInt n k).dev.exch = w.dev.exch := by rw [Work.coreInt_eq, Work.recordedC_exch]
@[simp] theorem Work.coreInt_boot (w : Work) (n k : Nat) : (w.coreInt n k).dev.boot = w.dev.boot := by rw [Work.coreInt_eq, Work.recordedC_boot]
@[simp] theorem Work.coreInt_power (w : Work) (n k : Nat) : (w.coreInt n k).dev.power = w.dev.power := by rw [Work.coreInt_eq, Work.recordedC_power]
@[simp] theorem Work.coreInt_stock (w : Work) (n k : Nat) : (w.coreInt n k).dev.stock = w.dev.stock := by rw [Work.coreInt_eq, Work.recordedC_stock]
@[simp] theorem Work.coreInt_flrBusy (w : Work) (n k : Nat) : (w.coreInt n k).dev.flrBusy = w.dev.flrBusy := by rw [Work.coreInt_eq, Work.recordedC_flrBusy]

/-- The switches that come due (R426) change the cores' schedulers and count; nothing else. -/
theorem Work.settle_eq (w : Work) : w.settle = w.recordedC w.settle :=
  Work.each_recordedC _ _ (fun _ _ => Work.recordedC_trans (Work.recordedC_trans rfl (Work.recordedC_of (Work.count_eq _ _ _ _)))
    (Work.recordedC_of (Work.count_eq _ _ _ _))) w

@[simp] theorem Work.settle_out (w : Work) : w.settle.out = w.out := by rw [Work.settle_eq, Work.recordedC_out]
@[simp] theorem Work.settle_mem (w : Work) : w.settle.mem = w.mem := by rw [Work.settle_eq, Work.recordedC_mem]
@[simp] theorem Work.settle_variant (w : Work) : w.settle.variant = w.variant := by rw [Work.settle_eq, Work.recordedC_variant]
@[simp] theorem Work.settle_beat (w : Work) : w.settle.dev.beat = w.dev.beat := by rw [Work.settle_eq, Work.recordedC_beat]
@[simp] theorem Work.settle_time (w : Work) : w.settle.dev.time = w.dev.time := by rw [Work.settle_eq, Work.recordedC_time]
@[simp] theorem Work.settle_counting (w : Work) : w.settle.dev.counting = w.dev.counting := by rw [Work.settle_eq, Work.recordedC_counting]
@[simp] theorem Work.settle_free (w : Work) : w.settle.dev.free = w.dev.free := by rw [Work.settle_eq, Work.recordedC_free]
@[simp] theorem Work.settle_nextId (w : Work) : w.settle.dev.nextId = w.dev.nextId := by rw [Work.settle_eq, Work.recordedC_nextId]
@[simp] theorem Work.settle_graphs (w : Work) : w.settle.dev.graphs = w.dev.graphs := by rw [Work.settle_eq, Work.recordedC_graphs]
@[simp] theorem Work.settle_admissions (w : Work) : w.settle.dev.admissions = w.dev.admissions := by rw [Work.settle_eq, Work.recordedC_admissions]
@[simp] theorem Work.settle_insts (w : Work) : w.settle.dev.insts = w.dev.insts := by rw [Work.settle_eq, Work.recordedC_insts]
@[simp] theorem Work.settle_clusters (w : Work) : w.settle.dev.clusters = w.dev.clusters := by rw [Work.settle_eq, Work.recordedC_clusters]
@[simp] theorem Work.settle_fetches (w : Work) : w.settle.dev.fetches = w.dev.fetches := by rw [Work.settle_eq, Work.recordedC_fetches]
@[simp] theorem Work.settle_deals (w : Work) : w.settle.dev.deals = w.dev.deals := by rw [Work.settle_eq, Work.recordedC_deals]
@[simp] theorem Work.settle_due (w : Work) : w.settle.dev.due = w.dev.due := by rw [Work.settle_eq, Work.recordedC_due]
@[simp] theorem Work.settle_sync (w : Work) : w.settle.dev.sync = w.dev.sync := by rw [Work.settle_eq, Work.recordedC_sync]
@[simp] theorem Work.settle_crier (w : Work) : w.settle.dev.crier = w.dev.crier := by rw [Work.settle_eq, Work.recordedC_crier]
@[simp] theorem Work.settle_ports (w : Work) : w.settle.dev.ports = w.dev.ports := by rw [Work.settle_eq, Work.recordedC_ports]
@[simp] theorem Work.settle_exch (w : Work) : w.settle.dev.exch = w.dev.exch := by rw [Work.settle_eq, Work.recordedC_exch]
@[simp] theorem Work.settle_boot (w : Work) : w.settle.dev.boot = w.dev.boot := by rw [Work.settle_eq, Work.recordedC_boot]
@[simp] theorem Work.settle_power (w : Work) : w.settle.dev.power = w.dev.power := by rw [Work.settle_eq, Work.recordedC_power]
@[simp] theorem Work.settle_stock (w : Work) : w.settle.dev.stock = w.dev.stock := by rw [Work.settle_eq, Work.recordedC_stock]
@[simp] theorem Work.settle_flrBusy (w : Work) : w.settle.dev.flrBusy = w.dev.flrBusy := by rw [Work.settle_eq, Work.recordedC_flrBusy]

/-- A trigger (R482, R483) leaves a snapshot pending or counts; nothing else changes. -/
theorem Work.trigger_eq (w : Work) (src : Nat) : w.trigger src = w.recordedS (w.trigger src) := by
  unfold Work.trigger; split
  · exact Work.recordedS_of (Work.recordedC_of (Work.count_eq _ _ _ _))
  · split
    · exact Work.recordedS_of (Work.recordedC_of (Work.count_eq _ _ _ _))
    · rfl

@[simp] theorem Work.trigger_cores (w : Work) (src : Nat) : (w.trigger src).dev.cores = w.dev.cores := by
  unfold Work.trigger; split
  · simp
  · split
    · simp
    · rfl

@[simp] theorem Work.trigger_out (w : Work) (src : Nat) : (w.trigger src).out = w.out := by rw [Work.trigger_eq, Work.recordedS_out]
@[simp] theorem Work.trigger_mem (w : Work) (src : Nat) : (w.trigger src).mem = w.mem := by rw [Work.trigger_eq, Work.recordedS_mem]
@[simp] theorem Work.trigger_variant (w : Work) (src : Nat) : (w.trigger src).variant = w.variant := by rw [Work.trigger_eq, Work.recordedS_variant]
@[simp] theorem Work.trigger_beat (w : Work) (src : Nat) : (w.trigger src).dev.beat = w.dev.beat := by rw [Work.trigger_eq, Work.recordedS_beat]
@[simp] theorem Work.trigger_time (w : Work) (src : Nat) : (w.trigger src).dev.time = w.dev.time := by rw [Work.trigger_eq, Work.recordedS_time]
@[simp] theorem Work.trigger_counting (w : Work) (src : Nat) : (w.trigger src).dev.counting = w.dev.counting := by rw [Work.trigger_eq, Work.recordedS_counting]
@[simp] theorem Work.trigger_free (w : Work) (src : Nat) : (w.trigger src).dev.free = w.dev.free := by rw [Work.trigger_eq, Work.recordedS_free]
@[simp] theorem Work.trigger_nextId (w : Work) (src : Nat) : (w.trigger src).dev.nextId = w.dev.nextId := by rw [Work.trigger_eq, Work.recordedS_nextId]
@[simp] theorem Work.trigger_graphs (w : Work) (src : Nat) : (w.trigger src).dev.graphs = w.dev.graphs := by rw [Work.trigger_eq, Work.recordedS_graphs]
@[simp] theorem Work.trigger_admissions (w : Work) (src : Nat) : (w.trigger src).dev.admissions = w.dev.admissions := by rw [Work.trigger_eq, Work.recordedS_admissions]
@[simp] theorem Work.trigger_insts (w : Work) (src : Nat) : (w.trigger src).dev.insts = w.dev.insts := by rw [Work.trigger_eq, Work.recordedS_insts]
@[simp] theorem Work.trigger_clusters (w : Work) (src : Nat) : (w.trigger src).dev.clusters = w.dev.clusters := by rw [Work.trigger_eq, Work.recordedS_clusters]
@[simp] theorem Work.trigger_fetches (w : Work) (src : Nat) : (w.trigger src).dev.fetches = w.dev.fetches := by rw [Work.trigger_eq, Work.recordedS_fetches]
@[simp] theorem Work.trigger_deals (w : Work) (src : Nat) : (w.trigger src).dev.deals = w.dev.deals := by rw [Work.trigger_eq, Work.recordedS_deals]
@[simp] theorem Work.trigger_due (w : Work) (src : Nat) : (w.trigger src).dev.due = w.dev.due := by rw [Work.trigger_eq, Work.recordedS_due]
@[simp] theorem Work.trigger_sync (w : Work) (src : Nat) : (w.trigger src).dev.sync = w.dev.sync := by rw [Work.trigger_eq, Work.recordedS_sync]
@[simp] theorem Work.trigger_crier (w : Work) (src : Nat) : (w.trigger src).dev.crier = w.dev.crier := by rw [Work.trigger_eq, Work.recordedS_crier]
@[simp] theorem Work.trigger_ports (w : Work) (src : Nat) : (w.trigger src).dev.ports = w.dev.ports := by rw [Work.trigger_eq, Work.recordedS_ports]
@[simp] theorem Work.trigger_exch (w : Work) (src : Nat) : (w.trigger src).dev.exch = w.dev.exch := by rw [Work.trigger_eq, Work.recordedS_exch]
@[simp] theorem Work.trigger_boot (w : Work) (src : Nat) : (w.trigger src).dev.boot = w.dev.boot := by rw [Work.trigger_eq, Work.recordedS_boot]
@[simp] theorem Work.trigger_power (w : Work) (src : Nat) : (w.trigger src).dev.power = w.dev.power := by rw [Work.trigger_eq, Work.recordedS_power]
@[simp] theorem Work.trigger_flrBusy (w : Work) (src : Nat) : (w.trigger src).dev.flrBusy = w.dev.flrBusy := by rw [Work.trigger_eq, Work.recordedS_flrBusy]

/-- The messages and the interrupt of an error (R494) change nothing but where they are recorded. -/
theorem Work.errMessages_eq (w : Work) (sev : Nat) (ctx : Option Nat) : w.errMessages sev ctx = w.recordedC (w.errMessages sev ctx) := by
  have h1 := Work.whenB_recordedC w (w.rb pgSk .skRoute 31 && decide (w.rf pgSk .skRoute 25 24 ≤ sev))
    (fun w => w.message 0 (w.rf pgSk .skRoute 10 0)) (Work.recordedC_of (Work.message_eq _ _ _))
  have h2 := Work.recordedC_trans h1 (Work.whenB_recordedC _ ((w.whenB (w.rb pgSk .skRoute 31 && decide (w.rf pgSk .skRoute 25 24 ≤ sev))
    (fun w => w.message 0 (w.rf pgSk .skRoute 10 0))).rb pgSk .skRoute 30 && decide (w.rf pgSk .skRoute 25 24 ≤ sev))
    (fun w => w.coreInt (w.rf pgSk .skRoute 28 26) 2) (Work.coreInt_eq _ _ _))
  unfold Work.errMessages
  cases ctx with
  | none => exact h2
  | some n => exact Work.recordedC_trans h2 (Work.whenB_recordedC _ _ _ (Work.recordedC_of (Work.message_eq _ _ _)))

@[simp] theorem Work.errMessages_out (w : Work) (sev : Nat) (ctx : Option Nat) : (w.errMessages sev ctx).out = w.out := by rw [Work.errMessages_eq, Work.recordedC_out]
@[simp] theorem Work.errMessages_mem (w : Work) (sev : Nat) (ctx : Option Nat) : (w.errMessages sev ctx).mem = w.mem := by rw [Work.errMessages_eq, Work.recordedC_mem]
@[simp] theorem Work.errMessages_variant (w : Work) (sev : Nat) (ctx : Option Nat) : (w.errMessages sev ctx).variant = w.variant := by rw [Work.errMessages_eq, Work.recordedC_variant]
@[simp] theorem Work.errMessages_beat (w : Work) (sev : Nat) (ctx : Option Nat) : (w.errMessages sev ctx).dev.beat = w.dev.beat := by rw [Work.errMessages_eq, Work.recordedC_beat]
@[simp] theorem Work.errMessages_time (w : Work) (sev : Nat) (ctx : Option Nat) : (w.errMessages sev ctx).dev.time = w.dev.time := by rw [Work.errMessages_eq, Work.recordedC_time]
@[simp] theorem Work.errMessages_counting (w : Work) (sev : Nat) (ctx : Option Nat) : (w.errMessages sev ctx).dev.counting = w.dev.counting := by rw [Work.errMessages_eq, Work.recordedC_counting]
@[simp] theorem Work.errMessages_free (w : Work) (sev : Nat) (ctx : Option Nat) : (w.errMessages sev ctx).dev.free = w.dev.free := by rw [Work.errMessages_eq, Work.recordedC_free]
@[simp] theorem Work.errMessages_nextId (w : Work) (sev : Nat) (ctx : Option Nat) : (w.errMessages sev ctx).dev.nextId = w.dev.nextId := by rw [Work.errMessages_eq, Work.recordedC_nextId]
@[simp] theorem Work.errMessages_graphs (w : Work) (sev : Nat) (ctx : Option Nat) : (w.errMessages sev ctx).dev.graphs = w.dev.graphs := by rw [Work.errMessages_eq, Work.recordedC_graphs]
@[simp] theorem Work.errMessages_admissions (w : Work) (sev : Nat) (ctx : Option Nat) : (w.errMessages sev ctx).dev.admissions = w.dev.admissions := by rw [Work.errMessages_eq, Work.recordedC_admissions]
@[simp] theorem Work.errMessages_insts (w : Work) (sev : Nat) (ctx : Option Nat) : (w.errMessages sev ctx).dev.insts = w.dev.insts := by rw [Work.errMessages_eq, Work.recordedC_insts]
@[simp] theorem Work.errMessages_clusters (w : Work) (sev : Nat) (ctx : Option Nat) : (w.errMessages sev ctx).dev.clusters = w.dev.clusters := by rw [Work.errMessages_eq, Work.recordedC_clusters]
@[simp] theorem Work.errMessages_fetches (w : Work) (sev : Nat) (ctx : Option Nat) : (w.errMessages sev ctx).dev.fetches = w.dev.fetches := by rw [Work.errMessages_eq, Work.recordedC_fetches]
@[simp] theorem Work.errMessages_deals (w : Work) (sev : Nat) (ctx : Option Nat) : (w.errMessages sev ctx).dev.deals = w.dev.deals := by rw [Work.errMessages_eq, Work.recordedC_deals]
@[simp] theorem Work.errMessages_due (w : Work) (sev : Nat) (ctx : Option Nat) : (w.errMessages sev ctx).dev.due = w.dev.due := by rw [Work.errMessages_eq, Work.recordedC_due]
@[simp] theorem Work.errMessages_sync (w : Work) (sev : Nat) (ctx : Option Nat) : (w.errMessages sev ctx).dev.sync = w.dev.sync := by rw [Work.errMessages_eq, Work.recordedC_sync]
@[simp] theorem Work.errMessages_crier (w : Work) (sev : Nat) (ctx : Option Nat) : (w.errMessages sev ctx).dev.crier = w.dev.crier := by rw [Work.errMessages_eq, Work.recordedC_crier]
@[simp] theorem Work.errMessages_ports (w : Work) (sev : Nat) (ctx : Option Nat) : (w.errMessages sev ctx).dev.ports = w.dev.ports := by rw [Work.errMessages_eq, Work.recordedC_ports]
@[simp] theorem Work.errMessages_exch (w : Work) (sev : Nat) (ctx : Option Nat) : (w.errMessages sev ctx).dev.exch = w.dev.exch := by rw [Work.errMessages_eq, Work.recordedC_exch]
@[simp] theorem Work.errMessages_boot (w : Work) (sev : Nat) (ctx : Option Nat) : (w.errMessages sev ctx).dev.boot = w.dev.boot := by rw [Work.errMessages_eq, Work.recordedC_boot]
@[simp] theorem Work.errMessages_power (w : Work) (sev : Nat) (ctx : Option Nat) : (w.errMessages sev ctx).dev.power = w.dev.power := by rw [Work.errMessages_eq, Work.recordedC_power]
@[simp] theorem Work.errMessages_stock (w : Work) (sev : Nat) (ctx : Option Nat) : (w.errMessages sev ctx).dev.stock = w.dev.stock := by rw [Work.errMessages_eq, Work.recordedC_stock]
@[simp] theorem Work.errMessages_flrBusy (w : Work) (sev : Nat) (ctx : Option Nat) : (w.errMessages sev ctx).dev.flrBusy = w.dev.flrBusy := by rw [Work.errMessages_eq, Work.recordedC_flrBusy]

theorem Work.whenB_recordedS (w : Work) (c : Bool) (f : Work → Work) (h : f w = w.recordedS (f w)) :
    w.whenB c f = w.recordedS (w.whenB c f) := by
  cases c
  · rfl
  · exact h

theorem Work.setReg_eq (w : Work) (p : Page) (id : RegId) (x : Word) (i : Nat) : w.setReg p id x i = w.recorded (w.setReg p id x i) := rfl

theorem Work.stock_eq (w : Work) (g : Dev → Stock) :
    w.upd (fun d => { d with stock := g d }) = w.recordedS (w.upd (fun d => { d with stock := g d })) := rfl

/-- Raising an error (R491) sets its status bit, queues its record, counts, and sends and triggers what is routed; nothing else
changes: no memory, task, instance or unit. -/
theorem Work.raise_eq (w : Work) (p : Page) (e : Err) (a : ErrArgs) : w.raise p e a = w.recordedS (w.raise p e a) := by
  have hc : ∀ (w : Work) (p : Page) (k n : Nat), w.count p k n = w.recordedS (w.count p k n) := fun w p k n =>
    Work.recordedS_of (Work.recordedC_of (Work.count_eq w p k n))
  have hr : ∀ (w : Work) (p : Page) (id : RegId) (x : Word) (i : Nat), w.setReg p id x i = w.recordedS (w.setReg p id x i) :=
    fun w p id x i => Work.recordedS_of (Work.recordedC_of (Work.setReg_eq w p id x i))
  unfold Work.raise
  split
  · rfl
  · dsimp only
    refine Work.recordedS_trans ?_ (Work.whenB_recordedS _ _ _ (Work.trigger_eq _ _))
    refine Work.recordedS_trans ?_ (Work.whenB_recordedS _ _ _ (Work.recordedS_of (Work.errMessages_eq _ _ _)))
    split
    · exact Work.recordedS_trans (Work.recordedS_trans (hr _ _ _ _ _) (hc _ _ _ _)) (Work.stock_eq _ _)
    · exact Work.recordedS_trans (Work.recordedS_trans (hr _ _ _ _ _) (hc _ _ _ _)) (hc _ _ _ _)

/-- An error that the page's block does not have changes nothing. -/
theorem Work.raise_none (w : Work) (p : Page) (e : Err) (a : ErrArgs) (h : errBit p.block e = none) : w.raise p e a = w := by
  unfold Work.raise; rw [h]

@[simp] theorem Work.raise_out (w : Work) (p : Page) (e : Err) (a : ErrArgs) : (w.raise p e a).out = w.out := by rw [Work.raise_eq, Work.recordedS_out]
@[simp] theorem Work.raise_mem (w : Work) (p : Page) (e : Err) (a : ErrArgs) : (w.raise p e a).mem = w.mem := by rw [Work.raise_eq, Work.recordedS_mem]
@[simp] theorem Work.raise_variant (w : Work) (p : Page) (e : Err) (a : ErrArgs) : (w.raise p e a).variant = w.variant := by rw [Work.raise_eq, Work.recordedS_variant]
@[simp] theorem Work.raise_beat (w : Work) (p : Page) (e : Err) (a : ErrArgs) : (w.raise p e a).dev.beat = w.dev.beat := by rw [Work.raise_eq, Work.recordedS_beat]
@[simp] theorem Work.raise_time (w : Work) (p : Page) (e : Err) (a : ErrArgs) : (w.raise p e a).dev.time = w.dev.time := by rw [Work.raise_eq, Work.recordedS_time]
@[simp] theorem Work.raise_counting (w : Work) (p : Page) (e : Err) (a : ErrArgs) : (w.raise p e a).dev.counting = w.dev.counting := by rw [Work.raise_eq, Work.recordedS_counting]
@[simp] theorem Work.raise_free (w : Work) (p : Page) (e : Err) (a : ErrArgs) : (w.raise p e a).dev.free = w.dev.free := by rw [Work.raise_eq, Work.recordedS_free]
@[simp] theorem Work.raise_nextId (w : Work) (p : Page) (e : Err) (a : ErrArgs) : (w.raise p e a).dev.nextId = w.dev.nextId := by rw [Work.raise_eq, Work.recordedS_nextId]
@[simp] theorem Work.raise_graphs (w : Work) (p : Page) (e : Err) (a : ErrArgs) : (w.raise p e a).dev.graphs = w.dev.graphs := by rw [Work.raise_eq, Work.recordedS_graphs]
@[simp] theorem Work.raise_admissions (w : Work) (p : Page) (e : Err) (a : ErrArgs) : (w.raise p e a).dev.admissions = w.dev.admissions := by rw [Work.raise_eq, Work.recordedS_admissions]
@[simp] theorem Work.raise_insts (w : Work) (p : Page) (e : Err) (a : ErrArgs) : (w.raise p e a).dev.insts = w.dev.insts := by rw [Work.raise_eq, Work.recordedS_insts]
@[simp] theorem Work.raise_clusters (w : Work) (p : Page) (e : Err) (a : ErrArgs) : (w.raise p e a).dev.clusters = w.dev.clusters := by rw [Work.raise_eq, Work.recordedS_clusters]
@[simp] theorem Work.raise_fetches (w : Work) (p : Page) (e : Err) (a : ErrArgs) : (w.raise p e a).dev.fetches = w.dev.fetches := by rw [Work.raise_eq, Work.recordedS_fetches]
@[simp] theorem Work.raise_deals (w : Work) (p : Page) (e : Err) (a : ErrArgs) : (w.raise p e a).dev.deals = w.dev.deals := by rw [Work.raise_eq, Work.recordedS_deals]
@[simp] theorem Work.raise_due (w : Work) (p : Page) (e : Err) (a : ErrArgs) : (w.raise p e a).dev.due = w.dev.due := by rw [Work.raise_eq, Work.recordedS_due]
@[simp] theorem Work.raise_sync (w : Work) (p : Page) (e : Err) (a : ErrArgs) : (w.raise p e a).dev.sync = w.dev.sync := by rw [Work.raise_eq, Work.recordedS_sync]
@[simp] theorem Work.raise_crier (w : Work) (p : Page) (e : Err) (a : ErrArgs) : (w.raise p e a).dev.crier = w.dev.crier := by rw [Work.raise_eq, Work.recordedS_crier]
@[simp] theorem Work.raise_ports (w : Work) (p : Page) (e : Err) (a : ErrArgs) : (w.raise p e a).dev.ports = w.dev.ports := by rw [Work.raise_eq, Work.recordedS_ports]
@[simp] theorem Work.raise_exch (w : Work) (p : Page) (e : Err) (a : ErrArgs) : (w.raise p e a).dev.exch = w.dev.exch := by rw [Work.raise_eq, Work.recordedS_exch]
@[simp] theorem Work.raise_boot (w : Work) (p : Page) (e : Err) (a : ErrArgs) : (w.raise p e a).dev.boot = w.dev.boot := by rw [Work.raise_eq, Work.recordedS_boot]
@[simp] theorem Work.raise_power (w : Work) (p : Page) (e : Err) (a : ErrArgs) : (w.raise p e a).dev.power = w.dev.power := by rw [Work.raise_eq, Work.recordedS_power]
@[simp] theorem Work.raise_flrBusy (w : Work) (p : Page) (e : Err) (a : ErrArgs) : (w.raise p e a).dev.flrBusy = w.dev.flrBusy := by rw [Work.raise_eq, Work.recordedS_flrBusy]

/-- What follows the advance of the beat count counts only. -/
theorem Work.whenB_recorded (w : Work) (c : Bool) (f : Work → Work) (h : f w = w.recorded (f w)) :
    w.whenB c f = w.recorded (w.whenB c f) := by
  cases c
  · rfl
  · exact h

theorem Work.each_recorded {α : Type} (l : List α) (f : α → Work → Work) (h : ∀ x w, f x w = w.recorded (f x w)) :
    ∀ w : Work, w.each l f = w.recorded (w.each l f) := by
  induction l with
  | nil => intro w; rfl
  | cons x t ih => intro w; exact Work.recorded_trans (h x w) (ih (f x w))

theorem Work.passCounts_eq (w : Work) (n t0 t1 : Nat) : w.passCounts n t0 t1 = w.recorded (w.passCounts n t0 t1) := by
  have hc := Work.count_eq
  unfold Work.passCounts
  dsimp only
  refine Work.recorded_trans ?_ (Work.whenB_recorded _ _ _ (hc _ _ _ _))
  refine Work.recorded_trans ?_ (Work.whenB_recorded _ _ _ (hc _ _ _ _))
  refine Work.recorded_trans ?_ (Work.whenB_recorded _ _ _ (Work.each_recorded _ _ (fun _ _ => hc _ _ _ _) _))
  refine Work.recorded_trans ?_ (Work.each_recorded _ _ (fun _ _ => hc _ _ _ _) _)
  refine Work.recorded_trans ?_ (Work.each_recorded _ _ (fun _ _ => hc _ _ _ _) _)
  refine Work.recorded_trans ?_ (hc _ _ _ _)
  refine Work.recorded_trans ?_ (Work.whenB_recorded _ _ _ (hc _ _ _ _))
  exact Work.each_recorded _ _ (fun _ _ => Work.whenB_recorded _ _ _ (hc _ _ _ _)) _

theorem Work.advanced_recordedC (w v : Work) (n : Nat) : (w.recordedC v).advanced n = w.recordedT ((w.recordedC v).advanced n) := rfl

/-- Beats that pass (R10, R314) advance the beat count by their number and the time base by 4 ns each while it runs, one beat less
after a hold (R320); switches complete, and counters count. Nothing else changes. -/
theorem Work.pass_eq' (w : Work) (n : Nat) (h : n ≠ 0) : w.pass n = (w.settle.advanced n).recorded (w.pass n) := by
  unfold Work.pass
  rw [if_neg h]
  exact Work.passCounts_eq _ _ _ _

theorem Work.pass_eq (w : Work) (n : Nat) : w.pass n = w.recordedT (w.pass n) := by
  by_cases h : n = 0
  · subst h; unfold Work.pass; rw [if_pos rfl]; rfl
  · have h2 : w.settle.advanced n = w.recordedT (w.settle.advanced n) := by
      rw [Work.settle_eq w]; exact Work.advanced_recordedC _ _ _
    exact Work.recordedT_trans h2 (Work.recordedT_of (Work.recordedC_of (Work.pass_eq' w n h)))

@[simp] theorem Work.pass_zero (w : Work) : w.pass 0 = w := by unfold Work.pass; rw [if_pos rfl]

@[simp] theorem Work.advanced_beat (w : Work) (n : Nat) : (w.advanced n).dev.beat = w.dev.beat + n := rfl
@[simp] theorem Work.advanced_time (w : Work) (n : Nat) : (w.advanced n).dev.time
    = (w.dev.time + w.dev.advance n) % 2 ^ 64 := rfl
@[simp] theorem Work.advanced_crier (w : Work) (n : Nat) : (w.advanced n).dev.crier = { w.dev.crier with hold := false } := rfl

@[simp] theorem Work.pass_beat (w : Work) (n : Nat) : (w.pass n).dev.beat = w.dev.beat + n := by
  by_cases h : n = 0
  · subst h; simp
  · rw [Work.pass_eq' w n h]; simp

@[simp] theorem Work.settle_advance (w : Work) (n : Nat) : w.settle.dev.advance n = w.dev.advance n := by
  unfold Dev.advance; simp

theorem Work.pass_time (w : Work) (n : Nat) (h : n ≠ 0) : (w.pass n).dev.time
    = (w.dev.time + w.dev.advance n) % 2 ^ 64 := by
  rw [Work.pass_eq' w n h]; simp

theorem Work.pass_crier (w : Work) (n : Nat) (h : n ≠ 0) : (w.pass n).dev.crier = { w.dev.crier with hold := false } := by
  rw [Work.pass_eq' w n h]; simp

@[simp] theorem Work.passTo_beat (w : Work) (b : Nat) : (w.passTo b).dev.beat = max w.dev.beat b := by
  unfold Work.passTo; rw [Work.pass_beat]; omega

theorem Work.passTo_of_le (w : Work) (b : Nat) (h : b ≤ w.dev.beat) : w.passTo b = w := by
  unfold Work.passTo; rw [Nat.sub_eq_zero_of_le h]; simp

@[simp] theorem Work.pass_out (w : Work) (n : Nat) : (w.pass n).out = w.out := by rw [Work.pass_eq, Work.recordedT_out]
@[simp] theorem Work.pass_mem (w : Work) (n : Nat) : (w.pass n).mem = w.mem := by rw [Work.pass_eq, Work.recordedT_mem]
@[simp] theorem Work.pass_variant (w : Work) (n : Nat) : (w.pass n).variant = w.variant := by rw [Work.pass_eq, Work.recordedT_variant]
@[simp] theorem Work.pass_counting (w : Work) (n : Nat) : (w.pass n).dev.counting = w.dev.counting := by rw [Work.pass_eq, Work.recordedT_counting]
@[simp] theorem Work.pass_free (w : Work) (n : Nat) : (w.pass n).dev.free = w.dev.free := by rw [Work.pass_eq, Work.recordedT_free]
@[simp] theorem Work.pass_nextId (w : Work) (n : Nat) : (w.pass n).dev.nextId = w.dev.nextId := by rw [Work.pass_eq, Work.recordedT_nextId]
@[simp] theorem Work.pass_graphs (w : Work) (n : Nat) : (w.pass n).dev.graphs = w.dev.graphs := by rw [Work.pass_eq, Work.recordedT_graphs]
@[simp] theorem Work.pass_admissions (w : Work) (n : Nat) : (w.pass n).dev.admissions = w.dev.admissions := by rw [Work.pass_eq, Work.recordedT_admissions]
@[simp] theorem Work.pass_insts (w : Work) (n : Nat) : (w.pass n).dev.insts = w.dev.insts := by rw [Work.pass_eq, Work.recordedT_insts]
@[simp] theorem Work.pass_clusters (w : Work) (n : Nat) : (w.pass n).dev.clusters = w.dev.clusters := by rw [Work.pass_eq, Work.recordedT_clusters]
@[simp] theorem Work.pass_fetches (w : Work) (n : Nat) : (w.pass n).dev.fetches = w.dev.fetches := by rw [Work.pass_eq, Work.recordedT_fetches]
@[simp] theorem Work.pass_deals (w : Work) (n : Nat) : (w.pass n).dev.deals = w.dev.deals := by rw [Work.pass_eq, Work.recordedT_deals]
@[simp] theorem Work.pass_due (w : Work) (n : Nat) : (w.pass n).dev.due = w.dev.due := by rw [Work.pass_eq, Work.recordedT_due]
@[simp] theorem Work.pass_sync (w : Work) (n : Nat) : (w.pass n).dev.sync = w.dev.sync := by rw [Work.pass_eq, Work.recordedT_sync]
@[simp] theorem Work.pass_ports (w : Work) (n : Nat) : (w.pass n).dev.ports = w.dev.ports := by rw [Work.pass_eq, Work.recordedT_ports]
@[simp] theorem Work.pass_exch (w : Work) (n : Nat) : (w.pass n).dev.exch = w.dev.exch := by rw [Work.pass_eq, Work.recordedT_exch]
@[simp] theorem Work.pass_boot (w : Work) (n : Nat) : (w.pass n).dev.boot = w.dev.boot := by rw [Work.pass_eq, Work.recordedT_boot]
@[simp] theorem Work.pass_power (w : Work) (n : Nat) : (w.pass n).dev.power = w.dev.power := by rw [Work.pass_eq, Work.recordedT_power]
@[simp] theorem Work.pass_stock (w : Work) (n : Nat) : (w.pass n).dev.stock = w.dev.stock := by rw [Work.pass_eq, Work.recordedT_stock]
@[simp] theorem Work.pass_flrBusy (w : Work) (n : Nat) : (w.pass n).dev.flrBusy = w.dev.flrBusy := by rw [Work.pass_eq, Work.recordedT_flrBusy]

end Sys2Proof.Machine
end

