-- ==== Sys2Proof/Laws/Registers.lean ====
section
/-! SUPPORT. What a register write does, once it is accepted (R502): the lemmas from which every command that writes one register
gets its effect. -/

namespace Sys2Proof

open Machine

/-- An accepted write answers what its register's effect answers, or records the effect's rejection. -/
theorem writeReg_of_accepted {s : State} {who : Agent} {p : Page} {id : RegId} {i : Nat} {v : Word} (fe : Bool)
    (h : Accepted s who p id i v) :
    s.work.writeReg who (at_ p id i) v false fe
      = match s.work.writeEffect p (regOf p id) i who v fe with
        | .ok x => x
        | .error c => s.work.reject p who (at_ p id i % 0x1000) c := by
  obtain ⟨_, hp, hpr, hon, hr, hn, hw, hc, hm, hre, hres, hg⟩ := h
  have hc' : ¬ (p.block.hasPageCtl = false ∧ id = .pageCtl) := by
    rintro ⟨h1, h2⟩
    rcases hc with h | h
    · rw [h1] at h; cases h
    · exact h h2
  have hg' : ¬ (s.work.pageOn p = false ∧ 0x100 ≤ at_ p id i % 0x1000) := by
    rintro ⟨h1, h2⟩
    rcases hg with h | h
    · rw [h1] at h; cases h
    · omega
  unfold Work.writeReg
  rw [hp]
  simp only [State.work_variant, hpr, hon, Work.checkedWrite, hr, hn, hm, hre, hw, hc', hres, hg']
  simp <;> rfl

/-- The conditions of `Accepted` as one check, for concrete states. -/
def acceptedB (s : State) (who : Agent) (p : Page) (id : RegId) (i : Nat) (v : Word) : Bool :=
  s.work.answers who && decide (pageAt (at_ p id i) = some p) && p.present s.variant && !s.work.pageOffline (some p)
    && decide (findReg (pageRegs p.block) (at_ p id i % 0x1000) = some (regOf p id, i)) && decide ((regOf p id).id = id)
    && !(regOf p id).ignored i && (p.block.hasPageCtl || decide (id ≠ .pageCtl)) && s.work.mayWrite p (regOf p id) i who
    && s.work.reaches p id i who v && decide (v &&& (regOf p id).reserved = 0)
    && (s.work.pageOn p || decide (at_ p id i % 0x1000 < 0x100))

theorem accepted_iff {s : State} {who : Agent} {p : Page} {id : RegId} {i : Nat} {v : Word} :
    Accepted s who p id i v ↔ acceptedB s who p id i v = true := by
  unfold acceptedB
  simp only [Bool.and_eq_true, Bool.or_eq_true, Bool.not_eq_true', decide_eq_true_eq]
  constructor
  · rintro ⟨h1, h2, h3, h4, h5, h6, h7, h8, h9, h10, h11, h12⟩
    exact ⟨⟨⟨⟨⟨⟨⟨⟨⟨⟨⟨h1, h2⟩, h3⟩, h4⟩, h5⟩, h6⟩, h7⟩, h8⟩, h9⟩, h10⟩, h11⟩, h12⟩
  · rintro ⟨⟨⟨⟨⟨⟨⟨⟨⟨⟨⟨h1, h2⟩, h3⟩, h4⟩, h5⟩, h6⟩, h7⟩, h8⟩, h9⟩, h10⟩, h11⟩, h12⟩
    exact ⟨h1, h2, h3, h4, h5, h6, h7, h8, h9, h10, h11, h12⟩

/-- The same of the command that is that write. -/
theorem poke_of_accepted {s : State} {who : Agent} {p : Page} {id : RegId} {i : Nat} {v : Word} (fe : Bool)
    (h : Accepted s who p id i v) :
    s.work.poke who (at_ p id i) v fe
      = match s.work.writeEffect p (regOf p id) i who v fe with
        | .ok x => x
        | .error c => s.work.reject p who (at_ p id i % 0x1000) c := by
  unfold Work.poke
  rw [h.answers, if_pos rfl]
  exact writeReg_of_accepted fe h

/-- An effect that succeeds is the write's result. -/
theorem poke_ok {s : State} {who : Agent} {p : Page} {id : RegId} {i : Nat} {v : Word} {fe : Bool} {x : Work}
    (h : Accepted s who p id i v) (hx : s.work.writeEffect p (regOf p id) i who v fe = .ok x) :
    s.work.poke who (at_ p id i) v fe = x := by
  rw [poke_of_accepted fe h, hx]

theorem runs_iff (f : Work → Work) {i : Instr} {s : State} (h : exec i s = s.run f) : Runs i s (f s.work) := by
  unfold Runs; rw [h]; rfl

end Sys2Proof
end

