-- ==== Sys2Proof/Tests/Slice0.lean ====
section
/-! SUPPORT. Tests: every check of WellFormed refuses an ill-formed command; for every statement with hypotheses, concrete states
and operands that meet them, clause by clause; and single steps whose results the manual gives. -/

set_option Elab.async false

namespace Sys2Proof.Tests

open Sys2Proof Sys2Proof.Machine

/-! ### Building states -/

def tune (f : Dev → Dev) (s : State) : State := { s with dev := f s.dev }

/-- The state that a function of the working view leads to, its writes applied. -/
def after (f : Work → Work) (s : State) : State := ⟨s.variant, s.mem.writeAll (f s.work).out, (f s.work).dev, s.pending⟩

/-- Bytes at a device physical address. -/
def poke (a : Nat) (bytes : List Byte) : State → State := after (fun w => w.writePhys a (bytes.map (·, false)))

def le (n x : Nat) : List Byte := (List.range n).map (fun k => BitVec.ofNat 8 (x / 256 ^ k))

/-- In service, at full power, the time base counting. -/
def svc : State := tune (fun d => { d with
  boot := { d.boot with mode := .service }, power := { d.power with state := .full }, counting := true }) State.reset

def setR (p : Page) (id : RegId) (i : Nat) (v : Word) : State → State := after (fun w => w.setReg p id v i)

/-- Context 0 sees HBM from address 0 on, the SRAM window from 0x40000000 on, and host memory from 0x80000000 on. -/
def mapped : State :=
  poke 0x20000 (le 8 0xF000000000000000 ++ le 8 0xF00000C000000000 ++ le 8 0xF400000000000000)
    (setR pgTt .ttXlateLo 0 0x20001 svc)

/-- Descriptor bytes, given by offset and width. -/
def descOf (n : Nat) (l : List (Nat × Nat × Nat)) : List Byte :=
  (List.range n).map (fun k =>
    match l.find? (fun (o, w, _) => o ≤ k && k < o + w) with
    | some (o, _, x) => BitVec.ofNat 8 (x / 256 ^ (k - o))
    | none => 0)

def taskOf (st : TaskState) (l : List (Nat × Nat × Nat)) : Task :=
  { desc := descOf 128 l, fmts := [], state := st, metAt := none, softAt := none, releasedAt := 0, waitRegistered := false,
    waitMet := false, waitPhys := 0, dealt := false, launchTaken := false, launched := false, orderAt := 0, launchBeat := 0, span := 0, gen := 0,
    signalDue := none, err := 0, doneAt := 0 }

def graphOf (gid queue : Nat) (tasks : List Task) (edges : List Edge) : Graph :=
  { gid := gid, queue := queue, tag := 9, msix := 0xFFFF, ordered := false, afterGraph := none, complAddr := 0x40000, paramAddr := 0,
    tasks := tasks, edges := edges, valid := true, ttCancelled := false, silent := false, firstFail := none, poisonRead := 0,
    poisonWritten := 0 }

/-- A pitch of width 2 and height 1 at (0, 0), owned by context 0. -/
def pitched : State := setR pgTt .ttPitch 0 0x80000084 mapped

/-- With graph 5 of the given tasks on queue 0, ring and pitch in place. -/
def withTasks (tasks : List Task) (edges : List Edge := []) (s : State := pitched) : State :=
  tune (fun d => { d with graphs := [graphOf 5 0 tasks edges], nextId := 100 }) s

/-- With one instance of task 0 of graph 5, iid 20, in slot 0 of cluster 0, started. -/
def inst0 : Inst := { freshInst 20 5 0 0 0 0 4 with slot := some 0, started := true, hkCfg := 0x88000100 }

def withInsts (l : List Inst) (s : State) : State := tune (fun d => { d with insts := l }) s

/-! ### Reading results -/

def isOk {ε α : Type} : Except ε α → Bool
  | .ok _ => true
  | .error _ => false

/-- The value of what has succeeded. -/
def okOf {ε α : Type} : Except ε α → Option α
  | .ok a => some a
  | .error _ => none

theorem ok_iff_some {ε α : Type} {x : Except ε α} {a : α} : x = .ok a ↔ okOf x = some a := by
  obtain e | b := x <;> simp [okOf]

theorem ok_unit {ε : Type} {x : Except ε Unit} : x = .ok () ↔ isOk x = true := by
  obtain e | ⟨⟩ := x <;> simp [isOk]

theorem error_iff {ε α : Type} {x : Except ε α} : (∃ e, x = .error e) ↔ isOk x = false := by
  obtain e | a := x <;> simp [isOk]

theorem ok_iff {ε α β : Type} {x : Except ε α × β} : (∃ a b, x = (.ok a, b)) ↔ isOk x.1 = true := by
  obtain ⟨_ | a, b⟩ := x <;> simp [isOk]

theorem fails_iff {ε α β : Type} {x : Except ε α × β} : (∃ e b, x = (.error e, b)) ↔ isOk x.1 = false := by
  obtain ⟨_ | a, b⟩ := x <;> simp [isOk]

theorem pair_iff {α β : Type} {x : α × β} {a : α} : (∃ b, x = (a, b)) ↔ x.1 = a := by
  obtain ⟨_, b⟩ := x; simp

theorem found_iff {α : Type} {x : Option α} : (∃ a, x = some a) ↔ x.isSome = true := by cases x <;> simp

theorem okv_iff {ε α : Type} {x : Except ε α} : (∃ a, x = .ok a) ↔ isOk x = true := by
  obtain e | a := x <;> simp [isOk]

theorem some_iff {α : Type} {x : Option α} {p : α → Prop} [DecidablePred p] :
    (∃ a, x = some a ∧ p a) ↔ x.any (fun a => decide (p a)) = true := by
  cases x <;> simp

/-! ### Witnesses: the queue, memory, registers -/

theorem witness_EmptyQueueLetsOneBeatPass : State.reset.pending = [] := rfl

/-- A state of some command's completion. -/
theorem next_of_dev {i : Instr} {s : State} (f : Work → Work) (h : exec i s = s.run f) : ∃ t, exec i s = .next t := ⟨_, h⟩

theorem witness_QueueAndVariantKept : ∃ t, exec (.getHealth 8) svc = .next t := next_of_dev _ rfl

theorem witness_CanonicalMemoryKept :
    Safe { svc with pending := [.getHealth 8] } ∧ ∃ t, step { svc with pending := [.getHealth 8] } = .next t :=
  ⟨by unfold Safe; decide +kernel, ⟨_, rfl⟩⟩

theorem witness_ViewReadsWhatMemoryHolds : Memory.wf mapped.mem ∧ mapped.mem ≠ .empty := by decide +kernel

theorem witness_OnlyRawAccessesStop :
    ((4 = 4 ∨ 4 = 8) ∧ 0x3FFFFFC % 4 = 0 ∧ 0x3FFFFFC + 4 ≤ barBytes (.fn 0) 0)
    ∧ ((8 = 4 ∨ 8 = 8) ∧ 0x3FFF8 % 8 = 0 ∧ 0x3FFF8 + 8 ≤ barBytes (.fn 1) 2)
    ∧ 0 + 64 ≤ aperBytes 0 ∧ aperBytes 3 - 16 + 16 ≤ aperBytes 3 := by decide +kernel

theorem witness_RegisterMapHasNoOverlap :
    pgHub ∈ allPages ∧ (∃ r ∈ pageRegs .hub, 0 < r.count) ∧ (⟨.tt, 0⟩ : Page) ∈ allPages
    ∧ (∃ r ∈ pageRegs .tt, r.id = .ttPitch ∧ 31 < r.count) := by decide +kernel

theorem witness_PlainRegisterWriteStores :
    (RegId.shMigCount ∈ plainRegisters ∧ Accepted svc (.fn 0) ⟨.sh, 0⟩ .shMigCount 0 4096
      ∧ clusterRange svc.variant .shMigCount 4096 = .ok () ∧ hubRange .shMigCount 4096 = .ok ()
      ∧ at_ ⟨.sh, 0⟩ .shMigCount % 4 = 0 ∧ at_ ⟨.sh, 0⟩ .shMigCount + 4 ≤ 2 ^ 26)
    ∧ (RegId.skAtHi ∈ plainRegisters ∧ Accepted svc (.fn 0) pgSk .skAtHi 0 0xFFFFFFFF
      ∧ clusterRange svc.variant .skAtHi 0xFFFFFFFF = .ok () ∧ hubRange .skAtHi 0xFFFFFFFF = .ok ())
    ∧ (Accepted svc (.fn 0) pgCr .crEpochPeriod 0 10 ∧ hubRange .crEpochPeriod 10 = .ok ())
    ∧ (svc.work.answers (.fn 0) = true ∧ 0x3FFFFF8 % 8 = 0 ∧ 0x3FFFFF8 + 8 ≤ barBytes (.fn 0) 0) := by
  simp only [accepted_iff, ok_unit]
  decide +kernel

theorem witness_RejectedWriteIsRecordedOnly :
    svc.work.answers (.fn 0) = true
    ∧ (pageAt (at_ pgSy .syCfg) = some pgSy ∧ pgSy.present svc.variant = true ∧ svc.work.pageOffline (some pgSy) = false
      ∧ ∃ c, svc.work.checkedWrite pgSy (.fn 0) (at_ pgSy .syCfg % 0x1000) 0x10000 false false = .error c)
    ∧ (0x3FFFFFC % 4 = 0 ∧ 0x3FFFFFC + 4 ≤ 2 ^ 26 ∧ pageAt 0x3FFFFFC = none)
    ∧ (∃ p, pageAt 0 = some p ∧ p.present svc.variant = true) := by
  refine ⟨by decide +kernel, ⟨by decide +kernel, by decide +kernel, by decide +kernel, .reserved, rfl⟩, by decide +kernel, pgHub, by decide +kernel, by decide +kernel⟩

theorem witness_PageControlCommands :
    (⟨.gu, 3⟩ : Page).block.hasPageCtl = true ∧ ctlOff (Page.base ⟨.gu, 3⟩) = at_ ⟨.gu, 3⟩ .pageCtl
    ∧ (Accepted (setR ⟨.gu, 3⟩ .pageCtl 0 0 svc) (.fn 0) ⟨.gu, 3⟩ .pageCtl 0 (BitVec.ofNat 32 0 ||| 4)
      ∧ (setR ⟨.gu, 3⟩ .pageCtl 0 0 svc).work.rb ⟨.gu, 3⟩ .pageCtl 0 = false ∧ bitOf (BitVec.ofNat 32 0) 0 = false)
    ∧ (Accepted svc (.fn 0) ⟨.gu, 3⟩ .pageCtl 0 (atBit (b2n true) 1 ||| atBit (b2n true) 0) ∧ (true = true))
    ∧ (let s := setR ⟨.gu, 3⟩ .pageCtl 0 3 svc;
      Accepted s (.fn 0) ⟨.gu, 3⟩ .pageCtl 0 (atBit (b2n true) 1 ||| atBit (b2n false) 0)
      ∧ s.work.rb ⟨.gu, 3⟩ .pageCtl 0 = true ∧ bitOf (s.work.pageStat ⟨.gu, 3⟩) 30 = true) := by
  simp only [accepted_iff]
  decide +kernel

/-- Queue 1 of function 0 enabled, of 16 entries, with the given tail and head. -/
def queue1 (tail head : Word) : State :=
  after (fun w => ((w.setQreg 1 .qCfg 0x80000004).setQreg 1 .qTail tail).setQreg 1 .qHead head) svc

theorem witness_DoorbellMovesTail :
    (let s := queue1 0xFFFFFFFF 0xFFFFFFFF;
      s.work.answers (.fn 0) = true ∧ 1 < 32 ∧ s.work.inService = true ∧ bitOf (s.work.qreg (32 * 0 + 1) .qCfg) 31 = true
      ∧ 0 ≤ serialDiff (BitVec.ofNat 32 15).toNat (s.work.qreg (32 * 0 + 1) .qTail).toNat
      ∧ serialDiff (BitVec.ofNat 32 15).toNat (s.work.qreg (32 * 0 + 1) .qHead).toNat
        ≤ (2 ^ fld (s.work.qreg (32 * 0 + 1) .qCfg) 4 0 : Nat)
      -- one further is beyond the ring, one back is behind the tail
      ∧ (2 ^ fld (s.work.qreg (32 * 0 + 1) .qCfg) 4 0 : Nat)
        < serialDiff (BitVec.ofNat 32 16).toNat (s.work.qreg (32 * 0 + 1) .qHead).toNat
      ∧ serialDiff (BitVec.ofNat 32 0xFFFFFFFE).toNat (s.work.qreg (32 * 0 + 1) .qTail).toNat < 0)
    ∧ (State.reset.work.answers (.fn 0) = true ∧ State.reset.work.inService = false)
    ∧ (bitOf (svc.work.qreg (32 * 0 + 31) .qCfg) 31 = false ∧ svc.work.qBusy (32 * 0 + 31) = false) := by decide +kernel

/-! ### Witnesses: Deals and the tracker -/

/-- Slot 0 open, with what is given staged and pushed. -/
def dealing (staged : List (Nat × Word)) (words : List DirWord) (s : State := mapped) : State :=
  after (fun w => w.setDeal 0 (fun x => { x with state := .opened, staged := staged, words := words })) s

def word0 : DirWord := { va := 0x40000000, expect := 0, data := 1, compare := true, low32 := false, write := true }

theorem witness_DealOpensStagesAndCloses :
    (Accepted svc (.fn 0) pgDl .dlCtl 0 1 ∧ (svc.work.deal_ 0).state = .idle)
    ∧ (RegId.ttPitch ∈ [RegId.ttPitch, .ttXlateLo, .ttXlateHi] ∧ 31 < 32
      ∧ Accepted (dealing [] []) (.fn 0) pgTt .ttPitch 31 (BitVec.ofNat 32 0xC6002108)
      ∧ pitchRange (BitVec.ofNat 32 0xC6002108) = true ∧ ((dealing [] []).work.deal_ (Agent.slot (.fn 0))).state = .opened
      ∧ (∀ y ∈ (dealing [] []).dev.deals, y.staged = [])
      ∧ ((dealing [] []).work.deal_ (Agent.slot (.fn 0))).staged.length < 64)
    ∧ (let s := dealing [(at_ pgTt .ttPitch 31, 5)] [];
      Accepted s (.fn 0) pgTt .ttPitch 31 (BitVec.ofNat 32 0xC6002108) ∧ (s.work.deal_ (Agent.slot (.fn 0))).state = .opened
      ∧ (∀ y ∈ s.dev.deals.drop 1, y.staged = [])
      ∧ ∃ e ∈ (s.work.deal_ (Agent.slot (.fn 0))).staged, e.1 = at_ pgTt .ttPitch 31)
    ∧ (Accepted (dealing [] []) (.fn 0) pgDl .dlCtl 0 3 ∧ ((dealing [] []).work.deal_ 0).state = .opened)
    ∧ (let s := setR pgDl .dlDirAddrLo 0 0x40000000 (dealing [] []);
      Accepted s (.fn 0) pgDl .dlDirCtl 0 (1 ||| atBit (b2n true) 1 ||| atBit (b2n false) 2 ||| atBit (b2n true) 3)
      ∧ (s.work.deal_ 0).state = .opened ∧ 0x40000000 = s.work.slotPair .dlDirAddrLo .dlDirAddrHi 0 ∧ 0x40000000 % 8 = 0
      ∧ (s.work.wordAt (slotCtx 0) 0x40000000).1 = .sram ∧ (s.work.deal_ 0).words = [])
    ∧ (let s := setR pgDl .dlDirAddrLo 0 0x40000000 (dealing [] [word0]);
      Accepted s (.fn 0) pgDl .dlDirCtl 0 (1 ||| atBit (b2n true) 1 ||| atBit (b2n false) 2 ||| atBit (b2n true) 3)
      ∧ (s.work.deal_ 0).state = .opened ∧ 0x40000000 = s.work.slotPair .dlDirAddrLo .dlDirAddrHi 0
      ∧ (s.work.wordAt (slotCtx 0) 0x40000000).1 = .sram ∧ ∃ y ∈ (s.work.deal_ 0).words, y.va = 0x40000000) := by
  simp only [accepted_iff]
  decide +kernel

/-- Slot 0 committing TT_PITCH[31], due on beat 5. -/
def committing : State :=
  after (fun w => (w.setDeal 0 (fun x => { x with
    state := .committing, staged := [(at_ pgTt .ttXlateHi 31, 5)], due := 5 })).dealDue 5 (.slotted 0) []) svc

/-- The one-task graph being admitted from queue 1, its Deal due on beat 14. -/
def admitting : State :=
  tune (fun d => { d with
    admissions := [⟨1, 14, { graphOf 5 1 [taskOf .waiting [(0, 1, 8)]] [] with valid := false }⟩], due := [⟨14, 3, .admission 1, []⟩] })
    (queue1 1 0)

theorem witness_OneDealCommitsPerBeat :
    (committing.dev.nextCommit (fun _ => true) = some 5
      ∧ dealOrder ((committing.work.passTo 5).dev.due.filter (fun y => decide (y.firstDue ≤ 5))) = [⟨5, 0, .slotted 0, []⟩]
      ∧ (let w := (committing.work.passTo 5).upd (fun d => { d with due := d.due.filter (fun y => y.seq != 0) });
        0 < w.dev.deals.length ∧ (w.deal_ 0).state = .committing ∧ (w.dealFault 0).1 = none ∧ (w.deal_ 0).words = []
        ∧ ∀ e ∈ (w.deal_ 0).staged, ∀ n < 32, e.1 ≠ pitchOff n))
    ∧ (admitting.dev.nextCommit (fun y => match y.kind with
        | .admission _ => true
        | _ => false) = some 14
      ∧ dealOrder ((admitting.work.passTo 14).dev.due.filter (fun y => decide (y.firstDue ≤ 14))) = [⟨14, 3, .admission 1, []⟩]
      ∧ (let w := (admitting.work.passTo 14).upd (fun d => { d with due := d.due.filter (fun y => y.seq != 3) });
        (w.dev.admissions.find? (fun a => a.queue == 1)).isSome ∧ w.admissionHeld (1 / 32) = false)
      ∧ admitting.dev.nextCommit (fun _ => true) = some 14)
    ∧ (Accepted (dealing [] []) (.fn 0) pgDl .dlCtl 0 (2 ||| atBit 0 3 ||| atBit (b2n true) 4)
      ∧ ((dealing [] []).work.deal_ 0).state = .opened)
    -- validation of nothing ends on beat 4: AT on beat 5 is in time, on beat 4 it is late
    ∧ (let s := setR pgDl .dlAtLo 0 20 (dealing [] []);
      (s.work.deal_ 0).state = .opened ∧ Accepted s (.fn 0) pgDl .dlCtl 0 (2 ||| atBit 1 3 ||| atBit (b2n true) 4) ∧ s.dev.counting = true
      ∧ s.dev.time ≤ roundUp ((s.work.reg pgDl .dlAtLo 0).toNat + (s.work.reg pgDl .dlAtHi 0).toNat * 2 ^ 32) 4
      ∧ s.dev.beat + 4 + ceilDiv 0 8
        < s.dev.beat + ceilDiv (roundUp ((s.work.reg pgDl .dlAtLo 0).toNat + (s.work.reg pgDl .dlAtHi 0).toNat * 2 ^ 32) 4 - s.dev.time) 4)
    ∧ (let s := setR pgDl .dlAtLo 0 16 (dealing [] []);
      (s.work.deal_ 0).state = .opened ∧ Accepted s (.fn 0) pgDl .dlCtl 0 (2 ||| atBit 1 3 ||| atBit (b2n true) 4) ∧ s.dev.counting = true
      ∧ s.dev.beat + ceilDiv (roundUp ((s.work.reg pgDl .dlAtLo 0).toNat + (s.work.reg pgDl .dlAtHi 0).toNat * 2 ^ 32) 4 - s.dev.time) 4
        ≤ s.dev.beat + 4 + ceilDiv 0 8) := by
  simp only [accepted_iff]
  decide +kernel

/-- Queue 1 with one entry, naming a graph of one task whose KIND is given. -/
def submitted (kind : Nat) : State :=
  poke 0x50000 (descOf 64 [(0, 8, 0x51000), (8, 4, 9), (12, 2, 0xFFFF), (16, 8, 0x52000)])
    (poke 0x51000 (descOf 64 [(0, 1, 1), (2, 2, 1), (8, 8, 0x53000)])
      (poke 0x53000 (descOf 128 [(0, 1, kind)])
        (after (fun w => ((w.setQreg 1 .qCfg 0x80000004).setQreg 1 .qBaseLo 0x50000).setQreg 1 .qTail 1) pitched)))

theorem witness_AdmissionReadsAndQueues :
    (let s := submitted 8;
      s.work.inService = true ∧ bitOf (s.work.qreg 1 .qCfg) 31 = true ∧ s.work.qreg 1 .qHead ≠ s.work.qreg 1 .qTail
      ∧ s.work.admissionHeld (1 / 32) = false ∧ s.dev.admissions.length < 4 ∧ s.dev.admissions.any (fun x => x.queue == 1) = false
      ∧ s.dev.flrBusy.contains (1 / 32) = false ∧ s.dev.turns.find? (fun k => k == 1 || (s.work.admissionStep k).isSome) = some 1
      ∧ firstFail (s.work.readGraph 1).2.fails = none ∧ (s.work.readGraph 1).1.count = 1
      ∧ s.dev.held (1 / 32) + (s.work.readGraph 1).1.count ≤ s.work.rf pgTt .ttCtxCfg 17 0 (1 / 32)
      ∧ (s.work.readGraph 1).1.count ≤ s.dev.freeEntries)
    -- a quota of 0 that the graph exceeds, and one of 1 that another graph's task has taken
    ∧ (let s := setR pgTt .ttCtxCfg 0 0x80000000 (submitted 8);
      firstFail (s.work.readGraph 1).2.fails ≠ none ∧ s.work.rf pgTt .ttCtxCfg 17 0 (1 / 32) < (s.work.readGraph 1).1.count
      ∧ s.dev.turns.find? (fun k => k == 1 || (s.work.admissionStep k).isSome) = some 1)
    ∧ (let s := withTasks [taskOf .active [(0, 1, 6)]] [] (setR pgTt .ttCtxCfg 0 0x80000001 (submitted 8));
      s.work.rb pgTt .ttCtxCfg 31 (1 / 32) = true ∧ s.work.outOfService = false
      ∧ (s.work.readGraph 1).1.count ≤ s.work.rf pgTt .ttCtxCfg 17 0 (1 / 32)
      ∧ s.work.rf pgTt .ttCtxCfg 17 0 (1 / 32) < s.dev.held (1 / 32) + (s.work.readGraph 1).1.count
      ∧ s.dev.turns.find? (fun k => k == 1 || (s.work.admissionStep k).isSome) = some 1)
    ∧ (let s := submitted 9;
      s.work.inService = true ∧ bitOf (s.work.qreg 1 .qCfg) 31 = true ∧ s.work.qreg 1 .qHead ≠ s.work.qreg 1 .qTail
      ∧ s.dev.turns.find? (fun k => k == 1 || (s.work.admissionStep k).isSome) = some 1 ∧ firstFail (s.work.readGraph 1).2.fails = some ⟨6, .range, 0, 0⟩
      ∧ s.dev.held (1 / 32) + (s.work.readGraph 1).1.count ≤ s.work.rf pgTt .ttCtxCfg 17 0 (1 / 32)
      ∧ (s.work.readGraph 1).1.count ≤ s.dev.freeEntries) := by
  decide +kernel

/-- A waiting task of a kind, its conditions met on beat 3. -/
def ready (kind : Nat) : Task := { taskOf .waiting [(0, 1, kind), (76, 4, 3)] with metAt := some 3 }

/-- Task 1 of the kind, after a soft predecessor in the given state. -/
def released (kind : Nat) (st : TaskState) : State := withTasks [taskOf st [(0, 1, 6)], ready kind] [⟨0, 1, true⟩]

theorem witness_TaskIsReleased :
    (∀ kind ∈ [6, 7], ∀ st ∈ [TaskState.active, .done],
      let s := released kind st;
      ∃ g t, s.dev.graph? 5 = some g ∧ g.task? 1 = some t ∧ t.metAt = some 3 ∧ t.state = .waiting ∧ t.kind ≠ some .signal
        ∧ t.hasInstances = decide (kind = 6) ∧ g.softDone 1 = decide (st = .done))
    ∧ (∃ p, (released 6 .done).work.pitchOfTask 5 (ready 6) = some p)
    ∧ (let s := withTasks [{ ready 6 with state := .primed, softAt := some 4 }];
      ∃ t, s.dev.task? 5 0 = some t ∧ t.softAt = some 4 ∧ t.state = .primed)
    ∧ (let s := withTasks [ready 8];
      ∃ t, s.dev.task? 5 0 = some t ∧ t.metAt = some 3 ∧ t.kind = some .signal ∧ t.state = .waiting) := by
  simp only [found_iff]
  refine ⟨?_, by decide +kernel, ⟨_, rfl, by decide +kernel⟩, ⟨_, rfl, by decide +kernel⟩⟩
  intro kind hk st hs
  simp only [List.mem_cons, List.not_mem_nil, or_false] at hk hs
  rcases hk with rfl | rfl <;> rcases hs with rfl | rfl <;> exact ⟨_, _, rfl, rfl, by decide +kernel⟩

/-- One instance of a released COPY task waits in cluster 0. -/
def waitingInst : Inst := freshInst 20 5 0 0 0 0 3
def toPlace : State := withInsts [waitingInst] (withTasks [{ ready 6 with state := .released, dealt := true }])

theorem witness_SlotIsTaken :
    (toPlace.work.clusterOpen 0 = true ∧ toPlace.work.placeable 0 (toPlace.dev.waitingAt 0) = some waitingInst
      ∧ toPlace.work.freeSlot 0 = some 0
      ∧ (let w := toPlace.work.setInst 20 (fun x => { x with slot := some 0, tookAt := toPlace.dev.beat })
        waitingInst.task? (w.setTask 5 0 (fun t => { t with gen := w.gen 0 0 })).dev).isSome)
    -- the cluster of the last instance, and of one of two
    ∧ (let s := withInsts [{ inst0 with ended := true }] (withTasks [{ ready 6 with state := .active }]);
      ∃ i, s.dev.instIn? 0 0 = some i ∧ (i.task? s.dev).isSome ∧ s.work.committed i = true ∧ i.stopOrdered = false ∧ i.isLane = false
        ∧ ∀ t, i.task? s.dev = some t →
          (((s.work.bumpGen 0 0).cellSignal i t).leave i).dev.insts.any (fun j => j.gid == i.gid && j.ti == i.ti && !j.isLane) = false)
    ∧ (let s := withInsts [{ inst0 with ended := true }, { inst0 with iid := 21, cluster := 1, rel := 1 }] (withTasks [{ ready 6 with state := .active }]);
      ∃ i, s.dev.instIn? 0 0 = some i ∧ (i.task? s.dev).isSome ∧ s.work.committed i = true ∧ i.stopOrdered = false ∧ i.isLane = false
        ∧ ∀ t, i.task? s.dev = some t →
          (((s.work.bumpGen 0 0).cellSignal i t).leave i).dev.insts.any (fun j => j.gid == i.gid && j.ti == i.ti && !j.isLane) = true)
    ∧ (∃ i, (withInsts [{ inst0 with stopOrdered := true }] svc).dev.instIn? 0 0 = some i ∧ i.stopOrdered = true ∧ i.bumped = false)
    ∧ (∃ i, (withInsts [{ inst0 with stopOrdered := true, bumped := true }] svc).dev.instIn? 0 0 = some i
      ∧ i.stopOrdered = true ∧ i.bumped = true ∧ i.outTiles = []) := by
  refine ⟨by decide +kernel, ⟨_, rfl, by decide +kernel, by decide +kernel, rfl, rfl, ?_⟩,
    ⟨_, rfl, by decide +kernel, by decide +kernel, rfl, rfl, ?_⟩, ⟨_, rfl, rfl, rfl⟩, ⟨_, rfl, rfl, rfl, rfl⟩⟩
  · rintro _ ⟨⟩; decide +kernel
  · rintro _ ⟨⟩; decide +kernel

theorem witness_TaskTimesOut :
    let s := withTasks [{ taskOf .released [(0, 1, 6), (36, 4, 1)] with releasedAt := 8 }];
    ∃ t, s.dev.task? 5 0 = some t ∧ t.state.live = true ∧ t.state ≠ .waiting ∧ t.timeoutUs ≠ 0 := by
  simp only [some_iff]
  decide +kernel

theorem witness_CompletionRecordIsWritten :
    (let s := withTasks [taskOf .done [(0, 1, 6)]];
      ∃ g, s.dev.refusals.find? (fun r => r.gid == 5) = none ∧ s.dev.graph? 5 = some g ∧ g.valid = true ∧ g.ended = true
        ∧ s.dev.insts.any (fun i => i.gid == 5) = false ∧ g.tasks.any (fun t => t.signalDue.isSome) = false ∧ s.dev.tilesOf 5 = [])
    ∧ (∃ r, (tune (fun d => { d with refusals := [⟨6, 1, 0x52000, true, 0xFFFF, 9, 2, 0xFFFFFFFF, 0⟩] }) svc).dev.refusals.find?
        (fun r => r.gid == 6) = some r) :=
  ⟨⟨_, rfl, rfl, rfl, by decide +kernel, by decide +kernel, by decide +kernel, by decide +kernel⟩, ⟨_, rfl⟩⟩

theorem witness_CancelNamesGraphs :
    (1023 < 1024 ∧ Accepted svc (.fn 0) pgTt .ttCancel 0 (atBit 0 30 ||| atBit 1023 0)
      ∧ Accepted svc (.fn 0) pgTt .ttCancel 0 (atBit 1 30 ||| atBit 1023 0)
      ∧ Accepted svc (.fn 0) pgTt .ttCancel 0 (atBit 2 30 ||| atBit 1023 0))
    ∧ (let w := (withTasks [taskOf .active [(0, 1, 6)]]).work; let p := fun g : Graph => g.queue == 0;
      (∀ g h : Graph, g.queue = h.queue → g.tag = h.tag → p g = p h) ∧ (w.dev.graphs.map (·.gid)).Nodup
      ∧ ∃ g ∈ (w.cancelGraphs p false).dev.graphs, p g = true ∧ g.valid = true)
    ∧ (31 < 32 ∧ Accepted svc (.fn 0) pgTt .ttXlateInv 0 (BitVec.ofNat 32 31) ∧ svc.dev.ttInvDue = none
      ∧ (tune (fun d => { d with ttInvDue := some 31, sync := { d.sync with invDue := some 31 } }) svc).dev.ttInvDue = some 31
      ∧ (tune (fun d => { d with ttInvDue := some 31, sync := { d.sync with invDue := some 31 } }) svc).dev.sync.invDue = some 31)
    ∧ (Accepted svc (.fn 0) pgSy .syXlateInv 0 (BitVec.ofNat 32 31) ∧ svc.dev.sync.invDue = none) := by
  simp only [accepted_iff]
  refine ⟨by decide +kernel, ⟨?_, by decide +kernel, by decide +kernel⟩, by decide +kernel, by decide +kernel⟩
  intro g h hq _; simp [hq]

def saving (tasks : List Task) (l : List Inst) : State :=
  tune (fun d => { d with save := some (0, 250) }) (withInsts l (withTasks tasks))

theorem witness_ContextIsSavedAndRestored :
    (31 < 32 ∧ 0 < 65535 ∧ 65535 < 65536 ∧ 0 < 1 ∧ svc.dev.save = none
      ∧ Accepted svc (.fn 0) pgTt .ttSaveCtl 0 (atBit 1 24 ||| atBit 31 16 ||| atBit 65535 0)
      ∧ Accepted svc (.fn 0) pgTt .ttSaveCtl 0 (atBit 1 24 ||| atBit 0 16 ||| atBit 1 0)
      -- a limit of 0
      ∧ Accepted svc (.fn 0) pgTt .ttSaveCtl 0 (atBit 1 24 ||| atBit 31 16 ||| atBit 0 0)
      ∧ Accepted svc (.fn 0) pgTt .ttSaveCtl 0 (atBit 2 24 ||| atBit 31 16 ||| atBit 0 0))
    ∧ ((saving [ready 6] [inst0]).dev.save = some (0, 250) ∧ (saving [ready 6] [inst0]).dev.drainedCtx 0 = false)
    ∧ (let s := saving [ready 6] [];
      s.dev.save = some (0, 250) ∧ s.dev.drainedCtx 0 = true
      ∧ (let gs := s.dev.graphs.filter (fun g => g.ctx == 0 && !g.ended)
        let n := gs.foldl (fun k g => k + g.tasks.length) 0
        let cs := (s.work.localPitches 0).flatMap Pitch.clusters
        let img := s.work.imageHeader 0 n cs.length ++ gs.flatMap (fun g => (g.tasks.zipIdx).flatMap (fun (t, k) => taskImage g k t))
          ++ cs.flatMap s.work.clusterImage
        s.work.backed s.work.saveAddr img.length = true))
    ∧ (Accepted svc (.fn 0) pgTt .ttSaveCtl 0 (atBit 2 24 ||| atBit 0 16 ||| atBit 65535 0) ∧ svc.work.rb pgTt .ttCtxCfg 30 0 = false)
    ∧ (let s := setR pgTt .ttCtxCfg 0 0xC0020000 svc;
      Accepted s (.fn 0) pgTt .ttSaveCtl 0 (atBit 2 24 ||| atBit 0 16 ||| atBit 1 0) ∧ s.dev.save = none ∧ s.work.rb pgTt .ttCtxCfg 30 0 = true) := by
  simp only [accepted_iff]
  decide +kernel

/-! ### Witnesses: Hawker and Gather Unit -/

/-- A GATHER task over a table of 16 FP32 rows of 16 elements and a list of four IDs, with further descriptor fields. -/
def gatherTask (l : List (Nat × Nat × Nat)) : Task :=
  { taskOf .active (l ++ [(0, 1, 1), (32, 2, 4), (80, 8, 0x70000), (88, 4, 64), (94, 1, 1), (108, 2, 0xFFFF)]) with
    fmts := [(fmtFrontier, descOf 64 []), (fmtList, descOf 64 [(0, 8, 0x61000), (24, 4, 4)]),
      (fmtTable, descOf 64 [(0, 8, 0x60000), (8, 4, 16), (12, 2, 16), (14, 1, 1), (16, 4, 64)])], dealt := true }

def pbytes (l : List Byte) : List PByte := l.map (·, false)

/-- Its instance in cluster 0, with IDs 0, 1, null and 16 landed. -/
def idsLanded (l : List Landed := []) : Inst :=
  { inst0 with landed := [⟨sIds, 0, pbytes (le 4 0 ++ le 4 1 ++ le 4 0xFFFFFFFF ++ le 4 16)⟩] ++ l }

def gathering (i : Inst) (l : List (Nat × Nat × Nat) := []) : State := withInsts [i] (withTasks [gatherTask l])

/-- A fetch of that instance, with the given generation and place. -/
def fetchOf (gen : Word) (d : Dest) : Fetch :=
  { id := 30, unit := 0, cluster := 0, home := 0, slot := 0, gen := gen, iid := 20, gid := 5, ti := 0, ctx := 0, dest := d, phys := false,
    pieces := [(0x61000, 16)], span := [(0x61000, 16)], copy := pbytes (le 4 0 ++ le 4 1 ++ le 4 0xFFFFFFFF ++ le 4 16), cached := false,
    remote := none, dueAt := 0 }

def fetching (i : Inst) (f : Fetch) : State := tune (fun d => { d with fetches := [f] }) (gathering i)

/-- An expanded frontier of one vertex, its ID landed, with the offset array at 0x62000. -/
def vertexInst : Inst :=
  { inst0 with hi := 1, landed := [⟨sDesc, 0, pbytes (List.replicate 64 0)⟩, ⟨sDesc, 1, pbytes (List.replicate 64 0)⟩, ⟨sIds, 0, pbytes (le 4 3)⟩] }
def hubTask : Task := { gatherTask [(93, 1, 1), (96, 1, 1)] with
  fmts := [(fmtFrontier, descOf 64 [(1, 1, 1)]), (fmtList, descOf 64 [(0, 8, 0x61000), (24, 4, 1)]),
    (fmtTopo, descOf 64 [(0, 8, 0x62000), (8, 8, 0x63000), (32, 4, 16)]),
    (fmtTable, descOf 64 [(0, 8, 0x60000), (8, 4, 16), (12, 2, 16), (14, 1, 1), (16, 4, 64)])] }
def expanding (i : Inst) : State := withInsts [i] (withTasks [hubTask])

/-- The same with the line of vertex 3's two offsets (0x62018, in the line at 0x62000) in an enabled topology cache. -/
def cachedOffs : State :=
  tune (fun d => { d with clusters := put .empty 0 { (look Cluster.empty 0 d.clusters) with tc := [⟨0, 0x1880, pbytes (List.replicate 64 0), 0⟩] } d.clusters })
    (setR ⟨.hk, 0⟩ .hkTcCfg 0 0x80000000 (expanding vertexInst))

/-- No segment of context 0 translates. -/
def unmappedTask (i : Inst) (t : Task) : State := withInsts [i] (withTasks [t] [] (setR pgTt .ttPitch 0 0x80000084 svc))

theorem witness_StreamRequestIsIssued :
    -- a request that is not of topology
    (let w := (gathering inst0).work.stepBeat 0;
      w.pageOn ⟨.hk, 0⟩ = true ∧ w.dev.tags 0 < 2048 ∧ ∃ x, w.hawkerPick 0 = some x ∧ (x.1.task? w.dev).isSome = true ∧ x.2.req.topo = false
        ∧ x.2.first = true ∧ isOk ((w.count ⟨.hk, x.1.cluster⟩ 0).readVa (w.dev.ctxOf x.1.gid) x.2.va x.2.n (x.1.reader w.dev)).1 = true)
    -- one of topology with the cache off, and one with its line cached
    ∧ (let w := (expanding vertexInst).work.stepBeat 0;
      w.pageOn ⟨.hk, 0⟩ = true ∧ w.dev.tags 0 < 2048 ∧ ∃ x, w.hawkerPick 0 = some x ∧ (x.1.task? w.dev).isSome = true ∧ x.2.req.topo = true
        ∧ x.2.first = true
        ∧ (let hit := (w.count ⟨.hk, x.1.cluster⟩ 0).tcRead 0 0 [widen (x.2.va, x.2.n)] (x.1.reader w.dev)
          hit.1 = none ∧ isOk ((hit.2.count ⟨.hk, 0⟩ 3).readVa 0 (widen (x.2.va, x.2.n)).1 (widen (x.2.va, x.2.n)).2 (x.1.reader w.dev)).1 = true))
    ∧ (let w := cachedOffs.work.stepBeat 0;
      w.pageOn ⟨.hk, 0⟩ = true ∧ w.dev.tags 0 < 2048 ∧ ∃ x, w.hawkerPick 0 = some x ∧ (x.1.task? w.dev).isSome = true ∧ x.2.req.topo = true
        ∧ ((w.count ⟨.hk, x.1.cluster⟩ 0).tcRead 0 0 [widen (x.2.va, x.2.n)] (x.1.reader w.dev)).1.isSome = true)
    -- one whose address does not translate
    ∧ (let w := (unmappedTask inst0 (gatherTask [])).work.stepBeat 0;
      w.pageOn ⟨.hk, 0⟩ = true ∧ w.dev.tags 0 < 2048 ∧ ∃ x, w.hawkerPick 0 = some x ∧ (x.1.task? w.dev).isSome = true ∧ x.2.req.topo = false
        ∧ x.2.first = true ∧ isOk ((w.count ⟨.hk, x.1.cluster⟩ 0).readVa 0 x.2.va x.2.n (x.1.reader w.dev)).1 = false)
    ∧ Accepted svc (.fn 0) ⟨.hk, 0⟩ .hkTcCfg 0 (atBit (b2n true) 31 ||| 1)
    ∧ Accepted svc (.fn 0) ⟨.hk, 63⟩ .hkTcCfg 0 (atBit (b2n false) 31 ||| 1) := by
  simp only [accepted_iff, some_iff]
  decide +kernel

theorem witness_FetchLandsOrIsDropped :
    -- stale: dropped; a Shelf fill: written all the same
    (let s := fetching inst0 (fetchOf 1 (.stream sIds 0 0 1));
      ∃ f, s.dev.fetches.find? (fun f => f.id == 30) = some f ∧ f.remote = none ∧ s.work.stale f = true ∧ s.work.shelfFill f = false)
    ∧ (let s := fetching inst0 (fetchOf 1 (.copy 0 0 0x40000000 true true));
      ∃ f, s.dev.fetches.find? (fun f => f.id == 30) = some f ∧ f.remote = none ∧ s.work.stale f = true ∧ s.work.shelfFill f = true
        ∧ f.dest = .copy 0 0 0x40000000 true true)
    ∧ (let s := fetching { inst0 with rows := [⟨7, 0, 3, .home, .flying, [], false, 1⟩] } (fetchOf 0 (.row 7));
      ∃ f, s.dev.fetches.find? (fun f => f.id == 30) = some f ∧ f.remote = none ∧ s.work.stale f = false ∧ f.dest = .row 7)
    ∧ (∀ total ∈ [1, 2], let s := fetching inst0 (fetchOf 0 (.stream sIds 0 0 total));
      ∃ f, s.dev.fetches.find? (fun f => f.id == 30) = some f ∧ f.remote = none ∧ s.work.stale f = false ∧ f.dest = .stream sIds 0 0 total
        ∧ (let r := (s.work.dropFetch 30).arrived f.ctx f.phys f.pieces f.copy [] (s.dev.fetchReader f)
          let w := (r.2.count ⟨.hk, f.cluster⟩ 7 0).poisonRead f.gid 0
          (w.dev.inst? f.iid).isSome = true ∧ (w.dev.task? f.gid f.ti).isSome = true))
    ∧ (let s := fetching inst0 (fetchOf 0 (.copy 0 0 0x64000 true true));
      ∃ f, s.dev.fetches.find? (fun f => f.id == 30) = some f ∧ f.remote = none ∧ s.work.stale f = false ∧ f.dest = .copy 0 0 0x64000 true true)
    ∧ (let s := fetching inst0 (fetchOf 0 (.mcast 2));
      ∃ f, s.dev.fetches.find? (fun f => f.id == 30) = some f ∧ f.remote = none ∧ f.dest = .mcast 2)
    ∧ (∀ p ∈ inst0.parts, ¬ (p.stream = sIds ∧ p.item = 0)) := by
  simp only [some_iff]
  decide +kernel

/-- The vertex has degree 5: a hub from degree 2 on. -/
def hubInst : Inst := { vertexInst with landed := vertexInst.landed ++ [⟨sOffs, 0, pbytes (le 8 0 ++ le 8 5)⟩] }

theorem witness_IndexEntersTheCoalescer :
    (let w := (gathering (idsLanded)).work.stepBeat 0;
      w.dev.instIn? 0 0 = some (idsLanded) ∧ w.dev.inst? 20 = some (idsLanded) ∧ ∃ t, (idsLanded).task? w.dev = some t ∧ w.gathers (idsLanded) t = true ∧ (idsLanded).rows.any (fun r => r.st == .queued) = false
        ∧ w.streamHeld (idsLanded) = false
        ∧ (w.dev.resident 0).any (fun j => w.dev.hawkBefore j (idsLanded) && (w.nextIndex j).isSome) = false
        ∧ ∃ x, ((idsLanded).stream t w.self).1[(idsLanded).idxPos]? = some x ∧ (x.self = true ∨ x.hub = none))
    ∧ (let w := (expanding hubInst).work.stepBeat 0;
      w.dev.instIn? 0 0 = some hubInst ∧ w.dev.inst? 20 = some hubInst ∧ ∃ t, hubInst.task? w.dev = some t ∧ w.gathers hubInst t = true
        ∧ hubInst.rows.any (fun r => r.st == .queued) = false ∧ w.streamHeld hubInst = false
        ∧ (w.dev.resident 0).any (fun j => w.dev.hawkBefore j hubInst && (w.nextIndex j).isSome) = false
        ∧ ∃ x, (hubInst.stream t w.self).1[hubInst.idxPos]? = some x ∧ x.self = false ∧ x.hub = some (0, 5))
    -- the third index is null, the fourth is the row just past the table's 16
    ∧ (∃ x, ((idsLanded).stream (gatherTask []) 0).1[2]? = some x ∧ (idsLanded).classify (gatherTask []) x = .null)
    ∧ (∃ x, ((idsLanded).stream (gatherTask []) 0).1[3]? = some x
      ∧ (idsLanded).classify (gatherTask []) x = .fault ⟨.gatherRange, x.va, 0⟩)
    -- a row fetched on its own
    ∧ (∃ x, ((idsLanded).stream (gatherTask [(95, 1, 1)]) 0).1[1]? = some x ∧ (idsLanded).classify (gatherTask [(95, 1, 1)]) x = .row
      ∧ (gatherTask [(95, 1, 1)]).gather.noCoalesce = true ∧ x.home = none ∧ (gatherTask [(95, 1, 1)]).gather.scatter = none
      ∧ (idsLanded).shelfDir (gatherTask [(95, 1, 1)]) = 0)
    ∧ (let s := gathering { inst0 with winOpen := true, winIdle := 4, winAt := 2 };
      ∃ i, s.dev.instIn? 0 0 = some i ∧ ∃ t, i.task? s.dev = some t ∧ i.winOpen = true ∧ i.winIdle ≠ 0 ∧ s.work.gathers i t = true) := by
  simp only [some_iff]
  decide +kernel

def rowOf (st : RowState) (src : Source) (data : List PByte) : RowEnt := ⟨7, 0, 3, src, st, data, false, 1⟩

/-- A waiting row of the given source, with further descriptor fields. -/
def rowWaits (src : Source) (l : List (Nat × Nat × Nat) := []) (s : State := pitched) : State :=
  withInsts [{ inst0 with rows := [rowOf .queued src []] }] (withTasks [gatherTask l] [] s)

def remoteFetch : State :=
  fetching { inst0 with rows := [rowOf .flying (.remote 2) []] } { fetchOf 0 (.row 7) with unit := 1, remote := some (2, 3), dueAt := 100 }

/-- A route through port 15, which is up, to device 2. -/
def routed : State := tune (fun d => { d with
  exch := { d.exch with routes := [(2, 2, 15)] }, ports := updAt (fun q => { q with state := .up }) 15 d.ports }) pitched

theorem witness_RowFetchIsIssued :
    (∀ src ∈ [Source.home, .sourceRow 0, .default, .shelf 215 0, .shelf 0 49152, .remote 2],
      let w := (rowWaits src).work.stepBeat 0;
      ∃ i, w.dev.instIn? 0 0 = some i ∧ ∃ t, i.task? w.dev = some t ∧ i.rows.find? (fun r => r.st == .queued) = some (rowOf .queued src [])
        ∧ w.gathers i t = true ∧ w.dev.tags 0 < 2048 ∧ w.slotFree i t (rowOf .queued src []) = true)
    -- a Shelf row inside its slice, and one past its end
    ∧ (let w := (rowWaits (.shelf 215 0)).work.stepBeat 0;
      w.backed (slicePhys 215 (0 * 64)) (inst0.rowPiece (gatherTask []) (rowOf .queued (.shelf 215 0) [])).2 = true)
    ∧ (let w := (rowWaits (.shelf 0 49152)).work.stepBeat 0;
      w.backed (slicePhys 0 (49152 * 64)) (inst0.rowPiece (gatherTask []) (rowOf .queued (.shelf 0 49152) [])).2 = false)
    -- a home row that translates and one that does not, and the default row with and without an address
    ∧ (let w := (rowWaits .home).work.stepBeat 0; let p := inst0.rowPiece (gatherTask []) (rowOf .queued .home []);
      isOk (w.readVa 0 p.1 p.2 (inst0.reader w.dev)).1 = true)
    ∧ (let w := (rowWaits .home [] (setR pgTt .ttPitch 0 0x80000084 svc)).work.stepBeat 0;
      let p := inst0.rowPiece (gatherTask []) (rowOf .queued .home []);
      isOk (w.readVa 0 p.1 p.2 (inst0.reader w.dev)).1 = false)
    ∧ (inst0.rowPiece (gatherTask []) (rowOf .queued .default [])).1 = 0
    ∧ ({ inst0 with tbl := descOf 64 [(32, 8, 0x64000)] }.rowPiece (gatherTask []) (rowOf .queued .default [])).1 ≠ 0
    -- a device no port leads to, and one that a port does
    ∧ isOk ((rowWaits (.remote 2)).work.reach 2 none) = false
    ∧ isOk ((rowWaits (.remote 2) [] routed).work.reach 2 none) = true
    ∧ (∃ f, remoteFetch.dev.fetches.find? (fun f => f.id == 30 && f.remote.isSome) = some f
      ∧ ((remoteFetch.work.passTo f.dueAt).dropFetch 30).stale f = false
      ∧ ∃ i, ((remoteFetch.work.passTo f.dueAt).dropFetch 30).dev.inst? f.iid = some i
      ∧ ∃ t, i.task? ((remoteFetch.work.passTo f.dueAt).dropFetch 30).dev = some t ∧ t.state.live = true) := by
  simp only [some_iff]
  decide +kernel

/-- A scatter instance whose first occurrence, of target row 3, has its source row landed. -/
def scatterInst (poisoned stop : Bool) (c : List Comb) : Inst :=
  { inst0 with rows := [rowOf .landed (.sourceRow 0) ((List.replicate 64 0).map (·, poisoned))], stopPolicy := stop, comb := c,
               occs := [⟨⟨3, false, none, oneElem, 0, 0, 0x61000, false, none⟩, 7, 0⟩] }

def scatOf (held : Bool) (target stamp : Nat) : ScatEntry :=
  { node := 0, target := target, at_ := [(target, 64)], op := .add, u32 := false, ctx := 0, fmt := .fp32, n := 16, val := [], gid := 5, ti := 0,
    cluster := 0, row := 3, update := false, held := held, stamp := stamp, since := stamp, parts := [(5, 0, 0, 3, 0)] }

def scattering (l : List ScatEntry) : State := tune (fun d => { d with scat := l }) (gathering inst0 [(92, 1, 1)])

/-- The held entries of node 0 besides the one that arrives. -/
def heldBeside (s : State) : List ScatEntry := (dropMoving 0 s.dev.scat).filter (fun x => x.node == 0 && x.held)

/-- A bucket whose first entry is of row 3, VALID in cluster 0. -/
def bucket : List Byte := le 8 (3 * 2 ^ 32 + 0xFFFFFFFF) ++ le 8 (wbValid 0 0 0) ++ List.replicate 48 0

def bumping (dir row : Nat) (s : State := poke 0x64040 bucket mapped) : State :=
  tune (fun d => { d with bumps := [⟨1, 0, 0, 0x64040, 3⟩, ⟨0, 0, 0, dir, row⟩] }) s

/-- The bucket that the report of cluster 0 reads. -/
def bucketRead (s : State) (dir : Nat) : BucketRead :=
  ((s.work.upd (fun d => { d with bumps := [⟨1, 0, 0, 0x64040, 3⟩] })).readBucket 0 dir ⟨some 0, 0, 0⟩).1

theorem witness_ScatterUpdatesAreCombined :
    (let w := (gathering (scatterInst true true []) [(92, 1, 1)]).work.stepBeat 0;
      ∃ i, w.dev.instIn? 0 0 = some i ∧ ∃ t, i.task? w.dev = some t ∧ ∃ o, i.occs.head? = some o
        ∧ ∃ r, i.rows.find? (fun r => r.ref == o.ref && r.st == .landed) = some r ∧ w.gathers i t = true
        ∧ t.gather.scatter.isSome = true ∧ i.stopPolicy = true ∧ (r.data.any (·.2) = true ∨ o.idx.weight.p = true))
    ∧ (∀ poisoned ∈ [true, false], let w := (gathering (scatterInst poisoned (!poisoned) []) [(92, 1, 1)]).work.stepBeat 0;
      ∃ i, w.dev.instIn? 0 0 = some i ∧ ∃ t, i.task? w.dev = some t ∧ ∃ o, i.occs.head? = some o
        ∧ ∃ r, i.rows.find? (fun r => r.ref == o.ref && r.st == .landed) = some r ∧ w.gathers i t = true
        ∧ t.gather.scatter.isSome = true ∧ (i.stopPolicy = false ∨ (r.data.any (·.2) = false ∧ o.idx.weight.p = false)))
    ∧ ((scatterInst false true [⟨3, [], 1⟩]).comb.find? (fun e => e.row == 3)).isSome = true
    -- an entry of a row that is held, and of one that is not
    ∧ (let s := scattering [scatOf false 0x60000 0, scatOf true 0x60000 1];
      ∃ e, s.dev.scat.find? (fun e => e.node == 0 && !e.held) = some e
        ∧ (heldBeside s).any (fun x => x.target == e.target && x.op == e.op && x.ctx == e.ctx) = true)
    ∧ (let s := scattering [scatOf false 0x60000 0, scatOf true 0x60040 1];
      ∃ e, s.dev.scat.find? (fun e => e.node == 0 && !e.held) = some e
        ∧ (heldBeside s).any (fun x => x.target == e.target && x.op == e.op && x.ctx == e.ctx) = false)
    -- room with nothing held, and none for a body of the whole area beside another
    ∧ (2097152 ≤ 2097152 ∧ (scattering []).dev.scatRoom 0 2097152 = true
      ∧ (scattering [scatOf true 0x60000 1]).dev.scatRoom 0 2097152 = false)
    ∧ ((scattering [{ scatOf true 0x60000 1 with parts := [(99, 0, 0, 3, 0)] }]).dev.scat.filter (fun x => x.node == 0 && x.held)).any
        (fun e => (scattering [{ scatOf true 0x60000 1 with parts := [(99, 0, 0, 3, 0)] }]).dev.finalSent e) = true
    ∧ (let s := scattering [scatOf true 0x60000 2, scatOf true 0x60040 1, scatOf true 0x60080 1];
      s.dev.scat.filter (fun x => x.node == 0 && x.held) = [scatOf true 0x60000 2] ++ scatOf true 0x60040 1 :: [scatOf true 0x60080 1]
        ∧ (∀ x ∈ [scatOf true 0x60000 2] ++ scatOf true 0x60040 1 :: [scatOf true 0x60080 1], s.dev.finalSent x = false)
        ∧ (∀ x ∈ [scatOf true 0x60000 2], (scatOf true 0x60040 1).stamp < x.stamp)
        ∧ (∀ x ∈ [scatOf true 0x60080 1], (scatOf true 0x60040 1).stamp ≤ x.stamp))
    -- a report with no directory, with a bucket that does not translate, is poisoned, lacks the row or holds it
    ∧ (∀ dir ∈ [0, 0x64040], (bumping dir 3).dev.bumps = [⟨1, 0, 0, 0x64040, 3⟩] ++ ⟨0, 0, 0, dir, 3⟩ :: []
      ∧ ∀ x ∈ [(⟨1, 0, 0, 0x64040, 3⟩ : BumpDue)], x.cluster ≠ 0)
    ∧ (bucketRead (bumping 0x64040 3 svc) 0x64040 = .fault 0x64040)
    ∧ (bucketRead (bumping 0x64040 3 (after (fun w => w.writePhys 0x64040 (bucket.map (·, true))) mapped)) 0x64040 = .poisoned)
    ∧ (bucketRead (bumping 0x64040 3) 0x64040 = .ok bucket ∧ matchEntry bucket 3 = some (0, 3 * 2 ^ 32 + 0xFFFFFFFF, wbValid 0 0 0)
      ∧ matchEntry bucket 4 = none) := by
  simp only [some_iff]
  decide +kernel

/-! ### Witnesses: Wholesale path, Shelf, engines -/

def hubTask' : Task := { hubTask with
  fmts := hubTask.fmts.map (fun (k, b) => if k = fmtTopo then
    (k, descOf 64 [(0, 8, 0x62000), (8, 8, 0x63000), (24, 8, 0x65000), (32, 4, 16), (36, 4, 1)]) else (k, b)) }

def hubOf (tag : Option Nat) : Hub :=
  { gid := 5, ti := 0, iid := 20, seg := 0, vertex := 3, first := 0, degree := 5, tag := tag, asked := tag.isNone, askedAt := 0, edges := [],
    dealt := 0, lastCand := 0, creditAt := 0, perDie := [0, 0, 0, 0], closed := false, total := 0, aborted := false, selfSeen := false,
    cluster := 0 }

/-- One hub of the instance, its directory entry giving the first neighbour. -/
def hubbing (tag : Option Nat) (first : Nat) : State :=
  poke 0x65000 (le 4 3 ++ le 4 5 ++ le 8 first)
    (tune (fun d => { d with hubs := [hubOf tag] }) (withInsts [hubInst] (withTasks [hubTask'])))

/-- The same with no translation of its context. -/
def hubUnmapped : State :=
  tune (fun d => { d with hubs := [hubOf none] }) (unmappedTask hubInst hubTask')

def granted (s : State) (tag : Nat) : Work :=
  let w := s.work.passTo 6
  let w := w.count ⟨.wh, 0⟩ 4 (w.dev.beat - 0)
  w.setHub 20 0 (fun h => { h with tag := some tag, creditAt := w.dev.beat })

/-- What the search of the directory gives the granted hub. -/
def listedAs (s : State) (tag : Nat) : Option DirFound :=
  ((granted s tag).dev.inst? 20).bind (fun i => (i.task? (granted s tag).dev).map (fun t => ((granted s tag).hubListed i t (hubOf none)).1))

/-- All tags but the last are held by draining ones. -/
def lastTag (s : State) : State := tune (fun d => { d with abortedTags := (List.range 255).map (fun k => (k, 0, 3, 1)) }) (setR ⟨.chRoot, 0⟩ .chRootCfg 0 256 s)

theorem witness_HubTagIsGranted :
    (let s := hubbing none 0; s.work.tagRequest = some (hubOf none) ∧ s.dev.freeTag = some 0 ∧ listedAs s 0 = some .ok)
    ∧ (let s := lastTag (hubbing none 0); s.work.tagRequest = some (hubOf none) ∧ s.dev.freeTag = some 255 ∧ listedAs s 255 = some .ok)
    ∧ (let s := hubbing none 1; s.work.tagRequest = some (hubOf none) ∧ s.dev.freeTag = some 0 ∧ listedAs s 0 = some (.bad 0x65000))
    ∧ (let s := hubUnmapped; s.work.tagRequest = some (hubOf none) ∧ s.dev.freeTag = some 0 ∧ listedAs s 0 = some (.fault 0x65000)) := by
  decide +kernel

theorem witness_SlabsAreDealt :
    (let s := hubbing (some 0) 0;
      ∃ x, s.work.dealer 0 0 = some x ∧ s.work.rotation x.2.2.2 x.2.2.1.lastCand (x.1.table x.2.1).slot ≠ []
        ∧ (s.work.rotation x.2.2.2 x.2.2.1.lastCand (x.1.table x.2.1).slot).find? s.work.credit = some 1
        ∧ (List.range 8).find? (fun k => (s.dev.instIn? 1 (8 + k)).isNone) = some 0)
    -- no cluster takes slabs: no candidate, so no credit either
    ∧ (let s := setR ⟨.wh, 0⟩ .whCfg 0 0 (setR ⟨.wh, 1⟩ .whCfg 0 0 (hubbing (some 0) 0));
      ∃ x, s.work.dealer 0 0 = some x ∧ s.work.rotation x.2.2.2 x.2.2.1.lastCand (x.1.table x.2.1).slot = []
        ∧ (s.work.rotation x.2.2.2 x.2.2.1.lastCand (x.1.table x.2.1).slot).any s.work.credit = false
        ∧ (s.dev.instIn? x.1.cluster (16 + x.1.slot.getD 0)).isSome = false) := by
  simp only [some_iff]
  decide +kernel

def laneInst (stopped : Bool) : Inst :=
  { inst0 with slot := some 15, ended := true, stopOrdered := stopped, agg := some [oneElem], aggCount := 5, owner := 20 }

def treeState (m : List TreeMsg) (aborted : List (Nat × Nat × Nat × Nat)) : State :=
  tune (fun d => { d with tree := m, abortedTags := aborted }) (hubbing (some 0) 0)

def mergeOf (tag : Nat) (body : Option (List Elem)) : MergeEntry := ⟨tag, .sum, 0, 1, 1, 5, body, false⟩

theorem witness_HubPartialsAreMerged :
    (∀ lane ∈ [7, 8], let s := withInsts [{ laneInst false with slot := some (8 + lane) }] (withTasks [gatherTask []]);
      ∃ i, s.dev.instIn? 0 (8 + lane) = some i ∧ (i.task? s.dev).isSome = true ∧ (i.ended = true ∨ i.stopOrdered = true) ∧ i.stopOrdered = false
        ∧ i.agg.isSome = true)
    ∧ (let s := withInsts [laneInst true] (withTasks [gatherTask []]);
      ∃ i, s.dev.instIn? 0 (8 + 7) = some i ∧ (i.task? s.dev).isSome = true ∧ i.stopOrdered = true)
    ∧ (∀ body ∈ [none, some [oneElem]], let s := treeState ([.close 4 0 1 1] ++ .entry 4 (mergeOf 0 body) :: [.entry 4 (mergeOf 1 none)]) [];
      s.dev.tree = [.close 4 0 1 1] ++ .entry 4 (mergeOf 0 body) :: [.entry 4 (mergeOf 1 none)]
      ∧ s.dev.abortedTags.any (fun x => x.1 == 0) = false)
    ∧ ((treeState [.entry 0 (mergeOf 7 none)] [(7, 0, 3, 1)]).dev.abortedTags.any (fun x => x.1 == 7) = true)
    -- a CLOSE of a live hub, of an aborted tag, of no hub, and one with no count
    ∧ (let s := treeState [.close 0 0 1 1] [];
      s.dev.tree = [] ++ .close 0 0 1 1 :: [] ∧ 1 ≠ 0 ∧ s.dev.abortedTags.any (fun x => x.1 == 0) = false
      ∧ s.dev.hubs.any (fun h => h.tag == some 0) = true)
    ∧ (treeState [.close 0 7 1 1] [(7, 0, 3, 1)]).dev.abortedTags.any (fun x => x.1 == 7) = true
    ∧ (let s := treeState [.close 0 9 1 1] [];
      s.dev.abortedTags.any (fun x => x.1 == 9) = false ∧ s.dev.hubs.any (fun h => h.tag == some 9) = false)
    ∧ (let s := treeState [.aggregate 0 5 none] [];
      s.dev.tree = [] ++ .aggregate 0 5 none :: [] ∧ s.dev.hubs.find? (fun h => h.tag == some 0) = some (hubOf (some 0))) := by
  simp only [some_iff]
  decide +kernel

theorem witness_HubPartialsAreMerged_first (node : Nat) :
    (∀ x ∈ [TreeMsg.close 4 0 1 1], ∀ f : MergeEntry, x ≠ .entry node f) ∧ (∀ x ∈ ([] : List TreeMsg), ∀ t n m : Nat, x ≠ .close node t n m)
    ∧ (∀ x ∈ ([] : List TreeMsg), ∀ (t n : Nat) (b : Option (List Elem)), x ≠ .aggregate t n b) := by
  simp

/-- A COPY task that sends a stream of two rows to its pitch, one credit each, under STALL or DETACH. -/
def streamTask (detach : Nat) : Task := { taskOf .active [(0, 1, 6), (72, 1, 1), (32, 2, 4)] with
  fmts := [(fmtStream, descOf 64 [(1, 1, detach), (2, 2, 3), (4, 4, 2), (16, 8, 0x61000), (28, 2, 1), (34, 2, 10)]),
    (fmtTable, descOf 64 [(0, 8, 0x60000), (8, 4, 16), (12, 2, 16), (14, 1, 1), (16, 4, 64)])] }

def oneRow : List PByte := pbytes (List.replicate 64 1)

/-- The stream with so many rows sent and kept, so many staged, and so many credited by its receiver in cluster 0. -/
def streamOf (sent staged credited : Nat) : McStream :=
  { iid := 20, gid := 5, ti := 0, cluster := 0, sent := sent, ctx := 0, off := 0, slotBytes := 64, read := sent + staged,
    staged := (List.range staged).map (fun k => (sent + k, oneRow)), waitAt := 0,
    recvs := [⟨false, 0, credited, credited, false⟩, ⟨false, 1, 0, 0, false⟩], rows := (List.range sent).map (fun k => (k, oneRow)),
    ended := false, stopped := false }

def streaming (detach : Nat) (l : List McStream) : State :=
  tune (fun d => { d with streams := l }) (withInsts [inst0] (withTasks [streamTask detach]))

/-- The state of a sending cluster on its next beat, streams that are over dropped. -/
def onBeat (s : State) : Work := (s.work.stepBeat 0).sweepStream 0

theorem witness_MulticastRowsAreSentAndLand :
    (∀ l ∈ [[], [streamOf 0 0 0], [streamOf 0 1 0], [{ streamOf 0 1 0 with stopped := true }]], let w := (streaming 0 l).work.stepBeat 0;
      w.pageOn ⟨.wh, 0⟩ = true ∧ w.pageOn ⟨.pt, 0⟩ = true)
    -- a row is staged and every receiver has credit
    ∧ (∃ m, (onBeat (streaming 0 [streamOf 0 1 0])).dev.stream? 0 = some m ∧ m.stopped = false
      ∧ m.staged.find? (fun x => x.1 == m.sent) = some (0, oneRow)
      ∧ ∃ t, (onBeat (streaming 0 [streamOf 0 1 0])).dev.task? m.gid m.ti = some t ∧ m.maySend t.stream.credits = true)
    -- nothing is staged: the next read, with nothing used and with the reservation partly used
    ∧ (∀ staged ∈ [[], [(1, oneRow)]], let v := onBeat (streaming 0 [{ streamOf 0 0 0 with staged := staged }]);
      ∃ m, v.dev.stream? 0 = some m ∧ m.stopped = false ∧ m.staged.find? (fun x => x.1 == m.sent) = none ∧ v.dev.tags m.cluster < 2048
      ∧ ∃ t, v.dev.task? m.gid m.ti = some t ∧ m.read < t.stream.rows ∧ t.landing = 4 ∧ (tableOf (t.fmt fmtTable)).rowBytes = 64
      ∧ v.dev.porterBytes m.iid + m.staged.foldl (fun a x => a + x.2.length) 0 + 64 ≤ t.landing * 1024
      ∧ ∃ i, v.dev.inst? m.iid = some i ∧ i.stopOrdered = false)
    -- a stopped stream with two rows still to go out, and one with none whose last row has not landed
    ∧ (∃ m, (onBeat (streaming 0 [{ streamOf 0 2 0 with stopped := true }])).dev.stream? 0 = some m ∧ m.stopped = true ∧ (0, oneRow) ∈ m.staged
      ∧ ∀ x ∈ m.staged, x ≠ (0, oneRow) → 0 < x.1)
    ∧ (∃ m, (onBeat (streaming 0 [{ streamOf 1 0 0 with stopped := true }])).dev.stream? 0 = some m ∧ m.stopped = true ∧ m.staged = [])
    -- no stream yet
    ∧ ((onBeat (streaming 0 [])).dev.stream? 0 = none ∧ ((onBeat (streaming 0 [])).streamSender 0).isSome = true)
    -- a row sent lands in cluster 1
    ∧ (∃ m, (streaming 0 [streamOf 1 0 0]).dev.stream? 0 = some m ∧ ∃ x, m.recvs.find? (fun x => !x.remote && x.who == 1 && !x.detached) = some x
      ∧ m.rows[x.landed]? = some (0, oneRow))
    ∧ (∃ x, (streaming 0 [streamOf 1 0 1]).work.mcWaiting 0 false = some x ∧ x.2.1.state.live = true)
    ∧ (∃ x, (streaming 1 [streamOf 1 0 1]).work.mcWaiting 0 true = some x ∧ x.2.2.1.remote = false ∧ x.2.2.2 ≠ []) := by
  simp only [some_iff]
  decide +kernel

/-- The Shelf unit of cluster 0 in the list at 0x66000, whose only entry is given; its directory is at 0x40000000. -/
def migOf (entryVa : Option Nat) : Migration :=
  { cluster := 0, ctx := 0, table := 0, count := 1, listVa := 0x66000, dirHdr := descOf 64 [(1, 1, 4)], done := 0, row := 3, slot := 0,
    tbl := descOf 64 [(0, 8, 0x60000), (8, 4, 16), (12, 2, 16), (14, 1, 1), (16, 4, 64), (48, 8, 0x40000000)], entryVa := entryVa, prior := 0,
    attempt := 1, version := 0, readAt := 0, copy := pbytes (List.replicate 64 0), copying := entryVa.isSome, outcome := 0, stop := false }

def bucket3 : Nat := bucketVa 0x40000000 4 3

def migrating (m : Migration) (op : Nat) (b : List Byte) : State :=
  poke (0xC000000000 + bucket3 - 0x40000000) b (poke 0x66000 (le 8 (op * 2 ^ 48 + 3)) (tune (fun d => { d with migs := [m] }) mapped))

def tables : State := setR pgEb .ebTables 0 0x40000000 svc

/-- The list entry and the bucket that the migration of a state reads. -/
def entryRead (s : State) : Option (List PByte) := okOf (s.work.readVa 0 0x66000 8 ((migOf none).reader s.work)).1
def bucketOf (s : State) : BucketRead :=
  let l := s.work.readVa 0 0x66000 8 ((migOf none).reader s.work)
  (l.2.readBucket 0 bucket3 ((migOf none).reader l.2)).1

/-- A bucket whose third entry alone is empty. -/
def lastFree : List Byte :=
  let e (r : Nat) := le 8 (r * 2 ^ 32) ++ le 8 (wbValid 0 0 0)
  e 8 ++ e 9 ++ e 10 ++ List.replicate 16 0

theorem witness_RowsMigrateIntoTheShelf :
    (let s := setR ⟨.sh, 0⟩ .shMigCount 0 1 tables;
      16383 < s.work.rf pgEb .ebTables 30 16 0 ∧ 16383 < 16384 ∧ s.work.rf ⟨.sh, 0⟩ .shMigCount 15 0 ≠ 0 ∧ s.dev.mig? 0 = none
      ∧ (setR pgTt .ttPitch 0 0x80000084 s).work.rf ⟨.sh, 0⟩ .shMigCount 15 0 ≠ 0
      ∧ Accepted (setR pgTt .ttPitch 0 0x80000084 s) (.fn 0) ⟨.sh, 0⟩ .shMigCtl 0 (atBit 1 31 ||| atBit 0 16 ||| atBit 16383 0))
    -- the bucket is empty, or has one free entry, its last
    ∧ (∀ x ∈ [(List.replicate 64 (0 : Byte), 0), (lastFree, 3)], let s := migrating (migOf none) 1 x.1;
      s.dev.mig? 0 = some (migOf none) ∧ s.work.pageOn ⟨.sh, 0⟩ = true ∧ entryRead s = some ((leBytes 8 (2 ^ 48 + 3)).map (·, false))
      ∧ entryBad (migOf none) (2 ^ 48 + 3) = false ∧ fieldN (2 ^ 48 + 3) 51 48 = 1 ∧ bucketOf s = .ok x.1 ∧ matchEntry x.1 3 = none
      ∧ ((List.range 4).find? fun k => match (bucketEntries x.1)[k]? with
        | some (_, y) => wbState y == 0
        | none => false) = some x.2
      ∧ (let l := s.work.readVa 0 0x66000 8 ((migOf none).reader s.work)
        let y := l.2.readBucket 0 bucket3 ((migOf none).reader l.2)
        isOk (y.2.writeVa 0 (bucket3 + 16 * x.2) ((leBytes 8 (3 * 2 ^ 32)).map (·, false) ++ (leBytes 8 (wbPending 0)).map (·, false))
          ((migOf none).reader y.2)).1 = true))
    -- a landed row, on the last beat of an attempt: clean, and poisoned
    ∧ (let s := tune (fun d => { d with beat := 65536 }) (migrating (migOf (some bucket3)) 1 bucket);
      (∃ m, s.dev.mig? 0 = some m ∧ m.entryVa = some bucket3 ∧ m.copying = true ∧ s.dev.beat ≤ m.readAt + 65536
        ∧ ((s.work.arrived m.ctx false [(m.T.rowVa m.row, m.T.rowBytes)] m.copy [] (m.reader s.work)).1.any (·.2)) = false
        ∧ ((s.work.arrived m.ctx false [(m.T.rowVa m.row, m.T.rowBytes)] m.copy [.uncorrectable 0] (m.reader s.work)).1.any (·.2)) = true)) := by
  simp only [accepted_iff, some_iff]
  decide +kernel

def tableState (paused versioned : Bool) : State :=
  tune (fun d => { d with tblCtl := put 0 0 (atBit (b2n paused) 31 ||| atBit (b2n versioned) 30) d.tblCtl }) tables

/-- A bucket whose first entry, of row 3, is PENDING. -/
def pendingBucket : List Byte := le 8 (3 * 2 ^ 32) ++ le 8 (wbPending 0) ++ List.replicate 48 0

theorem witness_RowsAreEvictedAndTablesPaused :
    -- the row is VALID in the directory, is PENDING there, or is not there
    (∀ b ∈ [bucket, pendingBucket, List.replicate 64 (0 : Byte)], let s := migrating (migOf none) 2 b;
      s.dev.mig? 0 = some (migOf none) ∧ (migOf none).cluster = 0 ∧ (migOf none).entryVa = none ∧ s.work.pageOn ⟨.sh, 0⟩ = true
      ∧ entryRead s = some ((leBytes 8 (2 * 2 ^ 48 + 3)).map (·, false)) ∧ entryBad (migOf none) (2 * 2 ^ 48 + 3) = false
      ∧ fieldN (2 * 2 ^ 48 + 3) 51 48 = 2 ∧ bucketOf s = .ok b)
    ∧ (matchEntry bucket 3 = some (0, 3 * 2 ^ 32 + 0xFFFFFFFF, wbValid 0 0 0) ∧ wbState (wbValid 0 0 0) = 2)
    ∧ (matchEntry pendingBucket 3 = some (0, 3 * 2 ^ 32, wbPending 0) ∧ wbState (wbPending 0) ≠ 2)
    ∧ matchEntry (List.replicate 64 0) 3 = none
    ∧ (∀ p ∈ [true, false], ∀ v ∈ [true, false], Accepted tables (.fn 0) pgEb .ebTblCtl 0 (atBit (b2n p) 31 ||| atBit (b2n v) 30)
      ∧ Accepted (tableState p v) (.fn 0) pgEb .ebTblCtl 0 (atBit (b2n p) 31 ||| atBit (b2n v) 30))
    ∧ (tables.work.rf pgEb .ebTblSel 13 0 0 < tables.work.rf pgEb .ebTables 30 16 0)
    -- may be written: PAUSED alone; may not: PAUSED on a VERSIONED table, VERSIONED on a PAUSED one
    ∧ (let old := look 0 (tables.work.selSlot 0) tables.dev.tblCtl;
      ¬ ((true = true ∧ bitOf old 31 = false ∧ (bitOf old 30 = true ∨ false = true)) ∨ (bitOf old 31 = true ∧ bitOf old 30 ≠ false)))
    ∧ (let old := look 0 ((tableState false true).work.selSlot 0) (tableState false true).dev.tblCtl;
      true = true ∧ bitOf old 31 = false ∧ (bitOf old 30 = true ∨ false = true))
    ∧ (let old := look 0 ((tableState true false).work.selSlot 0) (tableState true false).dev.tblCtl;
      bitOf old 31 = true ∧ bitOf old 30 ≠ true) := by
  simp only [accepted_iff]
  refine ⟨?_, ?_, ?_, ?_, ?_, ?_, ?_, ?_, ?_⟩ <;> decide +kernel

/-- A COPY task of one descriptor at 0x67000, which copies 64 bytes. -/
def copying (desc : List Byte) (i : Inst) : State :=
  poke 0x67000 desc (withInsts [{ i with hi := 1 }] (withTasks [taskOf .active [(0, 1, 6), (32, 2, 4), (64, 8, 0x67000), (76, 4, 1)]]))

def copyDesc (len : Nat) : List Byte := descOf 32 [(0, 8, 0x60000), (8, 8, 0x70000), (16, 4, len), (20, 4, 1)]

/-- The dispatcher's choice in cluster 0, and the state in which it steps. -/
def dispatched (s : State) : Option Inst :=
  let v := (s.work.startDue 0).noteStarving 0
  (v.dev.dispatchOrder 0).find? (fun i => (v.instStep i).isSome && !v.heldByStall i)
def stepping (s : State) (i : Inst) : Work :=
  let v := (s.work.startDue 0).noteStarving 0
  (v.passTo (v.dev.wokenAt i.iid)).stepBeat 0

/-- Chosen, of cluster 0, and of a task. -/
def steps (s : State) (i : Inst) (t : Task) : Bool := dispatched s = some i && i.cluster = 0 && i.task? (stepping s i).dev = some t

/-- Nothing of it waits in the epilogue and it may step. -/
def mayStep (i : Inst) : Bool := i.outTiles = [] && !i.stopOrdered && !i.voided && (i.started || i.isLane) && !i.ended

def tileOf : TileOut := ⟨20, 5, 0, 0, 0x70000, pbytes (List.replicate 128 0), true, false⟩

/-- A TRANSFORM of one row, K 512 and N 32, with its row and both K-panels landed. -/
def xTask : Task := taskOf .active
  [(0, 1, 3), (64, 8, 0x60000), (72, 8, 0x62000), (80, 8, 0x70000), (104, 4, 1), (108, 2, 512), (110, 2, 32), (112, 1, 1), (113, 1, 1), (114, 1, 1)]
def xInst (sub : Nat) (poisoned : Bool) : Inst :=
  { inst0 with hi := 1, rb := 64, sub := sub, stopPolicy := poisoned,
               landed := [⟨sX, 0, (List.replicate 64 0).map (·, poisoned)⟩, ⟨sPanel, 0, []⟩, ⟨sPanel, 1, []⟩] }

/-- A VECTOR task of one addition of four elements within the operand cache. -/
def vTask : Task := { taskOf .active [(0, 1, 4), (72, 2, 1)] with
  fmts := [(fmtProg, descOf 128 [(0, 1, 1), (3, 1, 1), (4, 1, 1), (5, 1, 1), (6, 1, 0x2A), (8, 4, 4), (12, 4, 1), (16, 4, 1), (20, 4, 1), (24, 4, 1),
    (64, 8, 64), (88, 8, 128)])] }

/-- A MATCH of the pair of vertices 3 and 4, each with the one neighbour 7, the probe list's part landed. -/
def mTask : Task := { taskOf .active [(0, 1, 5), (98, 2, 4)] with
  fmts := [(fmtList, descOf 64 [(0, 8, 0x61000), (24, 4, 2)]), (fmtTopo, descOf 64 [(0, 8, 0x62000), (8, 8, 0x63000), (32, 4, 16)])] }
def mInst : Inst :=
  { inst0 with hi := 1, keys := [7], bpart := some (1, 1), part := some (0, 1),
               landed := [⟨sIds, 0, pbytes (le 4 3 ++ le 4 4)⟩, ⟨sOffs, 0, pbytes (le 8 0 ++ le 8 1)⟩, ⟨sOffs, 1, pbytes (le 8 1 ++ le 8 2)⟩,
                 ⟨sNeigh, nItem 1 0, pbytes (le 4 7)⟩] }

/-- A GATHER instance with an aggregate to write: its row landed. -/
def gInst : Inst :=
  { idsLanded with hi := 1, idxPos := 1, rows := [rowOf .landed .home (pbytes (List.replicate 64 0))],
                   occs := [⟨⟨3, false, none, oneElem, 0, 0, 0x61000, false, none⟩, 7, 0⟩] }

def running (i : Inst) (t : Task) : State := withInsts [i] (withTasks [t])

theorem witness_EnginesTakeSteps_tiles :
    (let i := { xInst 0 false with outTiles := [tileOf] }; let s := running i xTask;
      steps s i xTask = true ∧ ((stepping s i).cluster 0).tiles.length < 4)
    ∧ (let s := after (fun w => w.setCluster 0 (fun cl => { cl with tiles := [tileOf] })) (withTasks [taskOf .active [(0, 1, 3)]]);
      (s.work.cluster 0).tiles = [tileOf]
      ∧ isOk ((s.work.setCluster 0 (fun cl => { cl with tiles := [] })).writeVa 0 0x70000 tileOf.data ⟨some 0, s.dev.codeOf 5 0, 0⟩).1 = true)
    ∧ (let s := after (fun w => w.setCluster 0 (fun cl => { cl with tiles := [tileOf] })) svc;
      (s.work.cluster 0).tiles = [tileOf]
      ∧ isOk ((s.work.setCluster 0 (fun cl => { cl with tiles := [] })).writeVa 0 0x70000 tileOf.data ⟨some 0, s.dev.codeOf 5 0, 0⟩).1 = false) := by
  decide +kernel

theorem witness_EnginesTakeSteps_transform :
    -- the first K-panel of two, and the last; one that reads poison under STOP
    (∀ sub ∈ [0, 1], let i := xInst sub false; let s := running i xTask; let y := stepping s i;
      steps s i xTask = true ∧ mayStep i = true ∧ xTask.kind = some .transform ∧ y.pageOn ⟨.ta, 0⟩ = true
      ∧ (i.tstep xTask.xform).any (fun st => i.tready xTask.xform st && st.last == (sub == 1)) = true ∧ i.merge = false ∧ i.stopPolicy = false)
    ∧ (let i := xInst 0 true; let s := running i xTask; let y := stepping s i;
      steps s i xTask = true ∧ mayStep i = true ∧ y.pageOn ⟨.ta, 0⟩ = true
      ∧ (i.tstep xTask.xform).any (fun st => i.tready xTask.xform st && (i.tpoison xTask xTask.xform st).isSome) = true
      ∧ i.merge = false ∧ i.stopPolicy = true) := by
  decide +kernel

theorem witness_EnginesTakeSteps_vector :
    let i := inst0; let s := running i vTask; let b := vTask.vop 0; let len := i.runLength b 0;
      steps s i vTask = true ∧ mayStep i = true ∧ vTask.kind = some .vector ∧ (stepping s i).pageOn ⟨.ve, 0⟩ = true ∧ i.pos < vTask.ops
      ∧ vTask.f 80 8 = 0 ∧ opSegmented (byteAt b 0) = false ∧ vopDyn b = false ∧ vopWhole b = false ∧ i.nanFault = false
      ∧ len ≤ opCount b 0 ∧ len ≠ 0 ∧ i.stepReady vTask i.pos i.winCount len i.sub = true ∧ i.stopPolicy = false := by
  decide +kernel

theorem witness_EnginesTakeSteps_match :
    let i := mInst; let s := running i mTask; let y := stepping s i;
      steps s i mTask = true ∧ mayStep i = true ∧ mTask.kind = some .matchT ∧ y.pageOn ⟨.sp, 0⟩ = true ∧ y.matcherFree i = true
      ∧ i.lo + i.pos < i.hi ∧ (i.matchIds mTask).map (fun x => x.any (fun q => q.2.isNone)) = some false
      ∧ i.matchLists mTask = some (0, some 1) ∧ i.building = false ∧ i.chunkKeys ≠ [] ∧ i.probe = 0 ∧ i.part = some (0, 1)
      ∧ (i.got sNeigh (nItem 1 0)).isSome = true ∧ i.stopPolicy = false ∧ y.dev.inst? i.iid = some i := by
  decide +kernel

theorem witness_EnginesTakeSteps_pool :
    let i := gInst; let t := gatherTask []; let s := running i t; let y := stepping s i;
      steps s i t = true ∧ mayStep i = true ∧ t.kind = some .gather ∧ y.pageOn ⟨.ve, 0⟩ = true ∧ t.gather.scatter = none
      ∧ i.hubReady t y.self = none ∧ i.poolNext t y.self = .group i.occs true := by
  decide +kernel

theorem witness_EnginesTakeSteps_copy :
    -- a malformed descriptor, a good one, and one that is being copied
    (∀ len ∈ [3, 4], let w := (copying (copyDesc len) inst0).work.stepBeat 0;
      ∃ i, w.dev.instIn? 0 0 = some i ∧ ∃ t, i.task? w.dev = some t ∧ t.kind = some .copy ∧ t.f 72 1 = 0 ∧ i.started = true
        ∧ i.stopOrdered = false ∧ i.ended = false ∧ w.pageOn ⟨.pt, 0⟩ = true ∧ i.lo + i.pos < i.hi ∧ i.desc = []
        ∧ (let v := w.passTo (w.dev.wokenAt i.iid)
          okOf (v.readVa (v.dev.ctxOf i.gid) (t.f 64 8 + 32 * (i.lo + i.pos)) 32 (i.reader v.dev)).1 = some (pbytes (copyDesc len)))
        ∧ (pbytes (copyDesc len)).any (·.2) = false ∧ copyBad (pbytes (copyDesc len)) = decide (len = 3))
    ∧ (let w := (copying (copyDesc 4) { inst0 with desc := pbytes (copyDesc 4) }).work;
      ∃ i, w.dev.inst? 20 = some i ∧ i.desc ≠ [] ∧ (copyOf i.desc).zero = false ∧ i.row = 0 ∧ i.off = 0 ∧ w.dev.tags i.cluster < 2048
        ∧ (copyOf i.desc).rows = 1 ∧ w.dev.porterBytes i.iid = 0 ∧ ∃ t, i.task? w.dev = some t ∧ (copyOf i.desc).len ≤ t.landing * 1024
        ∧ isOk (w.readVa (w.dev.ctxOf i.gid) (copyOf i.desc).src (copyOf i.desc).len (i.reader w.dev)).1 = true) := by
  simp only [some_iff]
  decide +kernel

/-! ### Witnesses: synchronisation, Crier, memory -/

/-- Object ID 15 of context 0, the last of 16, is entry 15 of the store, of the given kind and value; ID 14 is object 7 of device 2. -/
def objects (e : SyEnt) (s : State := pitched) : State :=
  poke 0x30000 ((List.replicate 112 0) ++ le 8 (2 ^ 63 + 2 ^ 62 + 2 * 2 ^ 40 + 7 * 2 ^ 20) ++ le 8 (2 ^ 63 + 15))
    (tune (fun d => { d with sync := { d.sync with store := put .zero 15 e d.sync.store } })
      (setR pgSy .syXlateLo 0 0x30001 (setR pgSy .syXlateHi 0 0x10000 (setR pgSy .syCtxCount 0 16 s))))

def tally (v : Word) : SyEnt := ⟨v, 0, 0x40000000 + 100, 0⟩

/-- Slot 0's operation registers: an object, and an argument. -/
def slotReady (e : SyEnt) (arg : Word) (id : Word := 15) (s : State := pitched) : State :=
  setR pgSy .syOpObj 0 id (setR pgSy .syOpArg 0 arg (objects e s))

/-- Where the object of slot 0's operation leads. -/
def slotObj (op : Nat) (s : State) : Obj × Work :=
  (if op = 5 then s.work else s.work.setSySlot 0 (fun x => { x with thread := if x.waiting then x.thread else Agent.thread (.fn 0) })).object 0
    (fld (s.work.reg pgSy .syOpObj 0) 19 0)

theorem witness_SlotOperationsOnObjects :
    (∀ op ∈ [1, 2, 3, 4, 5, 6], ∀ e ∈ [tally 0, SyEnt.zero], let s := slotReady e 100;
      acceptedB s (.fn 0) pgSy .syOpCtl 0 (atBit (b2n (true && decide (op ≤ 2))) 4 ||| atBit op 0) = true
      ∧ isCellId (fld (s.work.reg pgSy .syOpObj 0) 19 0) = false ∧ fld (s.work.reg pgSy .syOpArg 0) 15 0 ≠ 0
      ∧ (s.work.sySlot 0).busy = false ∧ (slotObj op s).1 = .here 15 false
      ∧ ((slotObj op s).2.syEnt 15).kind = (if e = .zero then 0 else 1)
      ∧ (slotObj op s).2.dev.sync.waits.any (fun x => x.phys == 15) = false)
    -- an ID past the last, and an object of another device, with a route to it and without
    ∧ (∀ op ∈ [1, 2, 3, 4, 5, 6], (slotObj op (slotReady (tally 0) 100 16)).1 = .bad
      ∧ (slotObj op (slotReady (tally 0) 100 14)).1 = .remote 2 0 7
      ∧ acceptedB (slotReady (tally 0) 100 14) (.fn 0) pgSy .syOpCtl 0 (atBit (b2n (true && decide (op ≤ 2))) 4 ||| atBit op 0) = true)
    ∧ isOk ((slotObj 1 (slotReady (tally 0) 100 14)).2.reach 2 none) = false
    ∧ isOk ((slotObj 1 (slotReady (tally 0) 100 14 routed)).2.reach 2 none) = true
    -- a legal INIT, and a WAIT whose target is just within the Tally's limit
    ∧ initOk 0x40000001 0 100 = true ∧ serialDiff (100 : Word).toNat (tally 0).value.toNat ≤ (tally 0).reachLimit
    ∧ ¬ serialDiff (101 : Word).toNat (tally 0).value.toNat ≤ (tally 0).reachLimit := by
  decide +kernel

def ringTally (v a : Word) : SyEnt := ⟨v, a, 0x60000000 + 4, 0⟩
def bell (count : Word) : SyEnt := ⟨0, count, 0x80000000 + 4, 0⟩
def masked (seen : Word) : SyEnt := ⟨0, seen, 0xC0000000, 0x80000001⟩

theorem witness_ObjectArithmetic :
    ((tally 0xFFFFFFFF).kind = 1 ∧ (tally 0xFFFFFFFF).ring = false)
    ∧ ((ringTally 2 0).kind = 1 ∧ (ringTally 2 0).ring = true
      ∧ serialDiff ((ringTally 2 0).value + BitVec.ofNat 32 2).toNat (ringTally 2 0).aux.toNat ≤ (ringTally 2 0).limit
      ∧ ((ringTally 2 0).limit : Int) < serialDiff ((ringTally 2 0).value + BitVec.ofNat 32 3).toNat (ringTally 2 0).aux.toNat
      ∧ (2 : Int) ≤ serialDiff (ringTally 2 0).value.toNat (ringTally 2 0).aux.toNat
      ∧ serialDiff (ringTally 2 0).value.toNat (ringTally 2 0).aux.toNat < (3 : Int))
    ∧ ((bell 1).kind = 2 ∧ fld (bell 1).aux 15 0 + 2 < (bell 1).limit ∧ fld (bell 1).aux 15 0 + 3 = (bell 1).limit
      ∧ (bell 1).limit < fld (bell 1).aux 15 0 + 4)
    ∧ ((masked 1).kind = 3 ∧ 1 ≤ 32 ∧ bitOf (masked 1).mask (32 - 1) = true ∧ bitOf (masked 1).aux (32 - 1) = false
      ∧ (masked 1).aux ||| atBit 1 (32 - 1) = (masked 1).mask)
    ∧ (bitOf (masked 0).mask (1 - 1) = true ∧ bitOf (masked 0).aux (1 - 1) = false
      ∧ (masked 0).aux ||| atBit 1 (1 - 1) ≠ (masked 0).mask)
    ∧ ((masked 1).kind = 3 ∧ 1 ≤ 1 ∧ bitOf (masked 1).aux (1 - 1) = true)
    ∧ (bitOf (masked 1).mask (2 - 1) = false ∧ 32 < 33)
    ∧ ((bell 1).kind ≠ 0 ∧ (bell 1).kind ≠ 1) ∧ ((tally 0).kind = 1 ∧ (tally 0).ring = false) := by decide +kernel

/-- A task that waits on the object of an ID, and one whose signal of it is due on beat 12. -/
def waitsOn (id : Nat) (e : SyEnt) : State := withTasks [taskOf .waiting [(0, 1, 6), (1, 1, 8), (16, 4, id), (20, 4, 1)]] [] (objects e)
def signals (id : Nat) (s : State := pitched) : State :=
  withTasks [{ taskOf .done [(0, 1, 6), (1, 1, 16), (24, 4, id), (28, 4, 65535)] with signalDue := some 12 }] [] (objects (tally 0) s)
def signalObjOf (s : State) (id : Nat) : Obj × Work :=
  ((s.work.passTo 12).setTask 5 0 (fun t => { t with signalDue := none })).object (s.dev.ctxOf 5) id

theorem witness_TasksWaitAndSignal :
    (∀ x ∈ [(15, tally 0), (15, SyEnt.zero), (14, tally 0), (16, tally 0)], let s := waitsOn x.1 x.2;
      ∃ g, s.dev.graph? 5 = some g ∧ ∃ t, g.task? 0 = some t ∧ t.state = .waiting ∧ t.waitsObject = true ∧ t.waitRegistered = false
        ∧ t.waitMet = false ∧ s.dev.edgesMet g 0 = true ∧ (s.work.object g.ctx t.waitObj).1
          = (if x.1 = 15 then .here 15 false else if x.1 = 14 then .remote 2 0 7 else .bad)
        ∧ ((s.work.object g.ctx t.waitObj).2.syEnt 15).kind = (if x.2 = .zero then 0 else 1))
    ∧ (∀ id ∈ [14, 15, 16], let s := signals id;
      ∃ t, s.dev.anyTask? 5 0 = some t ∧ t.signalDue = some 12 ∧ t.signalObj = id
        ∧ (signalObjOf s id).1 = (if id = 15 then .here 15 false else if id = 14 then .remote 2 0 7 else .bad))
    ∧ isOk ((signalObjOf (signals 14) 14).2.reach 2 none) = false
    ∧ isOk ((signalObjOf (signals 14 routed) 14).2.reach 2 none) = true := by
  simp only [some_iff]
  decide +kernel

/-- A wait of instance 20 on cell 3 of cluster 0 for value 1. -/
def cellWait (i : Nat) : CellWait := ⟨i, 0, 0, 3, 0, 1, 0, false, none, false, false⟩
def cellWaiting (v : Nat) : State :=
  setR ⟨.sy, 0⟩ .syCell 3 (BitVec.ofNat 32 v) (tune (fun d => { d with sync := { d.sync with cellWaits := [cellWait 20] } }) (gathering inst0))

theorem witness_CellsAreAddedTo :
    (47 ≤ 47 ∧ 0 < 65535 ∧ 65535 < 65536 ∧ pitched.work.cellsShut 0 = false
      ∧ Accepted pitched (.fn 0) ⟨.sy, 0⟩ .syCellAdd 0 (atBit 47 16 ||| atBit 65535 0)
      ∧ Accepted pitched (.fn 0) ⟨.sy, 0⟩ .syCellAdd 0 (atBit 0 16 ||| atBit 1 0))
    -- the second of three adds is due first; its cluster lies in a pitch, or in none
    ∧ (∀ c ∈ [0, 5], let s := tune (fun d => { d with sync := { d.sync with adds := [⟨10, 1, 3, 1⟩] ++ ⟨9, c, 3, 1⟩ :: [⟨9, 1, 4, 1⟩] } }) pitched;
      (∀ x ∈ [(⟨10, 1, 3, 1⟩ : CellAdd)], 9 < x.due) ∧ (∀ x ∈ [(⟨9, 1, 4, 1⟩ : CellAdd)], 9 ≤ x.due)
      ∧ ((((s.work.passTo 9).updSync (fun y => { y with adds := [⟨10, 1, 3, 1⟩, ⟨9, 1, 4, 1⟩] })).pitchAt c).isSome = decide (c = 0)))
    -- the cell is at the target, or one below it
    ∧ (∀ v ∈ [0, 1], let w := (cellWaiting v).work; w.dev.sync.cellWaits = [cellWait 20] ∧ (cellWait 20).wakeAt = none
      ∧ (cellWait 20).never = false
      ∧ decide ((0 : Int) ≤ serialDiff (w.reg ⟨.sy, 0⟩ .syCell 3).toNat (cellWait 20).target.toNat) = (v == 1)
      ∧ ∃ i, w.dev.inst? 20 = some i ∧ ∃ t, i.task? w.dev = some t ∧ t.kind ≠ some .embedBag) := by
  simp only [accepted_iff, some_iff]
  decide +kernel

def parkedOf : Parked := ⟨16, 0, 0, 15, 1, 1, 0, 0, 0, 0, 0, 0, 0, 0⟩

def timedWait : SyWait := ⟨15, 0, 15, 5, .slot 0, 0, false, false, false⟩

theorem witness_WaitsAreReported :
    (let s := tune (fun d => { d with sync := { d.sync with waits := [timedWait] } }) (objects ⟨0, 0, 0x40010064, 0⟩);
      s.work.rb pgSy .syCfg 31 = false
      ∧ s.dev.sync.waits.filterMap (fun x => x.dueAt s.work) ++ s.dev.sync.cellWaits.filterMap (fun x => x.dueAt s.work) = [1000])
    ∧ ((setR pgSy .syCfg 0 0x80000001 svc).work.rb pgSy .syCfg 31 = true ∧ (setR pgSy .syCfg 0 0x80000001 svc).work.rf pgSy .syCfg 15 0 ≠ 0)
    ∧ (let s := tune (fun d => { d with sync := { d.sync with parked := [parkedOf] } }) svc;
      s.dev.sync.parked.find? (fun p => p.port == 16) = some parkedOf ∧ s.work.releasable 16 = some parkedOf) := by
  decide +kernel

theorem witness_TimeEventsComeWhenDue : svc.dev.counting = true ∧ (setR pgCr .crCfg 0 0x10 svc).work.rb pgCr .crCfg 4 = true := by
  decide +kernel

/-- Under SOURCE RACK, an edge accepted at a tick. -/
def rack (tick : Nat) : State :=
  tune (fun d => { d with power := { d.power with inputs := [⟨some tick, true, tick, false, 0⟩] } }) (setR pgCr .crCfg 0 1 svc)

def edgeOff (s : State) (tick : Nat) : Int :=
  let p := s.dev.crier.period
  let at_ := tick + s.work.rf pgCr .crLock 23 16
  (at_ : Int) - ((2 * at_ + p) / (2 * p) * p : Nat)

theorem witness_TimeBaseIsLoadedAndSteered :
    (Accepted svc (.fn 0) pgCr .crLoadCtl 0 1 ∧ svc.dev.crier.armed = false)
    ∧ (let s := tune (fun d => { d with crier := { d.crier with armed := true } }) svc;
      s.dev.counting = true ∧ s.dev.crier.armed = true ∧ s.work.source = 0)
    ∧ (let s := tune (fun d => { d with crier := { d.crier with armed := true, loadEdge := some 7 } }) (rack 7);
      s.dev.counting = true ∧ s.dev.crier.armed = true ∧ s.work.source = 1 ∧ s.dev.crier.loadEdge = some 7)
    -- the window is symmetric about the expected time: its last tick is good, the next is not
    ∧ (∀ x ∈ [0, 1], let tick := 1000000000 + (svc.work.rf pgCr .crLock 31 24) - svc.work.rf pgCr .crLock 23 16 + x; let s := rack tick;
      s.dev.counting = true ∧ s.work.source = 1 ∧ (s.dev.power.inputs.getD 0 .reset).lastEdge = some tick ∧ s.dev.crier.judged ≠ some tick
      ∧ s.dev.crier.armed = false ∧ ((s.work.rf pgCr .crLock 31 24 : Int) < (edgeOff s tick).natAbs ↔ x = 1))
    ∧ svc.dev.crier.refLost = false := by
  simp only [accepted_iff]
  decide +kernel

def timedTask (st : TaskState) (taken : Bool) (flags : Nat) : Task :=
  { taskOf st [(0, 1, 3), (1, 1, flags), (8, 8, 4000), (76, 4, 4)] with launchTaken := taken }

def launching (l : List Inst) (flags : Nat) : State := withInsts l (withTasks [timedTask .released true flags])

theorem witness_LaunchesKeepTheirBeat :
    (let s := withTasks [timedTask .released false 1];
      ∃ t, s.dev.task? 5 0 = some t ∧ t.state = .released ∧ t.timed = true ∧ t.launchTaken = false ∧ t.kind ≠ some .signal
        ∧ s.dev.launchEntries < 512)
    ∧ (∀ placed ∈ [true, false], let s := launching [{ inst0 with started := false, slot := if placed then some 0 else none }] 5;
      ∃ t, s.dev.task? 5 0 = some t ∧ t.state = .released ∧ t.timed = true ∧ t.inLaunch = true ∧ t.kind ≠ some .collective
        ∧ ((s.work.passToTime t.launchTime).unlocked && decide ((s.work.passToTime t.launchTime).source ≠ 0)) = false
        ∧ t.lateFail = true
        ∧ (((s.work.passToTime t.launchTime).dev.instsOf 5 0).filter (fun i => i.slot.isNone
            || !decide (t.orderAt ≤ (s.work.passToTime t.launchTime).dev.beat)) = [] ↔ placed = true))
    -- a source that is not FREE and not locked
    ∧ (let s := setR pgCr .crStatus 0 0x10000000 (setR pgCr .crCfg 0 1 (launching [{ inst0 with started := false }] 5));
      ∃ t, s.dev.task? 5 0 = some t ∧ t.inLaunch = true ∧ t.lateFail = true
        ∧ ((s.work.passToTime t.launchTime).unlocked && decide ((s.work.passToTime t.launchTime).source ≠ 0)) = true)
    ∧ (let s := launching [{ inst0 with started := false }] 1;
      ∃ t, s.dev.task? 5 0 = some t ∧ t.inLaunch = true ∧ t.lateFail = false)
    -- ballast of the launch at 4,000 ns, beat 1,000, goes up; that of no launch comes down
    ∧ (let s := setR pgPm .pmStep 0 0 (launching [inst0] 3);
      s.work.ballastSteps true = [] ++ (744, ⟨4000, 1, 0, 760⟩) :: [] ∧ s.work.ballastSteps false = [])
    ∧ (let s := tune (fun d => { d with crier := { d.crier with ballasts := [⟨8000, 1, 0, 0⟩] } }) svc;
      s.work.ballastSteps false = [] ++ (16, ⟨8000, 1, 1, 32⟩) :: [] ∧ s.work.ballastSteps true = []) := by
  simp only [some_iff]
  decide +kernel

theorem witness_MemoryIsScrubbedAndFails :
    (∀ x ∈ [(false, 11), (true, 15)], svc.work.hasMem x.1 x.2 = true ∧ svc.work.memFailed (memPage x.1 x.2) = false
      ∧ (let s := setR (memPage x.1 x.2) .hmCap 0 11718750 (setR (memPage x.1 x.2) .hmScrub 0 0x80000000 svc);
        let last := (s.work.reg (memPage x.1 x.2) .hmCap).toNat * 4096 - 1;
        s.work.rb (memPage x.1 x.2) .hmScrub 31 = true ∧ last < (s.work.reg (memPage x.1 x.2) .hmCap).toNat * 4096
        ∧ (s.work.count (memPage x.1 x.2) 3).deadAt (s.work.unitKey x.1 x.2 last / 64) = false
        ∧ ((after (fun w => w.emit [.dead (s.work.unitKey x.1 x.2 0 / 64) true]) s).work.count (memPage x.1 x.2) 3).deadAt
          (s.work.unitKey x.1 x.2 0 / 64) = true)
      -- the first uncorrectable granule, and the 256th within a second
      ∧ (svc.dev.recentUe (memPage x.1 x.2)).length < 255
      ∧ 255 ≤ ((tune (fun d => { d with ueBeats := put [] (memPage x.1 x.2).base (List.replicate 255 d.beat) d.ueBeats }) svc).dev.recentUe
        (memPage x.1 x.2)).length) := by
  decide +kernel

/-! ### Witnesses: ports, packets, collectives -/

def linkOf (n : Nat) (st : LinkState) (crcRun : Nat) : PLink :=
  { num := n, partnerDevice := 2, partnerKind := 1, partnerPort := 1, partnerLink := 7, state := st, method := false, trained := true,
    helloSentAt := 0, helloSeen := true, heard := true, crcRun := crcRun, lastRx := 0 }

/-- Port 15 in a state, with two links. -/
def linked (st : PortState) (a b : PLink) (f : Port → Port) (s : State := pitched) : State :=
  tune (fun d => { d with ports := updAt (fun q => f { q with state := st, links := [a, b], features := 0x1D, version := 3 }) 15 d.ports }) s

def up15 (f : Port → Port) : State := linked .up (linkOf 46 .live 0) (linkOf 47 .live 15) f

/-- An IDLE flit with its CRC, and the same with a wrong one. -/
def goodFlit : List Byte := List.replicate 256 0
def badFlit : List Byte := List.replicate 255 0 ++ [1]

theorem crcByte_zero : crcByte 0 0 = 0 := by decide +kernel

theorem crc_of_zeros (n : Nat) : crc64 (List.replicate n 0) = 0 := by
  unfold crc64
  induction n with
  | zero => rfl
  | succ n ih => rw [List.replicate_succ, List.foldl_cons, crcByte_zero]; exact ih

theorem witness_FlitsAreTakenAndResent :
    (goodFlit.length = 256 ∧ bytesAt goodFlit 248 8 = crc64 (goodFlit.take 248) ∧ byteAt goodFlit 4 ≤ 2
      ∧ bytesAt badFlit 248 8 ≠ crc64 (badFlit.take 248))
    ∧ (∃ l, (up15 id).work.liveLink 15 47 = some l ∧ 15 ≤ l.crcRun)
    ∧ (∃ l, (up15 id).work.liveLink 15 46 = some l ∧ l.crcRun < 15)
    ∧ (((up15 (fun q => { q with gapSince := some 3 })).work.port 15).state.open = true
      ∧ ((up15 (fun q => { q with gapSince := some 3 })).work.port 15).gapSince = some 3)
    ∧ (((up15 (fun q => { q with replay := [⟨65535, 46, [], 1⟩] })).work.port 15).state.open = true
      ∧ ((up15 (fun q => { q with replay := [⟨65535, 46, [], 1⟩] })).work.port 15).replay = [⟨65535, 46, [], 1⟩]) := by
  simp only [some_iff]
  refine ⟨?_, by decide +kernel⟩
  rw [show goodFlit.take 248 = List.replicate 248 0 by decide +kernel, show badFlit.take 248 = List.replicate 248 0 by decide +kernel,
    crc_of_zeros]
  decide +kernel

/-- A DATA flit of a number. -/
def dataFlit (n : Nat) : List Byte := leBytes 2 n ++ [0, 0, 1] ++ List.replicate 251 0

theorem witness_FlitsComeInOrder :
    (let w := (up15 (fun q => { q with rxNext := 65535 })).work;
      15 < w.dev.ports.length ∧ byteAt (dataFlit 65535) 4 = 1 ∧ bytesAt (dataFlit 65535) 0 2 = (w.port 15).rxNext
      ∧ (w.port 15).reorder = [] ∧ (w.port 15).rxNext < 65536 ∧ (w.port 15).queued = []
      ∧ byteAt (dataFlit 65534) 4 = 1 ∧ diff16 (bytesAt (dataFlit 65534) 0 2) (w.port 15).rxNext < 0)
    -- the next number but one is held already, the next is missing
    ∧ (let w := (up15 (fun q => { q with rxNext := 65535, reorder := [(0, dataFlit 0)] })).work;
      byteAt (dataFlit 0) 4 = 1 ∧ (∃ x ∈ (w.port 15).reorder, x.1 = bytesAt (dataFlit 0) 0 2)
      ∧ ∀ x ∈ (w.port 15).reorder, x.1 ≠ (w.port 15).rxNext) := by decide +kernel

theorem witness_LinksFailAndPortsAreLost :
    (∃ l, (up15 id).work.liveLink 15 47 = some l)
    ∧ (((up15 (fun q => { q with replay := [⟨0, 46, [], 1⟩] })).work.port 15).replay = [⟨0, 46, [], 1⟩]
      ∧ (up15 (fun q => { q with replay := [⟨0, 46, [], 1⟩] })).work.portUp 15 = true ∧ 15 < 16)
    ∧ ((((up15 id).work.setLink 15 47 (fun l => { l with state := .failed })).port 15).live ≠ []
      ∧ ((up15 id).work.port 15).state ≠ .quarantined)
    ∧ (let w := (linked .quarantined (linkOf 46 .live 0) (linkOf 47 .live 0) id).work;
      ((w.setLink 15 47 (fun l => { l with state := .failed })).port 15).live ≠ [] ∧ (w.port 15).state = .quarantined)
    ∧ (∀ st ∈ [PortState.degraded, .quarantined], let w := (linked st (linkOf 46 .failed 0) (linkOf 47 .live 0) id).work;
      ((w.setLink 15 47 (fun l => { l with state := .failed })).port 15).live = [] ∧ (w.port 15).state = st)
    ∧ (∀ st ∈ [PortState.down, .lost, .quarantined], let s := linked st (linkOf 46 .failed 0) (linkOf 47 .failed 0) id;
      acceptedB s (.fn 0) ⟨.tp, 15⟩ .tpCtl 0 (atBit 1 31) = true ∧ (s.work.port 15).state = st)
    ∧ (let s := linked .degraded (linkOf 46 .live 0) (linkOf 47 .failed 0) id;
      2 ≠ 0 ∧ 2 < 65536 ∧ acceptedB s (.fn 0) ⟨.tp, 15⟩ .tpCtl 0 (BitVec.ofNat 32 2) = true
      ∧ (∀ i < 16, 2 / 2 ^ i % 2 = 1 → ((s.work.port 15).links[i]?).map (·.state) = some .failed)) := by
  simp only [found_iff]
  decide +kernel

def helloOf (device vmax digest sec : Nat) : HelloMsg :=
  { vmin := 2, vmax := vmax, kind := 1, features := 0x1D, device := device, port := 1, link := 7, fabricGen := 0, secVersion := sec,
    digest := digest, epoch := 0, time := 0, unlocked := false }

theorem witness_LinksComeUp :
    (let s := linked .training { linkOf 46 .down 0 with trained := false } (linkOf 47 .down 0) id;
      ∃ l, (s.work.port 15).link? 46 = some l ∧ l.state = .down ∧ l.trained = false ∧ 15 < 16 ∧ (s.work.port 15).state = .training)
    ∧ (let s := linked .training (linkOf 46 .down 0) { linkOf 47 .down 0 with helloSeen := false } id;
      ∃ l, (s.work.port 15).link? 47 = some l ∧ l.trained = true ∧ (l.helloSeen = false ∨ l.heard = false))
    ∧ (let s := linked .training (linkOf 46 .down 0) (linkOf 47 .down 0) id;
      ∃ l, (s.work.port 15).link? 46 = some l ∧ l.trained = true ∧ l.state = .down ∧ (s.work.port 15).state = .training
        ∧ (helloOf 3 3 0 0).device % 4096 ≠ l.partnerDevice
        ∧ (helloOf 2 3 0 0).device % 4096 = l.partnerDevice ∧ (helloOf 2 3 0 0).port = l.partnerPort
        ∧ (helloOf 2 3 0 0).link = l.partnerLink ∧ (helloOf 2 3 0 0).kind = l.partnerKind
        ∧ min 3 (helloOf 2 1 0 0).vmax < max 2 (helloOf 2 1 0 0).vmin ∧ max 2 (helloOf 2 2 0 0).vmin ≤ min 3 (helloOf 2 2 0 0).vmax
        ∧ (helloOf 2 3 1 0).digest ≠ s.work.dev.exch.digest ∧ (helloOf 2 3 0 0).digest = s.work.dev.exch.digest
        ∧ s.work.dev.exch.secFloor ≤ (helloOf 2 3 0 0).secVersion)
    ∧ (let s := tune (fun d => { d with exch := { d.exch with secFloor := 1 } }) (linked .training (linkOf 46 .down 0) (linkOf 47 .down 0) id);
      (helloOf 2 3 0 0).digest = s.work.dev.exch.digest ∧ (helloOf 2 3 0 0).secVersion < s.work.dev.exch.secFloor) := by
  simp only [some_iff]
  decide +kernel

/-- Group 3 of two members, this device 0 and device 2, is valid with GEN 5 under fabric ID 33; a row of 64 bytes is exported. -/
def grouped (s : State := up15 id) : State :=
  poke 0x68000 (le 8 0x69000 ++ [0, 1]) (poke 0x69000 (descOf 64 [(0, 8, 0x60000), (8, 4, 16), (12, 2, 16), (14, 1, 1), (16, 4, 64)])
    (setR pgEx .exExportLo 0 0x68001 (tune (fun d => { d with exch := { d.exch with
      groupRegs := [(24, 0x80000005), (25, 33), (26, 0x00020000), (27, 0x6A000)], members := [⟨3, [0, 2]⟩], routes := [(2, 2, 15)] } }) s)))

def hdrOf (ctx : Nat) : PktHdr := { port := 15, ctx := ctx, dst := 0, src := 2, poison := 0 }

def remoteFetch' : Fetch := { fetchOf 0 (.row 7) with unit := 1, remote := some (2, 3), pieces := [(0, 64)], copy := [] }
def awaiting : State := tune (fun d => { d with fetches := [remoteFetch'] }) (withInsts [inst0] (withTasks [gatherTask []] [] grouped))

theorem witness_PacketsAreTaken :
    (grouped.work.heeds (hdrOf 0) false = true)
    ∧ (∀ ctx ∈ [0, 31], let w := grouped.work.takePacket 15 (mkPacket 1 0 ctx 0 2 (leBytes 6 0x70000 ++ leBytes 2 5)
          (some (leBytes 4 1 ++ leBytes 2 33 ++ leBytes 2 0)) []);
      w.genAgrees 15 = true ∧ w.groupOf 33 = some 3 ∧ w.grpGen 3 = 5 ∧ w.rb pgTt .ttCtxCfg 31 ctx = decide (ctx = 0) ∧ w.groupOf 34 = none)
    ∧ (∀ row ∈ [15, 16], let w := grouped.work.takePacket 15 (mkPacket 2 0 0 0 2 (leBytes 4 9 ++ leBytes 2 0) (some (leBytes 8 row ++ leBytes 4 64)) []);
      ((w.exported 0 row 64).1.isSome = decide (row = 15)))
    ∧ (∃ f, awaiting.dev.fetches.find? (fun f => f.id % 2 ^ 32 == 30 && (match f.remote with
        | some (d, _) => d == 2
        | none => false)) = some f ∧ f.remote = some (2, 3) ∧ 0 * 256 = f.copy.length
      ∧ f.pieces.foldl (fun a x => a + x.2) 0 ≤ (f.copy ++ (marked 0 (List.replicate 64 0)).take (64 - f.copy.length)).length
      ∧ (f.copy ++ (marked 0 (List.replicate 48 0)).take (64 - f.copy.length)).length < f.pieces.foldl (fun a x => a + x.2) 0
      ∧ ∃ i, awaiting.dev.inst? f.iid = some i
        ∧ (awaiting.work.takePacket 15 (mkPacket 3 0 0 0 2 (leBytes 4 30 ++ leBytes 2 0 ++ leBytes 1 1) none [])).stale f = false)
    -- 256 signals of the port are parked
    ∧ (let s := tune (fun d => { d with sync := { d.sync with parked := List.replicate 256 ⟨15, 2, 0, 15, 1, 1, 1, 0, 0, 0, 0, 0, 0, 0⟩ } }) grouped;
      s.work.heeds (hdrOf 0) false = true ∧ s.work.fenceReached 15 2 1 = false ∧ 256 ≤ (s.dev.parkedAt 15).length)
    ∧ (grouped.work.fenceReached 15 2 0 = true ∧ grouped.work.fenceReached 15 2 1 = false ∧ (grouped.dev.parkedAt 15).length < 256) := by
  simp only [some_iff]
  decide +kernel

def exchanging : State :=
  tune (fun d => { d with crier := { d.crier with echo := put 0 15 (2 ^ 40) d.crier.echo } }) (setR pgCr .crCfg 0 0xF02 (up15 id))

theorem witness_TimePacketsSteer :
    ((up15 id).work.heeds (hdrOf 0) false = true ∧ 15 < 16 ∧ ((up15 id).work.port 15).keepsTime = true)
    ∧ (look 0 15 (up15 id).dev.crier.echo ≠ (2 ^ 40 - 1) % 2 ^ 40 + 1)
    ∧ (look 0 15 exchanging.dev.crier.echo = (2 ^ 40 - 1) % 2 ^ 40 + 1 ∧ exchanging.work.source = 2
      ∧ 15 = exchanging.work.rf pgCr .crCfg 11 8 ∧ exchanging.dev.counting = true)
    ∧ (let s := setR pgCr .crCfg 0 0xE02 exchanging;
      look 0 15 s.dev.crier.echo = (2 ^ 40 - 1) % 2 ^ 40 + 1 ∧ s.work.source = 2 ∧ 15 ≠ s.work.rf pgCr .crCfg 11 8)
    ∧ (let s := setR pgCr .crStatus 0 0 exchanging; s.work.source = 2 ∧ 15 = s.work.rf pgCr .crCfg 11 8 ∧ s.work.unlocked = false) := by
  decide +kernel

def collOf : Coll :=
  { gid := 5, ti := 0, group := 3, gen := 5, dests := [2], applied := 0, sent := 0, buf := none, readySeen := [], readySent := 0, haloFrom := [],
    stopPolicy := false, finalBytes := [] }

/-- After the header of an ABORT, and of a MCAST of a group's fabric ID and GEN, has been taken. -/
def abortTaken (s : State) (fid gen code : Nat) : Work :=
  s.work.takePacket 15 (mkPacket 6 0 0 0 2 (leBytes 2 fid ++ leBytes 2 gen ++ leBytes 2 code ++ leBytes 2 2) none [])
def mcastTaken (s : State) (fid gen ctx : Nat) : Work :=
  s.work.takePacket 15 (mkPacket 7 0 ctx 0 2 (leBytes 2 3 ++ leBytes 2 fid ++ leBytes 2 gen)
    (some (leBytes 4 0 ++ leBytes 4 0 ++ leBytes 4 1 ++ leBytes 2 0)) [])

/-- A stream of cluster 0 to group 3, whose remote receiver is device 2. -/
def remoteStream : State :=
  tune (fun d => { d with streams := [{ streamOf 1 0 0 with recvs := [⟨true, 2, 0, 0, false⟩] }] })
    (withTasks [{ streamTask 0 with fmts := [(fmtStream, descOf 64 [(2, 2, 3), (30, 1, 1), (32, 2, 3)])] }] [] grouped)

/-- Port 15 is quarantined: management packets alone are heeded. -/
def quarantined : State := grouped (linked .quarantined (linkOf 46 .live 0) (linkOf 47 .live 0) id)

theorem witness_GroupPacketsAreTaken :
    (grouped.work.heeds (hdrOf 0) false = true ∧ quarantined.work.heeds (hdrOf 0) false = false ∧ quarantined.work.heeds (hdrOf 0) true = true)
    -- the first ABORT, with any other code and with ERR_COLL_REFUSED, and a repeated one
    ∧ (let w := abortTaken grouped 33 5 1;
      w.genAgrees 15 = true ∧ w.groupOf 33 = some 3 ∧ w.grpGen 3 = 5 ∧ (w.count pgEx 5).dev.exch.aborts.contains (3, 5) = false
      ∧ 1 ≠ Err.collRefused.code)
    ∧ (let s := tune (fun d => { d with exch := { d.exch with aborts := [(3, 5)] } }) grouped;
      let w := abortTaken s 33 5 1;
      w.genAgrees 15 = true ∧ w.groupOf 33 = some 3 ∧ w.grpGen 3 = 5 ∧ (w.count pgEx 5).dev.exch.aborts.contains (3, 5) = true)
    -- a MCAST whose FABRIC_GEN, group, GEN or context is not right, and one that is
    ∧ (let s := setR ⟨.tp, 15⟩ .tpPeerGen 0 7 grouped; (mcastTaken s 33 5 0).genAgrees 15 = false)
    ∧ ((mcastTaken grouped 34 5 0).genAgrees 15 = true ∧ (mcastTaken grouped 34 5 0).groupOf 34 = none)
    ∧ ((mcastTaken grouped 33 4 0).groupOf 33 = some 3 ∧ (mcastTaken grouped 33 4 0).grpGen 3 ≠ 4)
    ∧ ((mcastTaken grouped 33 5 31).groupOf 33 = some 3 ∧ (mcastTaken grouped 33 5 31).grpGen 3 = 5
      ∧ (mcastTaken grouped 33 5 31).rb pgTt .ttCtxCfg 31 31 = false)
    ∧ ((mcastTaken grouped 33 5 0).genAgrees 15 = true ∧ (mcastTaken grouped 33 5 0).rb pgTt .ttCtxCfg 31 0 = true)
    -- the member's pitch, and a row at the end of a slice and past it
    ∧ (grouped.work.dev.member 3 (grouped.work.grpRank 3) = some (0, 0, 0) ∧ (grouped.work.pitchFor 0 0).isSome = true
      ∧ 3145664 + 0 * (64 * ceilDiv 64 64) + 64 ≤ 3145728 ∧ 3145728 < 3145664 + 1 * (64 * ceilDiv 64 64) + 64)
    -- the row that comes next, and one that comes before its time
    ∧ (let m : McIn := ⟨2, 3, 3, 1, []⟩; m.next = 1 ∧ m.later = [] ∧ m.next < 2 ∧ m.next ∉ m.later ∧ 2 ∉ m.later)
    -- MCREDIT and MGMT on a quarantined port
    ∧ (remoteStream.work.heeds (hdrOf 0) true = true ∧
      (let w := remoteStream.work.takePacket 15 (mkPacket 8 0 0 0 2 (leBytes 2 3 ++ leBytes 2 33 ++ leBytes 4 0) none []);
      ((w.dev.streams.filter (fun m => match w.dev.task? m.gid m.ti with
        | some t => t.stream.id == 3 && w.grpId t.stream.group == 33
        | none => false)).head?).isSome = true))
    ∧ (let m : List Byte := [1, 0, 8, 0xC8, 0, 0x80, 2, 0, 0, 0, 0, 0, 0, 0, 0, 0];
      quarantined.work.mgmtUp = true ∧ byteAt m 3 / 64 = 3 ∧ byteAt m 1 = 0) := by
  decide +kernel

/-- A released COLLECTIVE task of the group, of the given operation over 64 elements, from the given root. -/
def collTask (cop root : Nat) : Task :=
  taskOf .released [(70, 2, root), (0, 1, 7), (64, 1, 3), (65, 1, cop), (66, 1, if cop = 3 then 0 else 1), (67, 1, 1), (72, 8, 0x60000), (80, 8, 0x70000),
    (88, 4, if cop = 5 then 0 else 64), (100, 4, if cop = 5 then 1 else 0)]

theorem witness_CollectivesStart :
    -- every operation in a group of two; BROADCAST at its root and below it
    (∀ x ∈ [(1, 0), (2, 0), (3, 0), (4, 0), (4, 1), (5, 0)], let s := withTasks [collTask x.1 x.2] [] grouped;
      ∃ t, s.dev.task? 5 0 = some t ∧ collMay t = true ∧ s.dev.coll? 5 0 = none ∧ s.work.grpValid (t.f 64 1) = true
        ∧ s.dev.exch.colls.any (fun c => c.group == t.f 64 1) = false ∧ s.dev.exch.colls.length < 64 ∧ (s.work.collPar t).cop = x.1
        ∧ (s.work.collPar t).p ≠ 1 ∧ ((s.work.collPar t).place = 0 ↔ x.2 = 0))
    -- a group of one
    ∧ (let s := tune (fun d => { d with exch := { d.exch with groupRegs := put 0 26 0x00010000 d.exch.groupRegs } })
        (withTasks [collTask 1 0] [] grouped);
      ∃ t, s.dev.task? 5 0 = some t ∧ collMay t = true ∧ s.work.grpValid (t.f 64 1) = true ∧ (s.work.collPar t).cop = 1
        ∧ (s.work.collPar t).p = 1)
    ∧ (let s := poke 0x6A000 (le 4 0 ++ le 4 2) (tune (fun d => { d with exch := { d.exch with
        groupRegs := put 0 24 5 d.exch.groupRegs, sel := put 0 0 3 d.exch.sel } }) grouped);
      0 < 32 ∧ 65535 < 65536 ∧ acceptedB s (.fn 0) pgEx .exGrpCfg 0 (atBit 1 31 ||| atBit 0 24 ||| atBit 65535 0) = true
      ∧ s.work.grpSel (writerOf (.fn 0)) = 3 ∧ s.work.grpBusy 3 = false ∧ s.work.grpSize 3 = 2 ∧ s.work.grpRank 3 < 2
      ∧ (∀ h < 256, h ≠ 3 → s.work.grpValid h = true → s.work.grpId h ≠ s.work.grpId 3)
      ∧ (let x := s.work.readClean 0 (fld (s.work.grp 3 3) 31 2 * 4 + fld (s.work.grp 3 4) 11 0 * 2 ^ 32) 8 ⟨some 0, 0xFFFFFFFF, 0xFFFFFFFF⟩;
        x.1 = some (le 4 0 ++ le 4 2) ∧ fld (BitVec.ofNat 32 (bytesAt (le 4 0 ++ le 4 2) 0 4)) 11 0 = x.2.self
        ∧ fld (BitVec.ofNat 32 (bytesAt (le 4 0 ++ le 4 2) 0 4)) 16 12 = 0)) := by
  simp only [some_iff]
  decide +kernel

/-! ### Witnesses: host, management, control cores, boot, power, Stocktake -/

/-- Context 0 translates for the aperture of VF 1 as well; VFs answer. -/
def withVf : State :=
  setR pgTt .ttXlateLo 1 0x20001 (tune (fun d => { d with vfEnabled := true }) mapped)

def linkedUp : State := setR pgPx .pxLink 0 0x80000000 mapped

theorem witness_HostAccessesAndFunctionReset :
    (let a := fld (svc.work.reg pgPx .pxAperLo) 31 28 * 2 ^ 28 + fld (svc.work.reg pgPx .pxAperHi) 15 0 * 2 ^ 32 + (2 ^ 28 - 64);
      2 ^ 28 - 64 + 64 ≤ aperBytes 0 ∧ svc.work.answers (.fn 0) = true ∧ svc.work.backed a 64 = true)
    ∧ (let s := setR pgPx .pxAperHi 0 0xFFFF svc;
      let a := fld (s.work.reg pgPx .pxAperLo) 31 28 * 2 ^ 28 + fld (s.work.reg pgPx .pxAperHi) 15 0 * 2 ^ 32 + 0;
      s.work.answers (.fn 0) = true ∧ s.work.backed a 4 = false)
    -- the last bytes of a VF's window, in one piece of the device; a window over host memory, and one that does not translate
    ∧ (1 ≠ 0 ∧ 2 ^ 30 - 64 + 64 ≤ aperBytes 1 ∧ withVf.work.answers (.fn 1) = true
      ∧ (∀ wr ∈ [true, false], (withVf.work.translateRange 1 (2 ^ 30 - 64) 64 wr (aperReader 1)).1.toOption.map (·.map (fun t => (t.1, t.2.2)))
        = some ([(2 ^ 30 - 64, 64)].map (fun q => (Target.dev q.1, q.2)))))
    ∧ (let s := setR pgPx .pxFnAperLo 1 0x80000000 withVf;
      s.work.answers (.fn 1) = true
      ∧ (∀ wr ∈ [true, false], (okOf (s.work.translateRange 1 0x80000000 4 wr (aperReader 1)).1).any (·.any (fun a => match a.1 with
        | .host _ => true
        | .dev _ => false)) = true))
    ∧ (let s := tune (fun d => { d with vfEnabled := true }) svc;
      s.work.answers (.fn 31) = true
      ∧ (∀ wr ∈ [true, false], isOk (s.work.translateRange 31 0 4 wr (aperReader 31)).1 = false))
    ∧ (svc.work.atsBusy 1 0 4096 = false)
    ∧ (svc.dev.boot.mode ≠ .recovery ∧ (tune (fun d => { d with boot := { d.boot with mode := .recovery } }) svc).work.answers (.fn 0) = true)
    ∧ (svc.dev.power.state ≠ .off ∧ svc.dev.power.perst = false ∧ linkOk 6 16 = true)
    ∧ (linkedUp.work.linkUp = true)
    ∧ (let s := withInsts [inst0] (withTasks [ready 6]);
      (s.dev.resident 0).any (fun i => i.gid == 5 && i.ti == 0) = true ∧ (s.dev.task? 5 0).isSome = true)
    ∧ (1 ≤ 31 ∧ 31 < 32 ∧ withVf.work.answers (.fn 31) = true)
    ∧ (svc.dev.flrDrained 31 = true) := by
  decide +kernel

theorem witness_ManagementAnswers :
    State.reset.work.mgmtUp = true
    ∧ (8 ≤ byteAt [0, 8] 1 ∧ byteAt [0, 254] 1 ≤ 254 ∧ byteAt [0, 7] 1 < 8 ∧ 254 < byteAt [0, 255] 1)
    ∧ 6 ∉ [1, 2, 4, 5] ∧ 1 ∉ [0, 5, 0x7E]
    ∧ (Instr.keyExchange, SpdmReq.keyExchange) ∈ [(Instr.getVersion, SpdmReq.version), (.getCapabilities, .capabilities),
        (.getDigests, .digests), (.keyExchange, .keyExchange)]
    ∧ measured 10 = [10] ∧ measured 0xFF ≠ [] ∧ 10 ≠ 0 ∧ measured 11 = [] ∧ measured 1 = [1] := by decide +kernel

/-- An offset at the end of the certificate chain may be read, one past it may not, whatever the certificates are. -/
theorem witness_ManagementAnswers_certificate :
    State.reset.work.chain.length ≤ State.reset.work.chain.length
    ∧ State.reset.work.chain.length < State.reset.work.chain.length + 1 := ⟨Nat.le_refl _, Nat.lt_succ_self _⟩

/-- Core 7 with threads in every state; slot 3 runs. -/
def coreState (pends : List Nat) : State :=
  tune (fun d => { d with cores := updAt (fun c => { c with
    threads := [⟨.empty, 0, false, 0⟩, ⟨.blocked, 0, false, 0⟩, ⟨.delayed, 0, false, 0⟩, ⟨.ready, 31, true, 0⟩], ready := [3], running := some 3,
    delays := [(2, 1048575)], binds := [none, some 1, some 2, some 3], pends := pends }) 7 d.cores }) svc

theorem witness_CoresScheduleThreads :
    (let s := coreState []; let c := s.work.settle.core 7;
      7 < 8 ∧ (c.thread 0).state = .empty ∧ (c.thread 1).state = .blocked ∧ (c.thread 2).state = .delayed ∧ (c.thread 3).state = .ready
      ∧ c.running = some 3 ∧ 31 ≤ 31 ∧ 31 < 32 ∧ 1 ≤ 1048575 ∧ 1048575 < 1048576
      ∧ (s.work.core 7).binds.getD 0 none = none ∧ (s.work.core 7).binds.getD 1 none = some 1
      ∧ ((s.work.core 7).thread 1).state = .blocked ∧ (s.work.core 7).binds.getD 3 none = some 3
      ∧ ((s.work.core 7).thread 3).state = .ready ∧ (s.work.core 7).pends.contains 3 = false)
    ∧ Accepted svc (.fn 0) ⟨.cc, 7⟩ .ccMailbox 0 (BitVec.ofNat 32 0xFFFFFFFF) := by
  simp only [accepted_iff]
  decide +kernel

def started (k attempt : Nat) (mode : BootMode) : State :=
  tune (fun d => { d with boot := { d.boot with
    mode := mode, running := [⟨5, 1, k, attempt, 0xFF, 0, 0, 100, 0, 0⟩], journal := [⟨5, 1, k, attempt, 0xFF, 0, 0, 100, 0, 0⟩] } }) State.reset

/-- DD_CFG of every channel as the image of R503's module gives it. -/
def trained (s : State) : State := (List.range 16).foldl (fun s c => setR ⟨.dd, c⟩ .ddCfg 0 0x40000024 s) s

theorem witness_StartsAndBootSteps :
    (State.reset.dev.power.state ≠ .off ∧ State.reset.dev.power.modPg = true ∧ State.reset.dev.power.perst = false)
    ∧ (let s := tune (fun d => { d with power := { d.power with perst := true } }) State.reset;
      s.dev.power.state ≠ .off ∧ s.dev.power.modPg = true ∧ s.dev.power.perst = true)
    ∧ (∀ k ∈ [1, 13, 14], ∃ e, (started k 1 .booting).dev.boot.running.find? (fun e => e.step == k) = some e ∧ k ≠ 12 ∧ e.attempt = 1)
    ∧ (stepRequired 1 = true ∧ ∃ e, (started 1 2 .booting).dev.boot.running.find? (fun e => e.step == 1) = some e ∧ e.attempt ≠ 1)
    -- step 7 with and without coolant flow
    ∧ (∀ on ∈ [true, false], let s := setR pgPm .pmStat 0 (atBit (b2n on) 29) (started 7 1 .booting);
      (s.dev.boot.running.find? (fun e => e.step == 7)).isSome = true ∧ s.work.rb pgPm .pmStat 29 = on)
    -- step 11 with every DIMM in order, and with one channel that has none
    ∧ (trained (started 11 1 .booting)).work.badUnits 11 = []
    ∧ (tune (fun d => { d with dimms := d.dimms.map (fun _ => []) }) (trained (started 11 1 .booting))).work.badUnits 11 ≠ []
    -- a step that is not required fails, in both of its attempts
    ∧ (stepRequired 12 = false ∧ stepRequired 14 = true ∧ stepRequired 1 = true)
    ∧ (∃ k, k < 15 ∧ stepRequired k = false)
    -- two steps run: the one that began first is due first
    ∧ (let s := tune (fun d => { d with boot := { d.boot with running := d.boot.running ++ [⟨6, 2, 3, 1, 0, 0, 0, 99, 0, 0⟩] } }) (started 3 1 .booting);
      s.dev.boot.running.map (fun e => (e.step, s.dev.boot.startBeat + e.tUs * 250 + 7500000000)) = [(3, 7500025000), (3, 7500024750)])
    ∧ (let s := setR pgPm .pmStat 0 0x20000000 (started 7 1 .booting);
      s.dev.boot.running.map (·.step) = [7] ∧ s.work.rb pgPm .pmStat 29 = true)
    ∧ (∀ m ∈ [BootMode.recovery, .service], acceptedB (started 1 1 m) (.fn 0) pgBt .btCtl 0 1 = true
      ∧ acceptedB (started 1 1 m) (.fn 0) pgBt .btCtl 0 2 = true ∧ (started 1 1 m).dev.boot.mode = m) := by
  simp only [some_iff]
  refine ⟨by decide +kernel, by decide +kernel, by decide +kernel, by decide +kernel, by decide +kernel, by decide +kernel, by decide +kernel,
    by decide +kernel, ⟨12, by decide +kernel⟩, by decide +kernel, by decide +kernel, by decide +kernel⟩

/-- An update in progress of the 6,144 bytes at host address 0. -/
def updating (target : Nat) (host : List Byte) : State :=
  after (fun w => w.writeHost 0 (host.map (·, false)))
    (tune (fun d => { d with boot := { d.boot with updTarget := some target, updAddr := 0, updLen := 6144 } }) linkedUp)

theorem witness_UpdatesAreCheckedAndFloorsRise :
    (∀ target ∈ [0, 1], ∀ len ∈ [6144, 33554432],
      let s := setR pgBt .btUpdLen 0 (BitVec.ofNat 32 len) svc;
      acceptedB s (.fn 0) pgBt .btUpdCtl 0 (atBit 1 31 ||| atBit target 0) = true
      ∧ 6144 ≤ s.work.rf pgBt .btUpdLen 25 0 ∧ s.work.rf pgBt .btUpdLen 25 0 ≤ 33554432 ∧ s.dev.boot.updTarget = none
      ∧ s.dev.boot.mode ≠ .booting ∧ s.dev.boot.mode ≠ .recovery)
    ∧ ((updating 0 []).dev.boot.updTarget = some 0
      ∧ ∃ l, ((updating 0 []).work.readHost 0 6144).1 = some l
        ∧ ((updating 0 []).work.readHost 0 6144).2.imageCode (l.map (·.1)) false false = some 2)
    -- the PCIe link is down
    ∧ (let s := setR pgPx .pxLink 0 0 (updating 1 []); s.dev.boot.updTarget = some 1 ∧ (s.work.readHost 0 6144).1 = none)
    ∧ (let s := tune (fun d => { d with boot := { d.boot with booted := [(1, 0, ⟨3, 0, 1, []⟩)] } }) svc;
      1 < 64 ∧ Accepted s (.fn 0) pgBt .btFloorCtl 0 (atBit (b2n true) 8 ||| atBit 1 0) ∧ s.dev.boot.mode = .service
      ∧ (∀ t < 6, 1 / 2 ^ t % 2 = 1 → (s.dev.boot.secOf t).isSome = true)) := by
  simp only [accepted_iff, some_iff]
  decide +kernel

/-- An image of type 1 with key 0, security version 0 and no body. -/
def image1 : List Byte := leBytes 4 0x4D494E46 ++ [1, 1, 0, 0] ++ List.replicate 6136 0

/-- It is accepted where its key, its signatures and its body digest are right: those are the manual's cryptographic functions,
of which the model fixes nothing. -/
theorem witness_UpdatesAreCheckedAndFloorsRise_pass
    (hk : Config.sha384 ((image1.drop 128).take 1984) = Config.romKeyDigest 0)
    (he : Config.ed25519Verify ((image1.drop 128).take 32) (image1.take 2112) ((image1.drop 2112).take 64) = true)
    (hm : Config.mldsaVerify ((image1.drop 160).take 1952) (image1.take 2112) ((image1.drop 2176).take 3309) = true)
    (hd : Config.sha384 (imgBody image1) = imgDigest image1) : linkedUp.work.imageCode image1 false false = none := by
  have c1 : ¬ (bytesAt image1 0 4 ≠ 0x4D494E46 ∨ byteAt image1 4 ≠ 1 ∨ [1, 2, 3, 4, 6].contains (imgType image1) = false
      ∨ zeroBytes image1 7 1 = false ∨ zeroBytes image1 84 44 = false ∨ zeroBytes image1 5485 659 = false
      ∨ (bytesAt image1 80 4 == 0) = false) := by decide +kernel
  have t1 : imgType image1 = 1 := by decide +kernel
  have k0 : byteAt image1 6 = 0 := by decide +kernel
  have c4 : ¬ imgSec image1 < linkedUp.work.dev.boot.floors.getD (imgType image1 - 1) 0 := by decide +kernel
  have c5 : bytesAt image1 72 8 = 0 := by decide +kernel
  have c6 : ¬ (slotBytes (imgType image1) < 6144 + imgBodyLen image1 ∨ image1.length < 6144 + imgBodyLen image1) := by decide +kernel
  have c7 : linkedUp.work.dev.boot.keyFloor = 0 := by decide +kernel
  have c8 : bodyOk linkedUp.work.variant (imgType image1) (imgBody image1) = true := by rw [t1]; rfl
  simp only [not_or] at c1 c6
  rw [t1] at c1 c4 c6 c8
  simp only [Work.imageCode, t1, k0, c7, hk, he, hm, hd, c1, c4, c5, c6, c8]
  simp

theorem witness_PowerStatesChange :
    (let s := tune (fun d => { d with power := { d.power with modEn := false } }) svc; s.dev.power.modEn = false)
    ∧ (let s := tune (fun d => { d with power := { d.power with state := .off, modPg := false } }) svc;
      s.dev.power.state = .off ∧ s.dev.power.modEn = true)
    ∧ (let s := tune (fun d => { d with power := { d.power with state := .low, modPg := false } }) svc;
      s.dev.power.state = .low ∧ s.dev.power.modPg = false)
    ∧ svc.dev.power.perst = false
    ∧ (∀ held ∈ [true, false], ∀ begun ∈ [true, false],
      let s := tune (fun d => { d with power := { d.power with perst := true }, boot := { d.boot with held := held, begun := begun } }) svc;
      s.dev.power.perst = true ∧ s.dev.boot.held = held ∧ s.dev.boot.begun = begun)
    ∧ (7000 < 7001 ∧ 7000 ≤ 7000 ∧ 4800 ≤ 4800 ∧ 4800 < 5600 ∧ 4799 < 4800 ∧ 5600 ≤ 5600)
    ∧ State.reset.work.dev.power.state ≠ .full ∧ svc.work.dev.power.state = .full := by decide +kernel

def withInput (x : InputSt) : State := tune (fun d => { d with power := { d.power with inputs := updAt (fun _ => x) 4 d.power.inputs } }) svc

theorem witness_SensorsCapAndPins :
    (svc.dev.power.state ≠ .off)
    ∧ (let s := tune (fun d => { d with power := { d.power with lowSince := some 9, tripSince := some 9 } }) svc;
      s.dev.power.lowSince = some 9 ∧ s.dev.power.lowFlow = false ∧ s.dev.power.tripSince = some 9)
    ∧ (let t : Temps := ⟨[95, 95, 95, 95], [99], [99], 109, 40⟩;
      (∀ x ∈ t.dies, x ≤ 95) ∧ (∀ x ∈ t.hbms, x < 100) ∧ (∀ x ∈ t.dimms, x < 100) ∧ t.vps < 110 ∧ t.inlet ≤ 40
      ∧ svc.dev.power.state = .full ∧ svc.dev.power.thermSkip.length = 4)
    -- under a load of 3,300 W, 2,100 W of it in engines, after 100 ms at the cap: the level must rise, stay or may fall
    ∧ (∀ skip ∈ [0, 13, 14], let s := tune (fun d => { d with beat := 25000000, power := { d.power with capSkip := skip, drawn := [(0, d.power.drawn.length + svc.work.capW)] } }) svc;
      s.dev.power.state = .full ∧ s.work.capLevel 3300 2100 = 13)
    ∧ (56 ≤ 56 ∧ rulesHold 25000000 25000000 2900 none [(0, 2900)] (loadAt 3300 2100 13) = true
      ∧ rulesHold 25000000 25000000 2900 none [(0, 2900)] (loadAt 3300 2100 12) = false)
    ∧ (let s := withInput ⟨some 10, false, 0, false, 0⟩; let t := 10 + s.work.rf pgPm .pmInCfg 31 16 4;
      4 < 5 ∧ ((s.work.passToTime t).input 4).stuck = false
      ∧ (match ((s.work.passToTime t).input 4).lastEdge with
        | some u => decide (t < u + (s.work.passToTime t).rf pgPm .pmInCfg 31 16 4)
        | none => false) = false
      ∧ 0 < s.work.rf pgPm .pmInCfg 31 16 4
      ∧ (match ((s.work.passToTime (t - 1)).input 4).lastEdge with
        | some u => decide (t - 1 < u + (s.work.passToTime (t - 1)).rf pgPm .pmInCfg 31 16 4)
        | none => false) = true)
    ∧ (((withInput ⟨none, true, 0, false, 0⟩).work.input 4).level = true ∧ ((withInput ⟨none, true, 0, false, 0⟩).work.input 4).stuck = false)
    ∧ (((withInput ⟨none, true, 0, true, 0⟩).work.input 4).stuck = true)
    ∧ (3 < 4 ∧ Accepted svc (.fn 0) pgPm .pmTrigOut 3 (atBit 1 31 ||| atBit 1 0))
    ∧ Accepted svc (.fn 0) pgPm .pmInClr 0 (BitVec.ofNat 32 31) := by
  simp only [accepted_iff]
  decide +kernel

def snapping (pend : List Pending) (stat : Word) (time : Nat) : State :=
  tune (fun d => { d with stock := { d.stock with pending := pend }, time := time }) (setR pgSk .skStat 0 stat (setR pgSk .skAtLo 0 1000 svc))

def logging (head : Word) : State :=
  tune (fun d => { d with stock := { d.stock with queue := [⟨pgSy.base, 0, List.replicate 32 1⟩] } }) (setR pgSk .skLogHead 0 head svc)

theorem witness_SnapshotsLogAndCounters :
    (Accepted svc (.fn 0) pgSk .skCtl 0 1 ∧ svc.work.rb pgSk .skStat 30 = false ∧ svc.dev.stock.pending = []
      ∧ (snapping [⟨24, 1, false⟩] 0 0).dev.stock.pending ≠ [] ∧ (snapping [] 0x40000000 0).work.rb pgSk .skStat 30 = true
      ∧ Accepted (snapping [] 0x40000000 0) (.fn 0) pgSk .skCtl 0 1 ∧ Accepted (snapping [⟨24, 1, false⟩] 0 0) (.fn 0) pgSk .skCtl 0 1)
    -- exactly 24 beats to go, and one tick less
    ∧ (Accepted (snapping [] 0 904) (.fn 0) pgSk .skCtl 0 2 ∧ (snapping [] 0 904).dev.stock.armed = none
      ∧ (snapping [] 0 904).dev.time + 96 ≤ roundUp (snapping [] 0 904).work.skAt 4
      ∧ roundUp (snapping [] 0 905).work.skAt 4 < (snapping [] 0 905).dev.time + 96)
    ∧ (let s := tune (fun d => { d with stock := { d.stock with armed := some 1000 } }) svc;
      Accepted s (.fn 0) pgSk .skCtl 0 2 ∧ s.dev.stock.armed.isSome = true ∧ Accepted s (.fn 0) pgSk .skCtl 0 10)
    ∧ (Accepted svc (.fn 0) pgSk .skCtl 0 8 ∧ Accepted svc (.fn 0) pgSk .skCtl 0 4)
    ∧ (let s := tune (fun d => { d with stock := { d.stock with armed := some 1000 } }) svc;
      s.dev.stock.armed = some 1000 ∧ s.dev.stock.pending.any (·.timed) = false ∧ s.dev.counting = true)
    ∧ (∀ timed ∈ [true, false], let s := snapping [⟨24, 3, timed⟩] 0x40000000 0;
      firstPending s.dev.stock.pending = some ⟨24, 3, timed⟩
      ∧ ((s.work.passTo 24).stock (fun x => { x with pending := x.pending.erase ⟨24, 3, timed⟩ })).rb pgSk .skStat 30 = true)
    ∧ (∀ head ∈ [4095, 4096], let s := logging (BitVec.ofNat 32 head);
      s.dev.stock.queue = [⟨pgSy.base, 0, List.replicate 32 1⟩] ∧ pageAt pgSy.base = some pgSy
      ∧ (serialDiff (s.work.passTo s.dev.stock.logAt |>.reg pgSk .skLogHead).toNat (s.work.reg pgSk .skLogTail).toNat = 4096 ↔ head = 4096))
    ∧ (cntCtlOff (Page.base ⟨.gu, 215⟩) = at_ ⟨.gu, 215⟩ .cntCtl
      ∧ Accepted svc (.fn 0) ⟨.gu, 215⟩ .cntCtl 0 (1 ||| atBit (b2n true) 1))
    ∧ (∀ x ∈ [((⟨.gu, 215⟩ : Page), RegId.cntLo, 11), (pgCr, .crTimeLo, 0)], let r := regOf x.1 x.2.1;
      svc.work.answers (.fn 0) = true ∧ pageAt (x.1.base + r.off + r.stride * x.2.2) = some x.1
      ∧ findReg (pageRegs x.1.block) ((x.1.base + r.off + r.stride * x.2.2) % 0x1000) = some (r, x.2.2)
      ∧ (x.1.base + r.off + r.stride * x.2.2) % 4 = 0 ∧ x.1.present svc.variant = true ∧ svc.work.pageOffline (some x.1) = false
      ∧ svc.work.maySee x.1 r x.2.2 (.fn 0) = true ∧ svc.work.pageOn x.1 = true ∧ r.id = x.2.1
      ∧ ((svc.work.count pgPx 0).variant = svc.variant) ∧ (svc.work.count pgPx 0).pageOffline (some x.1) = false
      ∧ (svc.work.count pgPx 0).maySee x.1 r x.2.2 (.fn 0) = true ∧ (svc.work.count pgPx 0).pageOn x.1 = true)
    ∧ (pgCr.base + (regOf pgCr .crTimeLo).off + (regOf pgCr .crTimeLo).stride * 0 = pgCr.base + 0x100) := by
  simp only [accepted_iff]
  decide +kernel

theorem witness_UnoccupiedPageReadsZeroAndRejects :
    svc.work.answers (.core 7 63) = true ∧ 0x3FFFFFC % 4 = 0 ∧ 0x3FFFFFC + 4 ≤ 2 ^ 26 ∧ pageAt 0x3FFFFFC = none ∧ 0x08 % 16 ≠ 0 := by
  decide +kernel

theorem witness_LogTailAdvancesWithinTheLog :
    (∀ tail ∈ [0, 1, 2, 0xFFFFFFFF], acceptedB (setR pgSk .skLogHead 0 1 svc) (.fn 0) pgSk .skLogTail 0 (BitVec.ofNat 32 tail) = true
      ∧ ((serialDiff (BitVec.ofNat 32 tail).toNat ((setR pgSk .skLogHead 0 1 svc).work.reg pgSk .skLogTail).toNat < 0
        ∨ serialDiff ((setR pgSk .skLogHead 0 1 svc).work.reg pgSk .skLogHead).toNat (BitVec.ofNat 32 tail).toNat < 0) ↔ 2 ≤ tail))
    ∧ regOff pgHub .errFirst 0 ≠ regOff pgSk .skLogTail 0 := by
  decide +kernel

/-! ### WellFormed: every check refuses an ill-formed command, and admits the command at the end of the range -/

theorem smoke_agents : [Instr.loadArm (.fn 32), .loadArm (.core 8 0), .loadArm (.core 0 64), .taskRelease ⟨0, 131072⟩].all (fun i => !i.wf)
    ∧ [Instr.loadArm (.fn 31), .loadArm (.core 7 63), .taskRelease ⟨0, 131071⟩].all Instr.wf := by decide +kernel

theorem smoke_registers : [Instr.registerWrite (.fn 0) 1 0 4 0 15, .registerWrite (.fn 0) 0 67108864 4 0 15,
      .registerWrite (.fn 0) 0 0 6 0 15, .registerWrite (.fn 0) 0 0 4 4294967296 15, .registerWrite (.fn 0) 0 0 4 0 16,
      .rwdStage (.fn 0) 67108864 0, .rwdStage (.fn 0) 0 4294967296, .pageReset (.fn 0) 67108864 0, .pageReset (.fn 0) 0 4294967296,
      .pageQuiesce (.fn 0) 67108864 true true, .pageEnable (.fn 0) 67108864 true true, .doorbell 32 0 0, .doorbell 0 32 0,
      .doorbell 0 0 4294967296, .qReset 32 0, .qReset 0 32, .counterClear (.fn 0) 67108864 false,
      .counterLoRead (.fn 0) 67108864].all (fun i => !i.wf)
    ∧ [Instr.registerWrite (.fn 0) 2 67108863 8 18446744073709551615 255, .doorbell 31 31 4294967295].all Instr.wf := by decide +kernel

theorem smoke_tasks : [Instr.admission 1024, .slotTake 216, .dispatch 216, .instanceComplete 216 0, .instanceComplete 0 8,
      .cancelTag (.fn 0) 1024, .cancelQueue (.fn 0) 1024, .cancelContext (.fn 0) 1024, .generationBump 0 8, .instanceStop 0 8,
      .pageZeroed 216 0, .ttXlateInv (.fn 0) 32, .contextSave (.fn 0) 32 0, .contextSave (.fn 0) 0 65536, .contextRestore (.fn 0) 32 0,
      .contextRestore (.fn 0) 0 65536, .dealOpen (.fn 0) 40, .dealCommit (.fn 0) 40 false false, .dealAbandon (.fn 0) 40,
      .dirPush (.fn 0) 40 false false false].all (fun i => !i.wf)
    ∧ [Instr.admission 1023, .instanceComplete 215 7, .contextSave (.fn 0) 31 65535, .dealOpen (.fn 0) 39].all Instr.wf := by decide +kernel

theorem smoke_gather : [Instr.hawkerFetchIssue 216, .tcFlush (.fn 0) 216 true, .gatherIndex 216 0, .gatherIndex 0 24,
      .windowIdleTimeout 0 24, .rowFetchIssue 0 24, .scatterUpdate 0 8, .scatterEntryArrive 4, .scatterHoldExpire 4, .versionBump 216,
      .slabDeal 0 24, .dealWaitExpire 0 24, .closeArrive 5, .slabPartialSend 216 0, .slabPartialSend 0 16, .hubEntryMerge 5,
      .mcastRowSend 216, .mcastRowReceive 216 0, .mcastRowReceive 0 216, .mcastTimeout 216, .mcastDetach 216,
      .tileWrite 216].all (fun i => !i.wf)
    ∧ [Instr.gatherIndex 215 23, .closeArrive 4, .slabPartialSend 215 15, .scatterEntryArrive 3].all Instr.wf := by decide +kernel

theorem smoke_tables_sync : [Instr.migrationGo (.fn 0) 216 0 0, .migrationGo (.fn 0) 0 32 0, .migrationGo (.fn 0) 0 0 16384, .migrate 216,
      .migrateRowLanded 216 [], .migrateAttemptTimeout 216, .evict 216, .tablePause (.fn 0) 32 true false, .copyDescriptorRead 216 0,
      .copyDescriptorRead 0 8, .opAdd (.fn 0) 40 true, .opTake (.fn 0) 40 true, .opInit (.fn 0) 40, .opRead (.fn 0) 40, .opWait (.fn 0) 40,
      .opUnwait (.fn 0) 40, .syCellAdd (.fn 0) 216 0 0, .syCellAdd (.fn 0) 0 64 0, .syCellAdd (.fn 0) 0 0 65536, .syXlateInv (.fn 0) 32,
      .parkedSignalRelease 17, .parkTimeout 17].all (fun i => !i.wf)
    ∧ [Instr.migrationGo (.fn 0) 215 31 16383, .syCellAdd (.fn 0) 215 63 65535, .opAdd (.fn 0) 39 false, .parkTimeout 16].all Instr.wf := by
  decide

def hdr : PktHdr := ⟨15, 31, 4095, 4095, 15⟩
def msg : SignalMsg := ⟨1048575, 4, true, 65535, 0, 0, 0, 0, 0, 0, 0⟩
def hel : HelloMsg := ⟨1, 1, 1, 0, 4095, 15, 47, 0, 0, 0, 0, 0, false⟩

theorem smoke_links : [Instr.scrub true 16 0 none, .scrub false 8 0 none, .memFailed true 16, .memFailed false 8, .flitReceive 16 0 (List.replicate 256 0),
      .flitReceive 0 48 (List.replicate 256 0), .flitReceive 0 0 (List.replicate 255 0), .nakGapTimeout 16, .replayTimeout 16,
      .linkFail 16 0, .linkFail 0 48, .linkSilenceTimeout 0 48, .portLostTimeout 16, .linkTrained 0 48 true, .helloRepeat 0 48,
      .hello 16 0 hel, .hello 0 0 { hel with device := 4096 }, .hello 0 0 { hel with time := 2 ^ 40 }, .retrain (.fn 0) 16,
      .rejoin (.fn 0) 16 0, .rejoin (.fn 0) 0 4294967296].all (fun i => !i.wf)
    ∧ [Instr.flitReceive 15 47 (List.replicate 256 0), .hello 15 47 hel].all Instr.wf := by decide +kernel

theorem smoke_packets : [Instr.write { hdr with port := 17 } 0 0 0 0 0 [], .write { hdr with ctx := 32 } 0 0 0 0 0 [],
      .write { hdr with dst := 4096 } 0 0 0 0 0 [], .write { hdr with src := 4096 } 0 0 0 0 0 [], .write { hdr with poison := 16 } 0 0 0 0 0 [],
      .write hdr (2 ^ 44) 0 0 0 0 [], .write hdr 0 65536 0 0 0 [], .write hdr 0 0 (2 ^ 32) 0 0 [], .write hdr 0 0 0 65536 0 [],
      .write hdr 0 0 0 0 65536 [], .write hdr 0 0 0 0 0 [0], .write hdr 0 0 0 0 0 (List.replicate 272 0), .read hdr (2 ^ 32) 0 0 0,
      .read hdr 0 4096 0 0, .read hdr 0 0 (2 ^ 64) 0, .read hdr 0 0 0 (2 ^ 32), .resp hdr (2 ^ 32) 0 false [], .resp hdr 0 65536 false [],
      .signal hdr { msg with rid := 2 ^ 20 }, .signal hdr { msg with op := 0 }, .signal hdr { msg with op := 5 }, .signal hdr { msg with n := 65536 },
      .time hdr false false (2 ^ 40) 0 0 0 0, .time hdr false false 0 65536 0 0 0, .abort hdr 65536 0 0 0, .abort hdr 0 65536 0 0,
      .abort hdr 0 0 65536 0, .abort hdr 0 0 0 4096, .mcast hdr 65536 0 0 0 0 0 0 false [], .mcast hdr 0 0 0 (2 ^ 32) 0 0 0 false [],
      .mcredit hdr 65536 0 0, .mcredit hdr 0 65536 0, .mcredit hdr 0 0 (2 ^ 32), .mgmt hdr [0], .groupValid (.fn 0) 32 0,
      .groupValid (.fn 0) 0 65536].all (fun i => !i.wf)
    ∧ [Instr.write hdr (2 ^ 44 - 1) 65535 (2 ^ 32 - 1) 65535 65535 (List.replicate 256 0), .signal hdr msg].all Instr.wf := by decide +kernel

theorem smoke_host : [Instr.apertureRead 32 0 4, .apertureRead 0 0 0, .apertureWrite 32 0 [0] false, .apertureWrite 0 0 [] false, .atsInvalidate 32 0 0,
      .atsInvalidate 0 (2 ^ 64) 0, .flr 0, .flr 32, .flrComplete 0, .flrComplete 32, .atsEnable 32 true, .mctpControl 256 0 [],
      .mctpControl 0 256 [], .mctpOtherType 256 0, .mctpOtherType 0 256, .getHealth 256, .readReg 256 0, .readReg 0 (2 ^ 32), .getJournal 256 0 0,
      .getJournal 0 4096 0, .getJournal 0 0 256, .getErrors 256 0, .getErrors 0 256, .negotiateAlgorithms (2 ^ 32) 0,
      .negotiateAlgorithms 0 (2 ^ 32), .getCertificate 16 0 0, .getCertificate 0 65536 0, .getCertificate 0 0 65536, .challenge 256 (List.replicate 32 0),
      .challenge 0 [], .getMeasurements 256 false [], .getMeasurements 0 true [], .getMeasurements 0 false [0],
      .hostCompletionTimeout ⟨0, 0⟩ 216 0, .hostCompletionTimeout ⟨0, 0⟩ 0 (2 ^ 44)].all (fun i => !i.wf)
    ∧ [Instr.flr 31, .challenge 255 (List.replicate 32 0), .getMeasurements 255 true (List.replicate 32 0)].all Instr.wf := by decide +kernel

theorem smoke_cores_boot_power : [Instr.schedReady 8 0, .schedReady 0 64, .schedBlock 8, .schedYield 8, .schedDelay 8 0, .schedDelay 0 (2 ^ 32), .schedCancel 8 0,
      .schedCancel 0 64, .schedSetprio 0 64 0, .schedSetprio 0 0 256, .schedBind 0 4 0, .schedBind 0 0 64, .delayExpire 8, .coreInterrupt 8 0,
      .coreInterrupt 0 4, .ccMailbox (.fn 0) 8 0, .ccMailbox (.fn 0) 0 (2 ^ 32), .threadFault 8 0 0, .threadFault 0 64 0, .threadFault 0 0 (2 ^ 44),
      .bootStepEnd 0 ⟨true, 0, 0, 0⟩, .bootStepEnd 15 ⟨true, 0, 0, 0⟩, .floorRaise (.fn 0) false 256 false, .tempSample ⟨[256], [], [], 0, 0⟩,
      .tempSample ⟨[], [256], [], 0, 0⟩, .tempSample ⟨[], [], [256], 0, 0⟩, .tempSample ⟨[], [], [], 256, 0⟩, .tempSample ⟨[], [], [], 0, 256⟩,
      .inputEdge 5 0, .inputStuck 5, .inputUnstuck 5, .trigOutPulse (.fn 0) 4 0, .trigOutPulse (.fn 0) 0 8, .pmInClr (.fn 0) (2 ^ 32),
      .skLogTail (.fn 0) (2 ^ 32)].all (fun i => !i.wf)
    ∧ [Instr.bootStepEnd 14 ⟨true, 0, 0, 0⟩, .schedBind 7 3 63, .inputEdge 4 0].all Instr.wf := by decide +kernel

/-! ### Single steps and values that the manual works out -/

/-- The command answers a next state of which the check holds. -/
def nextIs (o : Host.Outcome State Fault Refusal) (p : State → Bool) : Bool :=
  match o with
  | .next t => p t
  | _ => false

/-- R6's example: on an SVX-72A the PF writes PAGE_CTL of a Q3 cluster page; REJ_INFO of the hub names offset 0x010 and REJ_ABSENT. -/
theorem test_absent_cluster_write_is_rejected :
    let s : State := { svc with variant := .svx72A }
    s.work.peek 8 (.fn 0) = 0x00004337
      ∧ nextIs (step { s with pending := [.registerWrite (.fn 0) 0 (at_ ⟨.gu, 215⟩ .pageCtl) 4 1 15] })
        (fun t => t.work.peek (regOff pgHub .rejInfo 0) (.fn 0) == 0x80100005 && t.mem == s.mem) := by decide +kernel

/-- Chapter 3's example: the word of C3's pitch 6. -/
theorem test_pitch_word : pitchOfWord 6 0xC6002108
    = some { index := 6, isolate := true, owner := 3, loc := 0, x0 := 0, y0 := 4, wd := 4, ht := 2 } := by decide

/-- Chapter 13's example: one address in the device-wide view, in the view of die Q1, and one past the backed range. -/
theorem test_hbm_views : svc.work.phys 0x0000001234567 = .cell 0x1234567 ⟨.hm, 4⟩
    ∧ svc.work.phys 0x01400048D567 = .cell 0x1234567 ⟨.hm, 4⟩
    ∧ ({ svc with variant := .svx72A } : State).work.phys 0x1234567 = .cell 0x1234567 ⟨.hm, 7⟩
    ∧ svc.work.phys 0x861C467FFF = .cell 0x861C467FFF ⟨.hm, 11⟩ ∧ svc.work.phys 0x861C468000 = .unbacked := by decide +kernel

/-- Chapter 15's example: a doorbell over the wrap of the count, then one beyond the ring. -/
theorem test_doorbell_wraps :
    let s := after (fun w => ((w.setQreg 1 .qCfg 0x80000008).setQreg 1 .qTail 0xFFFFFFFE).setQreg 1 .qHead 0xFFFFFFFE) svc
    nextIs (exec (.doorbell 0 1 1) s) (fun t => t.work.qreg 1 .qTail == 1) := by decide +kernel

theorem test_doorbell_beyond_ring :
    let s := after (fun w => ((w.setQreg 1 .qCfg 0x80000008).setQreg 1 .qTail 1).setQreg 1 .qHead 0xFFFFFFFF) svc
    nextIs (exec (.doorbell 0 1 0x102) s) (fun t => t.work.qreg 1 .qTail == 1 && t.work.qreg 1 .qRej == 0x80000002) := by decide +kernel

/-- Chapter 11's example: a RING Tally with LIMIT 4 over the 32-bit wrap; the fifth ADD is refused. -/
theorem test_ring_over_the_wrap :
    let e : SyEnt := ⟨0xFFFFFFFF, 0xFFFFFFFF, atBit 1 30 ||| atBit 1 29 ||| atBit 4 0, 0⟩
    e.kind = 1 ∧ e.limit = 4 ∧ e.ring = true ∧ e.add 1 = .ok { e with value := 0 } false
      ∧ ({ e with value := 3 } : SyEnt).add 1 = .err .tallyOverrun := by decide

/-- Chapter 18's examples of R471: steps of 345.6 W at limits of 200 W and 50 W, and of 528 W at 200 W. -/
theorem test_spans : ceilDiv (216 * stepOf (some .vector)) 2000 - 1 = 1 ∧ ceilDiv (216 * stepOf (some .vector)) 500 - 1 = 6
    ∧ ceilDiv (120 * stepOf (some .transform)) 2000 - 1 = 2 := by decide

/-- Chapter 18's example of R469: 3,300 W, 2,100 W of it in engines, under a cap of 2,900 W. -/
theorem test_cap_level : capLevel 25000000 25000000 2900 none [(0, 2900)] 3300 2100 = 13
    ∧ capLevel 25000000 25000000 2900 none [(0, 2900)] 3600 2300 = 20 := by decide +kernel

/-- Chapter 9's example: three triangles at vertex 2. -/
theorem test_triangles : triangles [4, 5, 7] [(4, [2, 5, 7, 9]), (5, [2, 4, 7]), (7, [2, 4, 5, 8])] = 3 := by decide

/-- Chapter 2's example: rows of 132 B at stride 132, and of 528 B at stride 576; bytes charged. -/
theorem test_row_bytes : Fmt.code8.rowBytes 128 = 132 ∧ Fmt.e4m3.rowBytes 512 = 528
    ∧ chargedBytes [(396, 132)] = 256 ∧ chargedBytes [(660, 132)] = 256 ∧ chargedBytes [(5184, 528)] = 576 := by decide

/-- Chapter 19's example: HEAD 0x3001 admits TAIL 0x3001 and refuses 0x3002. -/
theorem test_log_tail :
    let s := setR pgSk .skLogHead 0 0x3001 (setR pgSk .skLogTail 0 0x2FFE svc)
    nextIs (exec (.skLogTail (.fn 0) 0x3001) s) (fun t => t.work.reg pgSk .skLogTail == 0x3001)
    ∧ nextIs (exec (.skLogTail (.fn 0) 0x3002) s) (fun t =>
      t.work.reg pgSk .skLogTail == 0x2FFE && fld (t.work.peek (regOff pgSk .rejInfo 0) (.fn 0)) 15 0 == 2) := by decide +kernel

/-- Chapter 12's example: x + 2y mod 2 splits a row of clusters into two halves. -/
theorem test_stagger : ((List.range 216).filter (fun c => staggerOf c 1 == 0)).length = 108 := by decide +kernel

/-- From reset, nothing placed: START begins step 1 of the first start, writing its journal entry (R435, R438). -/
theorem test_start_from_reset :
    nextIs (step { State.reset with pending := [.start] }) (fun t =>
      t.dev.boot.mode == .booting && t.dev.boot.running.map (·.step) == [1] && t.pending == []) := by decide +kernel

/-- The host's two names: the table gives no row bits. -/
theorem test_no_words : decodeTableWord 8 0 = none ∧ (State.reset.withFetchWord 8 0) = State.reset := by decide +kernel

/-- R474 at reset: the flow output low, 20 % duty for 0 °C, no alert; PM_TRIP.VALID brings THERM_ALERT_N down. -/
theorem test_outputs_at_reset : State.reset.work.flowOk = false ∧ State.reset.work.inletDuty = 20 ∧ State.reset.work.pwrAlertN = true
    ∧ State.reset.work.thermAlertN = true ∧ (setR pgPm .pmTrip 0 0x80000000 State.reset).work.thermAlertN = false := by decide +kernel

/-- R474: an inlet of 45 °C with coolant flowing. -/
theorem test_outputs_hot_inlet : let s := setR pgPm .pmStat 0 0x202D0000 State.reset
    s.work.flowOk = true ∧ s.work.inletDuty = 65 ∧ s.work.thermAlertN = false := by decide +kernel

/-- R349: a stack that failed in service does not train again. -/
theorem test_broken_stack : (started 10 1 .booting).work.badUnits 10 = []
    ∧ ((memFailedWork false 3 (started 10 1 .booting).work).badUnits 10).map (·.1) = [3] := by decide +kernel

end Sys2Proof.Tests
end

section
/-! SUPPORT. Reads and writes of a DWORD of BAR0 on a page that no unit occupies (R397). -/

namespace Sys2Proof

open Machine

/-! ### Reads -/

theorem peek_of_unoccupied {off : Nat} (h : pageAt off = none) (w : Work) (who : Agent) : w.peek off who = 0 := by
  simp only [Work.peek, h]

/-- The value of a read is what its reader sees; only a register that is found can take a latch. -/
theorem readReg_of_unoccupied {off : Nat} (h : pageAt off = none) (w : Work) (who : Agent) : (w.readReg off who).1 = 0 := by
  simp only [Work.readReg, h, peek_of_unoccupied h]

/-! ### The record in the hub page (R6, R406) -/

theorem rejectHub_dev (w : Work) (who : Agent) (off : Nat) (c : Rej) :
    (w.rejectHub who off c).dev = { w.dev with
      rejs := put 0 (rejKey pgHub who) (rejWord off c) w.dev.rejs
      hubRej := put 0 (writerOf who) (atBit 1 31 ||| atBit (off / 0x1000 * 0x1000) 0) w.dev.hubRej } := rfl

@[simp] theorem rejectHub_out (w : Work) (who : Agent) (off : Nat) (c : Rej) : (w.rejectHub who off c).out = w.out := rfl

/-! ### Writes -/

/-- R502, step 1: the page decides before the byte enables and the value are looked at. -/
theorem writeReg_of_unoccupied {off : Nat} (h : pageAt off = none) (w : Work) (who : Agent) (v : Word) (part fe : Bool) :
    w.writeReg who off v part fe = w.rejectHub who off .absent := by
  simp only [Work.writeReg, h]

/-- Every agent reaches BAR0, and reaches the same registers in it (R392, R423). -/
theorem writeDword_bar0 {be : Nat} (hbe : be % 16 ≠ 0) (w : Work) (who : Agent) (off : Nat) (v : Word) :
    w.writeDword who 0 off v.toNat be = w.writeReg who off v (decide (be % 16 ≠ 15)) := by
  cases who <;> simp only [Work.writeDword, if_neg hbe, BitVec.ofNat_toNat, BitVec.setWidth_eq]

/-- REGISTER_WRITE of an aligned DWORD inside BAR0, by an agent that answers, is the write of that DWORD. -/
theorem exec_registerWrite_bar0_dword {s : State} {who : Agent} {off be : Nat} (v : Word) (hans : s.work.answers who = true)
    (halign : off % 4 = 0) (hbar : off + 4 ≤ 2 ^ 26) (hbe : be % 16 ≠ 0) :
    exec (.registerWrite who 0 off 4 v.toNat be) s = s.run (fun w => w.writeReg who off v (decide (be % 16 ≠ 15))) := by
  have hsize : ¬ (((4 : Nat) ≠ 4 ∧ (4 : Nat) ≠ 8) ∨ off % 4 ≠ 0) := by omega
  have hin : ¬ barBytes who 0 < off + 4 := by simp only [barBytes]; omega
  have hwork : registerWriteWork who 0 off 4 v.toNat be s.work = s.work.writeReg who off v (decide (be % 16 ≠ 15)) := by
    rw [registerWriteWork, if_pos hans, ← writeDword_bar0 hbe]; rfl
  calc exec (.registerWrite who 0 off 4 v.toNat be) s
      = execRegisterWrite who 0 off 4 v.toNat be s := rfl
    _ = s.run (registerWriteWork who 0 off 4 v.toNat be) := by rw [execRegisterWrite, if_neg hsize, if_neg hin]
    _ = s.run (fun w => w.writeReg who off v (decide (be % 16 ≠ 15))) := by simp only [State.run, hwork]

/-- Settles O59: a read finds no page and gives 0; a write, once REGISTER_WRITE has passed the access on, ends at the first check
of R502, whose record in the hub page is all it changes. -/
theorem unoccupiedPageReadsZeroAndRejects : Obligations.UnoccupiedPageReadsZeroAndRejects := by
  intro s who off v be hans halign hbar hpage hbe
  constructor
  · exact readReg_of_unoccupied hpage s.work who
  · have hrun : exec (.registerWrite who 0 off 4 v.toNat be) s = s.run (fun w => w.rejectHub who off .absent) := by
      simp only [exec_registerWrite_bar0_dword v hans halign hbar hbe, writeReg_of_unoccupied hpage]
    rw [RunsTo, hrun, State.run_of_out_nil (rejectHub_out ..), rejectHub_dev]
    rfl

end Sys2Proof
end

section
/-! SUPPORT. SK_LOG_TAIL, the count of error records that software has consumed (R492, R493). -/

namespace Sys2Proof

open Machine

/-! ### Rejected writes (R406) -/

/-- R406: a rejection changes the writer's record of the page, and nothing else. -/
theorem reject_dev (w : Work) (p : Page) (who : Agent) (off : Nat) (c : Rej) :
    (w.reject p who off c).dev = { w.dev with rejs := put 0 (rejKey p who) (rejWord off c) w.dev.rejs } := rfl

@[simp] theorem reject_out (w : Work) (p : Page) (who : Agent) (off : Nat) (c : Rej) : (w.reject p who off c).out = w.out := rfl

theorem rejWord_pageOffset (off : Nat) (c : Rej) :
    rejWord (off % 0x1000) c = atBit 1 31 ||| atBit (off % 0x1000) 16 ||| atBit c.code 0 := by
  rw [rejWord, Nat.mod_mod]

/-- An effect that fails is recorded as the write's rejection. -/
theorem poke_error {s : State} {who : Agent} {p : Page} {id : RegId} {i : Nat} {v : Word} {fe : Bool} {c : Rej}
    (h : Accepted s who p id i v) (hc : s.work.writeEffect p (regOf p id) i who v fe = .error c) :
    s.work.poke who (at_ p id i) v fe = s.work.reject p who (at_ p id i % 0x1000) c := by
  rw [poke_of_accepted fe h, hc]

/-! ### Registers beside the one that is set -/

/-- A register keeps its value when another one of the same reset value is set at another offset. -/
theorem reg_setReg_of_ne {w : Work} {p q : Page} {id jd : RegId} {i j : Nat} (x : Word)
    (hreset : resetOf w.variant jd j q.block = resetOf w.variant id i p.block) (hoff : regOff q jd j ≠ regOff p id i) :
    (w.setReg p id x i).reg q jd j = w.reg q jd j := by
  simp only [Work.reg, Work.setReg_dev, Work.setReg_variant, hreset, look_put_of_ne hoff]

/-- The log's tail and the ERR_FIRST of a page are separate registers (R491, R493). -/
theorem errFirst_setReg_skLogTail {p : Page} (hoff : regOff p .errFirst 0 ≠ regOff pgSk .skLogTail 0) (w : Work) (x : Word) :
    (w.setReg pgSk .skLogTail x).reg p .errFirst = w.reg p .errFirst :=
  reg_setReg_of_ne x rfl hoff

/-! ### The effect of the write -/

theorem need_of_true {c : Bool} (h : c = true) (r : Rej) : need c r = .ok () := if_pos h

theorem need_of_not_true {c : Bool} (h : ¬ c = true) (r : Rej) : need c r = .error r := if_neg h

/-- R493: a tail that would go back, or pass the head. -/
def TailOutsideLog (w : Work) (v : Word) : Prop :=
  serialDiff v.toNat (w.reg pgSk .skLogTail).toNat < 0 ∨ serialDiff (w.reg pgSk .skLogHead).toNat v.toNat < 0

theorem writeLogTail_of_outside {w : Work} {v : Word} (h : TailOutsideLog w v) : w.writeLogTail v = .error .range := by
  by_cases hback : serialDiff v.toNat (w.reg pgSk .skLogTail).toNat < 0
  · rw [Work.writeLogTail, need_of_not_true (by simpa using hback)]
    rfl
  · have hahead := h.resolve_left hback
    rw [Work.writeLogTail, need_of_true (by simpa using hback), need_of_not_true (by simpa using hahead)]
    rfl

theorem writeLogTail_of_within {w : Work} {v : Word} (h : ¬ TailOutsideLog w v) :
    w.writeLogTail v = .ok (w.setReg pgSk .skLogTail v) := by
  obtain ⟨hback, hahead⟩ := not_or.mp h
  rw [Work.writeLogTail, need_of_true (by simpa using hback), need_of_true (by simpa using hahead)]
  rfl

/-! ### The command -/

theorem writeEffect_skLogTail (w : Work) (who : Agent) (v : Word) (fe : Bool) :
    w.writeEffect pgSk (regOf pgSk .skLogTail) 0 who v fe = w.writeLogTail v := rfl

theorem exec_skLogTail (who : Agent) (tail : Nat) (s : State) :
    exec (.skLogTail who tail) s = s.run (skLogTailWork who tail) := rfl

/-- SK_LOG_TAIL runs to the device that the write of its register leaves, when that write leaves memory alone. -/
theorem runsTo_skLogTail {s : State} {who : Agent} {tail : Nat} {x : Work}
    (hx : s.work.poke who (at_ pgSk .skLogTail) (BitVec.ofNat 32 tail) = x) (hout : x.out = []) :
    RunsTo (.skLogTail who tail) s x.dev := by
  have hwork : skLogTailWork who tail s.work = x := hx
  rw [RunsTo, exec_skLogTail, State.run_of_out_nil (hwork ▸ hout), hwork]

/-- Settles O60: an accepted write comes down to the two checks of R493. A tail outside the log leaves the record of its
rejection; any other is stored, which no ERR_FIRST at another offset sees. -/
theorem logTailAdvancesWithinTheLog : Obligations.LogTailAdvancesWithinTheLog := by
  intro s who tail hacc v bad
  constructor
  · intro (hbad : TailOutsideLog s.work v)
    have heff := (writeEffect_skLogTail s.work who v false).trans (writeLogTail_of_outside hbad)
    have hruns := runsTo_skLogTail (poke_error hacc heff) (reject_out ..)
    rwa [reject_dev, rejWord_pageOffset] at hruns
  · intro (hwithin : ¬ TailOutsideLog s.work v)
    have heff := (writeEffect_skLogTail s.work who v false).trans (writeLogTail_of_within hwithin)
    have hruns := runsTo_skLogTail (poke_ok hacc heff) (Work.setReg_out ..)
    exact ⟨_, hruns, Work.setReg_dev .., fun p hoff => errFirst_setReg_skLogTail hoff s.work v⟩

end Sys2Proof
end

section
/-! SUPPORT. What every step does to the queue, the ordering code and memory, whatever the command. -/

namespace Sys2Proof

open Machine

/-! ### Every command runs to a view, or faults -/

/-- A raw register access runs when it is aligned, of a size the BAR takes and inside the BAR (R392, R395). -/
theorem runs_registerWrite {who : Agent} {bar off size : Nat} (value be : Nat) (s : State) (hsize : size = 4 ∨ size = 8)
    (halign : off % size = 0) (hbar : off + size ≤ barBytes who bar) :
    Runs (.registerWrite who bar off size value be) s (registerWriteWork who bar off size value be s.work) := by
  refine runs_iff _ (?_ : execRegisterWrite who bar off size value be s = _)
  have hgood : ¬ ((size ≠ 4 ∧ size ≠ 8) ∨ off % size ≠ 0) := by omega
  rw [execRegisterWrite, if_neg hgood, if_neg (by omega)]

theorem runs_apertureRead {fn off len : Nat} (s : State) (hbar : off + len ≤ aperBytes fn) :
    Runs (.apertureRead fn off len) s (apertureReadWork fn off len s.work) := by
  refine runs_iff _ (?_ : execApertureRead fn off len s = _)
  rw [execApertureRead, if_neg (by omega)]

theorem runs_apertureWrite {fn off : Nat} {data : List Byte} (poisoned : Bool) (s : State)
    (hbar : off + data.length ≤ aperBytes fn) :
    Runs (.apertureWrite fn off data poisoned) s (apertureWriteWork fn off data poisoned s.work) := by
  refine runs_iff _ (?_ : execApertureWrite fn off data poisoned s = _)
  rw [execApertureWrite, if_neg (by omega)]

theorem completes_of_runs {i : Instr} {s : State} {w : Work} (h : Runs i s w) : Completes i s := ⟨_, h⟩

/-- Settles O6: the arms of the three raw accesses run once their checks pass; every other arm is the run of a change of the view. -/
theorem onlyRawAccessesStop : Obligations.OnlyRawAccessesStop := by
  intro i s h
  cases i
  case registerWrite who bar off size value be =>
    obtain ⟨hsize, halign, hbar⟩ := h
    exact completes_of_runs (runs_registerWrite value be s hsize halign hbar)
  case apertureRead fn off len => exact completes_of_runs (runs_apertureRead s h)
  case apertureWrite fn off data poisoned => exact completes_of_runs (runs_apertureWrite poisoned s h)
  all_goals exact ⟨_, rfl⟩

/-- Whatever a command answers as a next state is the run of some view over the state (log 2). -/
theorem runs_of_exec_next {i : Instr} {s t : State} (h : exec i s = .next t) :
    ∃ w : Work, t = { s with mem := s.mem.writeAll w.out, dev := w.dev } := by
  have of_runs {w : Work} (hw : Runs i s w) : ∃ w : Work, t = { s with mem := s.mem.writeAll w.out, dev := w.dev } :=
    ⟨w, Host.Outcome.next.inj (h.symm.trans hw)⟩
  cases i
  case registerWrite who bar off size value be =>
    by_cases hgood : (size = 4 ∨ size = 8) ∧ off % size = 0 ∧ off + size ≤ barBytes who bar
    · obtain ⟨hsize, halign, hbar⟩ := hgood
      exact of_runs (runs_registerWrite value be s hsize halign hbar)
    · have hfault : execRegisterWrite who bar off size value be s = .next t := h
      rw [execRegisterWrite] at hfault
      split at hfault
      · cases hfault
      · rw [if_pos (by omega)] at hfault
        cases hfault
  case apertureRead fn off len =>
    by_cases hbar : off + len ≤ aperBytes fn
    · exact of_runs (runs_apertureRead s hbar)
    · have hfault : execApertureRead fn off len s = .next t := h
      rw [execApertureRead, if_pos (by omega)] at hfault
      cases hfault
  case apertureWrite fn off data poisoned =>
    by_cases hbar : off + data.length ≤ aperBytes fn
    · exact of_runs (runs_apertureWrite poisoned s hbar)
    · have hfault : execApertureWrite fn off data poisoned s = .next t := h
      rw [execApertureWrite, if_pos (by omega)] at hfault
      cases hfault
  all_goals exact of_runs rfl

/-- Settles O3: a run replaces memory and the device only. -/
theorem queueAndVariantKept : Obligations.QueueAndVariantKept := by
  intro i s t h
  obtain ⟨w, rfl⟩ := runs_of_exec_next h
  exact ⟨rfl, rfl⟩

/-! ### The canonical form of memory (R343, R345) -/

/-- A view's writes keep the canonical form of the memory they are applied to. -/
theorem safe_of_runs {s t : State} (hsafe : Safe s) {w : Work} (ht : t = { s with mem := s.mem.writeAll w.out, dev := w.dev }) :
    Safe t := by
  rw [ht]
  exact Memory.wf_writeAll w.out hsafe

/-- Settles O4: a step is the beat of an empty queue or the command at its front, and either leaves memory with a view's writes
applied, each of which keeps the form. -/
theorem canonicalMemoryKept : Obligations.CanonicalMemoryKept := by
  intro s t hsafe hstep
  rw [step] at hstep
  split at hstep
  case h_1 => exact safe_of_runs hsafe ((State.run_eq_next_iff Work.idle s t).mp hstep)
  case h_2 i rest _ =>
    obtain ⟨w, ht⟩ := runs_of_exec_next hstep
    exact safe_of_runs (s := { s with pending := rest }) hsafe ht

/-- Settles O1: by the definition of a step on a queue that is not empty. -/
theorem frontCommandRuns : Obligations.FrontCommandRuns := fun _ _ _ => rfl

theorem getD_replicate_self {α : Type} (d : α) (n k : Nat) : (List.replicate n d)[k]?.getD d = d := by
  rw [List.getElem?_replicate]
  split
  · rfl
  · rfl

/-- Settles O7: every register reads its reset value because none is listed. -/
theorem resetLeavesPowerGood : Obligations.ResetLeavesPowerGood := by
  have hdeals : ∀ k, State.reset.work.deal_ k = .idle := getD_replicate_self DealSlot.idle 40
  have hslots : ∀ k, State.reset.work.sySlot k = .idle := getD_replicate_self SySlot.idle 40
  exact ⟨⟨rfl, rfl, rfl, rfl, rfl, rfl, hdeals, hslots, fun _ _ _ => rfl⟩, rfl⟩

/-! ### What a change run over a list keeps -/

/-- What each change of a row keeps is kept by the row. -/
theorem Machine.Work.each_keeps {α β : Type} (g : Work → β) {f : α → Work → Work} (h : ∀ x w, g (f x w) = g w) (l : List α) :
    ∀ w : Work, g (w.each l f) = g w := by
  induction l with
  | nil => intro w; rfl
  | cons x t ih => intro w; exact (ih (f x w)).trans (h x w)

/-! ### A beat of an empty queue (log 3) -/

/-- The starving instances of a cluster are recorded in its own entry (R263). -/
theorem Machine.Work.noteStarving_keeps {β : Type} (g : Work → β)
    (h : ∀ (w : Work) (cl : SMap Cluster), g (w.upd (fun d => { d with clusters := cl })) = g w)
    (c : Nat) (w : Work) : g (w.noteStarving c) = g w := h w _

theorem Machine.Work.sendFlit_out (w : Work) (p link fseq ftype : Nat) (slots : List Byte) :
    (w.sendFlit p link fseq ftype slots).out = w.out := rfl

theorem Machine.Work.sendFlit_insts (w : Work) (p link fseq ftype : Nat) (slots : List Byte) :
    (w.sendFlit p link fseq ftype slots).dev.insts = w.dev.insts := rfl

/-- IDLE flits leave what a flit leaves. -/
theorem Machine.Work.idleFlits_keeps {β : Type} (g : Work → β)
    (h : ∀ (w : Work) (p link fseq : Nat), g (w.sendFlit p link fseq 0 []) = g w) (w : Work) : g w.idleFlits = g w := by
  refine Work.each_keeps g (fun p w => ?_) _ w
  rw [Work.idleFlit]
  split
  · exact h ..
  · rfl

/-- Nothing starts where no start is due (R328). -/
theorem Machine.Work.startOver_of_none_due {w : Work} (h : ∀ i ∈ w.dev.insts, i.startDue = none) : w.startOver = w := by
  have hnone : w.dev.insts.filter (fun i => (i.startDue.map (fun b => decide (b ≤ w.dev.beat))).getD false) = [] :=
    List.filter_eq_nil_iff.mpr fun i hi => by simp [h i hi]
  rw [Work.startOver, hnone]
  rfl

/-- Settles O2: noting what starves and sending IDLE flits write no memory and keep the time, so the beat that passes is all that
moves it. -/
theorem emptyQueueLetsOneBeatPass : Obligations.EmptyQueueLetsOneBeatPass := by
  intro s hempty v
  obtain ⟨u, hu⟩ : ∃ u, s.work.each (s.dev.insts.map (·.cluster)).eraseDups (fun c w => w.noteStarving c) = u := ⟨_, rfl⟩
  have hv : v = u.pass 1 := congrArg (·.pass 1) hu
  have hstep : step s = .next { s with mem := s.mem.writeAll v.idleFlits.startOver.out, dev := v.idleFlits.startOver.dev } := by
    have hidle : step s = idleStep s := by simp only [step, hempty]
    exact hidle
  have kept {β : Type} (g : Work → β) (h : ∀ (w : Work) (cl : SMap Cluster), g (w.upd (fun d => { d with clusters := cl })) = g w) :
      g u = g s.work := hu ▸ Work.each_keeps g (Work.noteStarving_keeps g h) _ _
  have hbeat : u.dev.beat = s.dev.beat := kept (·.dev.beat) fun _ _ => rfl
  have htime : u.dev.time = s.dev.time := kept (·.dev.time) fun _ _ => rfl
  have hcounting : u.dev.counting = s.dev.counting := kept (·.dev.counting) fun _ _ => rfl
  have hcrier : u.dev.crier = s.dev.crier := kept (·.dev.crier) fun _ _ => rfl
  have hinsts : u.dev.insts = s.dev.insts := kept (·.dev.insts) fun _ _ => rfl
  have hout : v.out = [] := (congrArg (·.out) hv).trans <| (Work.pass_out u 1).trans (kept (·.out) fun _ _ => rfl)
  refine ⟨hstep, hout, ?_, ?_, ?_, fun hdue => ?_⟩
  · rw [hv, Work.pass_beat, hbeat]
  · rw [hv, Work.pass_time u 1 Nat.one_ne_zero, Dev.advance, htime, hcounting, hcrier]
    cases s.dev.counting <;> cases s.dev.crier.hold <;> simp [b2n]
  · rw [hv, Work.pass_crier u 1 Nat.one_ne_zero]
  · have hflits : v.idleFlits.dev.insts = v.dev.insts :=
      Work.idleFlits_keeps (fun w => w.dev.insts) (fun w p link fseq => w.sendFlit_insts p link fseq 0 []) v
    have hkept : v.idleFlits.dev.insts = s.dev.insts := hflits.trans (by rw [hv, Work.pass_insts, hinsts])
    have hstart : v.idleFlits.startOver = v.idleFlits := Work.startOver_of_none_due (by rwa [hkept])
    have hnil : v.idleFlits.out = [] := (Work.idleFlits_keeps (·.out) (fun w p link fseq => w.sendFlit_out p link fseq 0 []) v).trans hout
    rw [hstep, hstart, hnil]
    rfl

/-! ### A view reads what memory will hold -/

theorem look_dropRange {α : Type} (d : α) (lo hi k : Nat) (m : SMap α) :
    look d k (dropRange lo hi m) = if lo ≤ k ∧ k < hi then d else look d k m := by
  induction m with
  | nil => simp [dropRange, look]
  | cons e t ih =>
    obtain ⟨k', v⟩ := e
    rw [dropRange] at ih ⊢
    rw [List.filter_cons]
    by_cases hin : lo ≤ k' ∧ k' < hi
    · rw [if_neg (by simpa using hin), ih]
      by_cases hk : k' = k
      · subst hk
        rw [if_pos hin, if_pos hin]
      · simp only [look, hk, if_false]
    · rw [if_pos (by simp; omega)]
      simp only [look, ih]
      by_cases hk : k' = k
      · subst hk
        simp only [if_true, if_neg hin]
      · simp only [hk, if_false]

/-- One more write is read by the view as memory holds it. -/
theorem byteAfter_eq {m : Mem} (hm : Memory.wf m) (host : Bool) (a : Nat) (ws : List Write) :
    m.byteAfter host a ws = look 0 a (if host then (m.writeAll ws).host else (m.writeAll ws).cells) := by
  induction ws with
  | nil => rfl
  | cons x t ih =>
    have hwf := (Memory.wf_iff _).mp (Memory.wf_writeAll t hm)
    obtain ⟨hcells, -, -, hhost, -⟩ := hwf
    rw [Mem.writeAll_cons]
    cases x with
    | byte h a' v =>
      by_cases hsame : h = host ∧ a' = a
      · obtain ⟨rfl, rfl⟩ := hsame
        rw [Mem.byteAfter, if_pos ⟨rfl, rfl⟩]
        cases h
        · exact (look_put_self hcells).symm
        · exact (look_put_self hhost).symm
      · rw [Mem.byteAfter, if_neg hsame, ih]
        match h, host with
        | false, false => exact (look_put_of_ne fun e => hsame ⟨rfl, e.symm⟩).symm
        | true, true => exact (look_put_of_ne fun e => hsame ⟨rfl, e.symm⟩).symm
        | false, true => rfl
        | true, false => rfl
    | poison h g b => cases h <;> exact ih
    | dead g b => exact ih
    | clear lo hi => cases host <;> simp [Mem.byteAfter, Mem.write, ih, look_dropRange]

theorem poisonAfter_eq {m : Mem} (hm : Memory.wf m) (host : Bool) (g : Nat) (ws : List Write) :
    m.poisonAfter host g ws = look false g (if host then (m.writeAll ws).hostPoison else (m.writeAll ws).poison) := by
  induction ws with
  | nil => rfl
  | cons x t ih =>
    have hwf := (Memory.wf_iff _).mp (Memory.wf_writeAll t hm)
    obtain ⟨-, hpoison, -, -, hhost⟩ := hwf
    rw [Mem.writeAll_cons]
    cases x with
    | byte h a v => cases h <;> exact ih
    | poison h g' b =>
      by_cases hsame : h = host ∧ g' = g
      · obtain ⟨rfl, rfl⟩ := hsame
        rw [Mem.poisonAfter, if_pos ⟨rfl, rfl⟩]
        cases h
        · exact (look_put_self hpoison).symm
        · exact (look_put_self hhost).symm
      · rw [Mem.poisonAfter, if_neg hsame, ih]
        match h, host with
        | false, false => exact (look_put_of_ne fun e => hsame ⟨rfl, e.symm⟩).symm
        | true, true => exact (look_put_of_ne fun e => hsame ⟨rfl, e.symm⟩).symm
        | false, true => rfl
        | true, false => rfl
    | dead g' b => exact ih
    | clear lo hi => cases host <;> simp [Mem.poisonAfter, Mem.write, ih, look_dropRange]

theorem deadAfter_eq {m : Mem} (hm : Memory.wf m) (g : Nat) (ws : List Write) :
    m.deadAfter g ws = look false g (m.writeAll ws).dead := by
  induction ws with
  | nil => rfl
  | cons x t ih =>
    have hwf := (Memory.wf_iff _).mp (Memory.wf_writeAll t hm)
    obtain ⟨-, -, hdead, -, -⟩ := hwf
    rw [Mem.writeAll_cons]
    cases x with
    | byte h a v => cases h <;> exact ih
    | poison h g' b => cases h <;> exact ih
    | dead g' b =>
      by_cases hg : g' = g
      · subst hg
        simp [Mem.deadAfter, Mem.write, look_put_self hdead]
      · simp [Mem.deadAfter, Mem.write, ih, hg, look_put_of_ne (Ne.symm hg)]
    | clear lo hi => simp [Mem.deadAfter, Mem.write, ih, look_dropRange]

/-- Settles O5: by induction on the writes; each is read where it puts its value, and nowhere else. -/
theorem viewReadsWhatMemoryHolds : Obligations.ViewReadsWhatMemoryHolds := fun _ ws a h hm =>
  ⟨byteAfter_eq hm h a ws, poisonAfter_eq hm h a ws, deadAfter_eq hm a ws⟩

end Sys2Proof
end

section
/-! SUPPORT. The register map: every register of a page is found at its own offset. -/

namespace Sys2Proof

open Machine

/-! ### Pages (R397) -/

/-- Which page stands at an offset depends on its 4 KiB alone. -/
theorem pageAt_congr {off off' : Nat} (h : off / 0x1000 = off' / 0x1000) : pageAt off = pageAt off' := by
  simp only [pageAt, h]

/-- The base of a page of a full device is a multiple of 4 KiB, at which the page stands. -/
theorem pageAt_base : ∀ p ∈ allPages, p.base % 0x1000 = 0 ∧ pageAt p.base = some p := by decide +kernel

/-- A page of a full device occupies 4 KiB from its base. -/
theorem pageAt_base_add {p : Page} {k : Nat} (hp : p ∈ allPages) (hk : k < 0x1000) : pageAt (p.base + k) = some p := by
  obtain ⟨halign, hbase⟩ := pageAt_base p hp
  rw [← hbase]
  exact pageAt_congr (by omega)

/-! ### Registers of a page (R402, R122, the chapters' tables) -/

/-- Every copy of every register of a block's page lies inside the page, at a multiple of 4, and is what is found there. -/
def findsItsRegs (b : Block) : Bool :=
  (pageRegs b).all fun r => (List.range r.count).all fun i =>
    findReg (pageRegs b) (r.off + r.stride * i) == some (r, i) && decide (r.off + r.stride * i < 0x1000)
      && decide ((r.off + r.stride * i) % 4 = 0)

theorem findsItsRegs_all (b : Block) : findsItsRegs b = true := by
  cases b <;> decide +kernel

theorem findReg_self {b : Block} {r : Reg} {i : Nat} (hr : r ∈ pageRegs b) (hi : i < r.count) :
    findReg (pageRegs b) (r.off + r.stride * i) = some (r, i) ∧ r.off + r.stride * i < 0x1000
      ∧ (r.off + r.stride * i) % 4 = 0 := by
  have h := List.all_eq_true.mp (List.all_eq_true.mp (findsItsRegs_all b) r hr) i (List.mem_range.mpr hi)
  simpa [and_assoc] using h

/-- Settles O8: a page occupies the 4 KiB from its base, and within a page every copy of a register is found where it lies. -/
theorem registerMapHasNoOverlap : Obligations.RegisterMapHasNoOverlap := by
  intro p hp r hr i hi
  obtain ⟨hfind, hlt, halign⟩ := findReg_self hr hi
  have hbase := (pageAt_base p hp).1
  have hoff : (p.base + (r.off + r.stride * i)) % 0x1000 = r.off + r.stride * i := by omega
  rw [Nat.add_assoc]
  refine ⟨pageAt_base_add hp hlt, ?_, by omega⟩
  rw [hoff, hfind]

end Sys2Proof
end

section
/-! SUPPORT. Fields and bits of a word that is put together from parts (R8), and what an accepted write of one register runs to (R502). -/

namespace Sys2Proof

open Machine

/-! ### Words put together from parts -/

/-- Parts that lie on either side of bit `lo` add up. -/
theorem toNat_or_of_apart {u v : Word} (lo : Nat) (hu : u.toNat % 2 ^ lo = 0) (hv : v.toNat < 2 ^ lo) :
    (u ||| v).toNat = u.toNat + v.toNat := by
  have hsplit : u.toNat = 2 ^ lo * (u.toNat / 2 ^ lo) := (Nat.mul_div_cancel' (Nat.dvd_of_mod_eq_zero hu)).symm
  rw [BitVec.toNat_or, hsplit, Nat.two_pow_add_eq_or_of_lt hv]

theorem toNat_atBit (x lo : Nat) : (atBit x lo).toNat = x * 2 ^ lo % 2 ^ 32 := BitVec.toNat_ofNat ..

theorem bitOf_eq_decide (w : Word) (n : Nat) : bitOf w n = decide (w.toNat / 2 ^ n % 2 = 1) :=
  Nat.testBit_eq_decide_div_mod_eq

/-! ### Commands that write one register -/

/-- A command that writes one register, accepted, runs to what the register's effect answers. -/
theorem runs_poke {c : Instr} {s : State} {who : Agent} {p : Page} {id : RegId} {i : Nat} {v : Word} {fe : Bool} {x : Work}
    (hexec : exec c s = s.run (fun w => w.poke who (at_ p id i) v fe)) (hacc : Accepted s who p id i v)
    (heff : s.work.writeEffect p (regOf p id) i who v fe = .ok x) : Runs c s x := by
  have h := runs_iff _ hexec
  rwa [poke_ok hacc heff] at h

/-- And to the record of the rejection where the effect has none. -/
theorem runs_poke_error {c : Instr} {s : State} {who : Agent} {p : Page} {id : RegId} {i : Nat} {v : Word} {fe : Bool} {r : Rej}
    (hexec : exec c s = s.run (fun w => w.poke who (at_ p id i) v fe)) (hacc : Accepted s who p id i v)
    (heff : s.work.writeEffect p (regOf p id) i who v fe = .error r) : Runs c s (s.work.reject p who (at_ p id i % 0x1000) r) := by
  have h := runs_iff _ hexec
  rwa [poke_error hacc heff] at h

/-- A run whose view writes nothing leaves memory. -/
theorem runsTo_of_runs {c : Instr} {s : State} {w : Work} (h : Runs c s w) (hout : w.out = []) : RunsTo c s w.dev := by
  rw [Runs, hout] at h
  exact h

/-! ### REGISTER_WRITE of a whole DWORD (R395, R502) -/

theorem exec_registerWrite_whole {s : State} {who : Agent} {off : Nat} (v : Word) (hans : s.work.answers who = true)
    (halign : off % 4 = 0) (hbar : off + 4 ≤ 2 ^ 26) :
    exec (.registerWrite who 0 off 4 v.toNat 15) s = s.run (fun w => w.writeReg who off v) :=
  exec_registerWrite_bar0_dword v hans halign hbar (by decide)

/-- REGISTER_WRITE of a whole DWORD, accepted, runs to what the register's effect answers. -/
theorem runs_registerWrite_whole {s : State} {who : Agent} {p : Page} {id : RegId} {i : Nat} {v : Word} {x : Work}
    (hacc : Accepted s who p id i v) (halign : at_ p id i % 4 = 0) (hbar : at_ p id i + 4 ≤ 2 ^ 26)
    (heff : s.work.writeEffect p (regOf p id) i who v false = .ok x) :
    Runs (.registerWrite who 0 (at_ p id i) 4 v.toNat 15) s x := by
  have h := runs_iff _ (exec_registerWrite_whole v hacc.answers halign hbar)
  have hwrite := writeReg_of_accepted false hacc
  rw [heff] at hwrite
  rwa [hwrite] at h

/-- The effect of a write of a plain register, in range: its RW fields are stored (R12). -/
theorem writeEffect_of_plain {r : Reg} {w : Work} {v : Word} (hid : r.id ∈ plainRegisters)
    (hcluster : clusterRange w.variant r.id v = .ok ()) (hhub : hubRange r.id v = .ok ()) (p : Page) (i : Nat) (who : Agent) (fe : Bool) :
    w.writeEffect p r i who v fe = .ok (w.storeRw p r i v) := by
  have hplain : w.writeEffect p r i who v fe
      = (do (do clusterRange w.variant r.id v; hubRange r.id v); return w.storeRw p r i v) := by
    obtain ⟨id, off, count, stride, writer, fields⟩ := r
    change id ∈ plainRegisters at hid
    clear hcluster hhub
    repeat (obtain _ | ⟨_, hid⟩ := hid; · rfl)
    nomatch hid
  rw [hplain, hcluster, hhub]
  rfl

/-- Settles O9. -/
theorem plainRegisterWriteStores : Obligations.PlainRegisterWriteStores := by
  refine ⟨?_, ?_, ?_⟩
  · intro s who p id i v hid hacc hcluster hhub halign hbar
    have heff : s.work.writeEffect p (regOf p id) i who v false = .ok (s.work.storeRw p (regOf p id) i v) := by
      apply writeEffect_of_plain <;> rw [hacc.name] <;> assumption
    have hruns := runsTo_of_runs (runs_registerWrite_whole hacc halign hbar heff) rfl
    rwa [Work.storeRw, hacc.name] at hruns
  · intro s who v hacc hhub
    refine runs_registerWrite_whole hacc rfl (by decide) ?_
    change (do hubRange .crEpochPeriod v; return s.work.freeExpected.storeRw pgCr (regOf pgCr .crEpochPeriod) 0 v) = _
    rw [hhub]
    rfl
  · intro s who bar off value be hans halign hbar
    have hruns := runs_registerWrite value be s (.inr rfl) halign hbar
    rwa [registerWriteWork, if_pos hans, if_pos rfl] at hruns

/-! ### Rejected writes (R6, R406, R502) -/

/-- A write that a check refuses is the record of its rejection. -/
theorem writeReg_of_refused {w : Work} {who : Agent} {off : Nat} {v : Word} {part fe : Bool} {p : Page} {c : Rej}
    (hpage : pageAt off = some p) (hpresent : p.present w.variant = true) (honline : w.pageOffline (some p) = false)
    (hrefused : w.checkedWrite p who (off % 0x1000) v part fe = .error c) :
    w.writeReg who off v part fe = w.reject p who (off % 0x1000) c := by
  simp only [Work.writeReg, hpage, hpresent, honline, hrefused, Bool.false_eq_true, if_false, reduceCtorEq]

/-- R6: a write to the page of a unit that this variant lacks, or that none has, is recorded in the hub page. -/
theorem writeReg_of_absent {w : Work} {who : Agent} {off : Nat} {v : Word} {part fe : Bool}
    (habsent : ∀ p, pageAt off = some p → p.present w.variant = false) :
    w.writeReg who off v part fe = w.rejectHub who off .absent := by
  cases hpage : pageAt off with
  | none => exact writeReg_of_unoccupied hpage ..
  | some p => simp only [Work.writeReg, hpage, habsent p hpage, if_true]

/-- Settles O10: whatever check refuses the write, the record is all that the view gains. -/
theorem rejectedWriteIsRecordedOnly : Obligations.RejectedWriteIsRecordedOnly := by
  intro s who off v hans halign hbar
  have hruns := runs_iff _ (exec_registerWrite_whole v hans halign hbar)
  constructor
  · intro p c hpage hpresent honline hrefused
    rw [writeReg_of_refused hpage hpresent honline hrefused] at hruns
    have h := runsTo_of_runs hruns (reject_out ..)
    rwa [reject_dev, rejWord_pageOffset] at h
  · intro habsent
    rw [writeReg_of_absent habsent] at hruns
    have h := runsTo_of_runs hruns (rejectHub_out ..)
    rwa [rejectHub_dev] at h

end Sys2Proof
end

section
/-! SUPPORT. PAGE_CTL: reset, quiesce and enable of a page (R402). -/

namespace Sys2Proof

open Machine

theorem writeEffect_pageCtl {r : Reg} (hid : r.id = .pageCtl) (w : Work) (p : Page) (i : Nat) (who : Agent) (v : Word) (fe : Bool) :
    w.writeEffect p r i who v fe = w.writePageCtl p v := by
  cases r
  subst hid
  rfl

/-- RESET is taken while ENABLE is 0 before and in the write. -/
theorem writePageCtl_reset {w : Work} {p : Page} {v : Word} (hoff : w.rb p .pageCtl 0 = false) (hen : bitOf v 0 = false)
    (hreset : bitOf v 2 = true) : w.writePageCtl p v
      = .ok ((((((w.setReg p .pageCtl (v &&& 3)).resetRegs (p.base + 0x100) (p.base + 0x1000)).clearCounters p).setReg p .errStat 0).setReg
          p .errFirst 0).resetUnit p) := by
  rw [Work.rb] at hoff
  simp [Work.writePageCtl, hoff, hen, hreset]

/-- A write without RESET is stored, unless it clears ENABLE of a page that does not read QUIESCED. -/
theorem writePageCtl_store {w : Work} {p : Page} {v : Word} (hreset : bitOf v 2 = false)
    (hquiet : bitOf v 0 = true ∨ w.rb p .pageCtl 0 = false ∨ bitOf (w.pageStat p) 30 = true) :
    w.writePageCtl p v = .ok (w.setReg p .pageCtl (v &&& 3)) := by
  rw [Work.rb] at hquiet
  rw [Work.writePageCtl, if_neg (by simp [hreset]), if_neg (by rcases hquiet with h | h | h <;> simp [h])]
  simp [hreset]

/-- Another key reads as before, whatever an unlisted key is taken to read as. -/
theorem look_put_other {α : Type} [DecidableEq α] (d d' : α) {k j : Nat} (v : α) (h : j ≠ k) (m : SMap α) :
    look d j (put d' k v m) = look d j m := by
  induction m with
  | nil => rw [put]; split <;> simp [look, Ne.symm h]
  | cons e t ih =>
    obtain ⟨k', x⟩ := e
    rw [put]
    split
    · split <;> simp [look, Ne.symm h]
    · split
      case _ hk => subst hk; split <;> simp [look, Ne.symm h]
      case _ => rw [look, look, ih]

/-! ### What a page reset leaves of the registers -/

theorem resetUnit_regs (w : Work) (p : Page) : (w.resetUnit p).dev.regs = w.dev.regs := by
  unfold Work.resetUnit
  cases p.block <;> rfl

theorem resetUnit_out (w : Work) (p : Page) : (w.resetUnit p).out = w.out := by
  unfold Work.resetUnit
  cases p.block <;> rfl

/-- The registers after a page reset. -/
def resetPage (p : Page) (ctl : Word) (regs : SMap Word) : SMap Word :=
  put 0 (p.base + 0x28) 0 (put 0 (p.base + 0x20) 0
    (dropRange (p.base + 0x100) (p.base + 0x1000) (put 1 (p.base + 0x10) ctl regs)))

theorem look_resetPage_inside {p : Page} {k : Nat} (hlo : p.base + 0x100 ≤ k) (hhi : k < p.base + 0x1000) (ctl : Word)
    (regs : SMap Word) : look 0 k (resetPage p ctl regs) = 0 := by
  rw [resetPage, look_put_of_ne (by omega), look_put_of_ne (by omega), look_dropRange, if_pos ⟨hlo, hhi⟩]

theorem look_resetPage_outside {p : Page} {k : Nat} (h : k < p.base ∨ p.base + 0x1000 ≤ k) (d ctl : Word) (regs : SMap Word) :
    look d k (resetPage p ctl regs) = look d k regs := by
  rw [resetPage, look_put_other _ _ _ (by omega), look_put_other _ _ _ (by omega), look_dropRange, if_neg (by omega),
    look_put_other _ _ _ (by omega)]

/-! ### The written values -/

theorem resetBit_or (v : Word) : bitOf (v ||| 4) 2 = true ∧ bitOf (v ||| 4) 0 = bitOf v 0 ∧ (v ||| 4) &&& 3 = v &&& 3 := by
  refine ⟨by simp [bitOf], by simp [bitOf], ?_⟩
  rw [BitVec.and_comm, BitVec.and_or_distrib_left, BitVec.and_comm]
  exact BitVec.or_zero

theorem pageCtlWord (on en : Bool) : let v : Word := atBit (b2n on) 1 ||| atBit (b2n en) 0
    bitOf v 2 = false ∧ bitOf v 0 = en ∧ v &&& 3 = v := by
  cases on <;> cases en <;> decide

/-- Settles O11. -/
theorem pageControlCommands : Obligations.PageControlCommands := by
  intro s who p page hctl hoff
  constructor
  · intro value hacc hdisabled hen
    obtain ⟨hreset, hen', hstored⟩ := resetBit_or (BitVec.ofNat 32 value)
    have hexec : exec (.pageReset who page value) s = s.run (fun w => w.poke who (at_ p .pageCtl) (BitVec.ofNat 32 value ||| 4)) := by
      rw [← hoff]
      rfl
    have heff := (writeEffect_pageCtl hacc.name s.work p 0 who _ false).trans
      (writePageCtl_reset hdisabled (hen'.trans hen) hreset)
    rw [hstored] at heff
    have hruns := runs_poke hexec hacc heff
    have hout : ((((((s.work.setReg p .pageCtl (BitVec.ofNat 32 value &&& 3)).resetRegs (p.base + 0x100) (p.base + 0x1000)).clearCounters
        p).setReg p .errStat 0).setReg p .errFirst 0).resetUnit p).out = [] := resetUnit_out _ _
    refine ⟨hruns, _, runsTo_of_runs hruns hout, rfl, ?_, ?_⟩
    · intro k hlo hhi
      change look 0 k (Work.dev _).regs = 0
      rw [resetUnit_regs]
      exact look_resetPage_inside hlo hhi _ s.dev.regs
    · intro k hout d
      change look d k (Work.dev _).regs = _
      rw [resetUnit_regs]
      exact look_resetPage_outside hout d _ s.dev.regs
  · intro on en hacc hquiet
    obtain ⟨hreset, hen, hstored⟩ := pageCtlWord on en
    have heff := (writeEffect_pageCtl hacc.name s.work p 0 who _ false).trans
      (writePageCtl_store hreset (by rwa [hen]))
    rw [hstored] at heff
    constructor <;> refine runs_poke ?_ hacc heff <;> (rw [← hoff]; rfl)

end Sys2Proof
end

section
/-! SUPPORT. Doorbells and Q_RESET (R408, R409). -/

namespace Sys2Proof

open Machine

/-- A function that answers writes its own queue pages. -/
theorem pokeQueue_of_answers {w : Work} {fn queue : Nat} (hans : w.answers (.fn fn) = true) (hqueue : queue < 32) (off : Nat) (v : Word) :
    w.pokeQueue fn queue off v = w.writeQueue (32 * fn + queue) off v false := if_pos ⟨hans, hqueue⟩

/-- The row of the queue page that a doorbell writes. -/
def doorbellReg : Reg := reg1 .qDoorbell 0x000 .anyFn (full .wo)

/-- A write of Q_DOORBELL moves the tail, or is recorded in the queue's Q_REJ and counted. -/
theorem writeQueue_doorbell (w : Work) (q : Nat) (v : Word) : w.writeQueue q 0 v false
    = match w.doorbell q v with
      | .ok x => x
      | .error c => (w.setQreg q .qRej (rejWord 0 c)).count pgPx 2 := by
  have hfind : findReg queueRegs 0 = some (doorbellReg, 0) := by decide
  have hreserved : v &&& doorbellReg.reserved = 0 := (congrArg (v &&& ·) (by decide : doorbellReg.reserved = 0)).trans BitVec.and_zero
  have heff : w.queueEffect q doorbellReg.id v = w.doorbell q v := rfl
  simp only [Work.writeQueue, hfind, hreserved, heff]
  rw [if_neg (by decide), if_neg (by decide), if_neg (by decide)]
  cases w.doorbell q v <;> rfl

theorem doorbell_of_in_ring {w : Work} {q : Nat} {t : Word} (hservice : w.inService = true) (hen : bitOf (w.qreg q .qCfg) 31 = true)
    (hbehind : 0 ≤ serialDiff t.toNat (w.qreg q .qTail).toNat)
    (hahead : serialDiff t.toNat (w.qreg q .qHead).toNat ≤ (2 ^ fld (w.qreg q .qCfg) 4 0 : Nat)) :
    w.doorbell q t = .ok ((w.count pgPx 1).setQreg q .qTail t) := by
  rw [Work.doorbell, if_neg (by simp [hservice, hen]), if_neg (by omega)]

theorem doorbell_of_outside_ring {w : Work} {q : Nat} {t : Word} (hservice : w.inService = true) (hen : bitOf (w.qreg q .qCfg) 31 = true)
    (hout : serialDiff t.toNat (w.qreg q .qTail).toNat < 0
      ∨ (2 ^ fld (w.qreg q .qCfg) 4 0 : Nat) < serialDiff t.toNat (w.qreg q .qHead).toNat) :
    w.doorbell q t = .error .range := by
  rw [Work.doorbell, if_neg (by simp [hservice, hen]), if_pos hout]

theorem doorbell_of_disabled {w : Work} {q : Nat} (t : Word) (h : w.inService = false ∨ bitOf (w.qreg q .qCfg) 31 = false) :
    w.doorbell q t = .error .state := if_pos h

/-- The row of the queue page that Q_RESET writes. -/
def resetReg : Reg := reg1 .qReset 0x028 .anyFn [fw1s 0]

/-- Q_RESET of a disabled queue with nothing in admission sets HEAD and TAIL to 0. -/
theorem writeQueue_reset {w : Work} {q : Nat} (hdisabled : bitOf (w.qreg q .qCfg) 31 = false) (hidle : w.qBusy q = false) :
    w.writeQueue q 0x028 1 false = (w.setQreg q .qHead 0).setQreg q .qTail 0 := by
  have hfind : findReg queueRegs 0x028 = some (resetReg, 0) := by decide
  have heff : w.queueEffect q resetReg.id 1 = .ok ((w.setQreg q .qHead 0).setQreg q .qTail 0) := by
    change (if bitOf (1 : Word) 0 then (do
      need (!bitOf (w.qreg q .qCfg) 31 && !w.qBusy q) .state
      return (w.setQreg q .qHead 0).setQreg q .qTail 0) else return w) = _
    rw [if_pos (by decide), hdisabled, hidle]
    rfl
  simp only [Work.writeQueue, hfind, heff]
  rw [if_neg (by decide), if_neg (by decide), if_neg (by decide)]

/-- Settles O12. -/
theorem doorbellMovesTail : Obligations.DoorbellMovesTail := by
  intro s fn queue hans hqueue
  have hbell (tail : Nat) := runs_iff (doorbellWork fn queue tail) (i := .doorbell fn queue tail) (s := s) rfl
  simp only [doorbellWork, pokeQueue_of_answers hans hqueue, writeQueue_doorbell] at hbell
  refine ⟨?_, ?_, ?_, ?_⟩
  · intro tail hservice hen hbehind hahead
    have h := hbell tail
    rwa [doorbell_of_in_ring hservice hen hbehind hahead] at h
  · intro tail hservice hen hout
    have h := hbell tail
    rwa [doorbell_of_outside_ring hservice hen hout] at h
  · intro tail hoff
    have h := hbell tail
    rwa [doorbell_of_disabled _ hoff] at h
  · intro hdisabled hidle
    have h := runs_iff (qResetWork fn queue) (i := .qReset fn queue) (s := s) rfl
    rwa [qResetWork, pokeQueue_of_answers hans hqueue, writeQueue_reset hdisabled hidle] at h

end Sys2Proof
end

section
/-! SUPPORT. What a Deal slot's operations do (R83, R84). -/

namespace Sys2Proof

open Machine

/-! ### OPEN and ABANDON -/

theorem writeEffect_dlCtl (w : Work) (k : Nat) (who : Agent) (v : Word) (fe : Bool) :
    w.writeEffect pgDl (regOf pgDl .dlCtl) k who v fe = w.dealOp k (fld v 2 0) (Agent.thread who) (bitOf v 3) (bitOf v 4) := rfl

/-- The slot that OPEN leaves. -/
def openedDeal (thread : Nat) (x : DealSlot) : DealSlot :=
  { x with state := .opened, outcome := 0, code := 0, index := 0, staged := [], words := [], late := false, thread := thread }

theorem dealOp_open {w : Work} {k : Nat} (hidle : (w.deal_ k).state = .idle) (thread : Nat) (a l : Bool) :
    w.dealOp k 1 thread a l = .ok (w.setDeal k (openedDeal thread)) := by
  rw [Work.dealOp, if_neg (by decide), if_pos rfl, if_neg (by simp [hidle])]
  rfl

theorem dealOp_abandon {w : Work} {k : Nat} (hopen : (w.deal_ k).state = .opened) (thread : Nat) (a l : Bool) :
    w.dealOp k 3 thread a l = .ok (w.closeDeal k 5 0 0) := by
  rw [Work.dealOp, if_neg (by decide), if_neg (by decide), if_neg (by simp [hopen]), if_pos rfl]

theorem runs_dealOpen {s : State} {who : Agent} {k : Nat} (hacc : Accepted s who pgDl .dlCtl k 1)
    (hidle : (s.work.deal_ k).state = .idle) : Runs (.dealOpen who k) s (s.work.setDeal k (openedDeal (Agent.thread who))) :=
  runs_poke rfl hacc ((writeEffect_dlCtl ..).trans (dealOp_open hidle ..))

theorem runs_dealAbandon {s : State} {who : Agent} {k : Nat} (hacc : Accepted s who pgDl .dlCtl k 3)
    (hopen : (s.work.deal_ k).state = .opened) : Runs (.dealAbandon who k) s (s.work.closeDeal k 5 0 0) :=
  runs_poke rfl hacc ((writeEffect_dlCtl ..).trans (dealOp_abandon hopen ..))

/-! ### Staging -/

/-- No other slot that is open or committing has the register staged. -/
def StagedNowhereElse (d : Dev) (k off : Nat) : Prop :=
  ∀ j y, d.deals[j]? = some y → j ≠ k → y.state ≠ .idle → ∀ e ∈ y.staged, e.1 ≠ off

theorem not_stagedElsewhere {d : Dev} {k off : Nat} (h : StagedNowhereElse d k off) :
    (d.deals.mapIdx (fun i y => decide (i ≠ k) && decide (y.state ≠ .idle) && y.staged.any (fun e => e.1 == off))).any id = false := by
  rw [List.any_eq_false]
  intro b hb hstaged
  obtain ⟨i, hi, hb⟩ := List.mem_mapIdx.mp hb
  simp only [id] at hstaged
  rw [hstaged] at hb
  simp only [Bool.and_eq_true, decide_eq_true_eq, List.any_eq_true, beq_iff_eq] at hb
  obtain ⟨⟨hne, hstate⟩, e, he, hoff⟩ := hb
  exact h i _ (List.getElem?_eq_getElem hi) hne hstate e he hoff

section
variable {w : Work} {k off : Nat} (hopen : (w.deal_ k).state = .opened) (helse : StagedNowhereElse w.dev k off)
include hopen helse

theorem stage_new (v : Word) (hnew : ∀ e ∈ (w.deal_ k).staged, e.1 ≠ off) (hroom : (w.deal_ k).staged.length < 64) :
    w.stage k off v = .ok (w.setDeal k (fun x => { x with staged := x.staged ++ [(off, v)] })) := by
  have hany : (w.deal_ k).staged.any (fun e => e.1 == off) = false := by simpa using hnew
  rw [Work.stage, if_neg (by simp [hopen]), if_neg (by simp [hopen]), not_stagedElsewhere helse, if_neg (by decide), hany,
    if_neg (by decide), if_neg (by omega)]

theorem stage_again (v : Word) (hstaged : ∃ e ∈ (w.deal_ k).staged, e.1 = off) :
    w.stage k off v
      = .ok (w.setDeal k (fun x => { x with staged := x.staged.map (fun e => if e.1 = off then (off, v) else e) })) := by
  have hany : (w.deal_ k).staged.any (fun e => e.1 == off) = true := by simpa using hstaged
  rw [Work.stage, if_neg (by simp [hopen]), if_neg (by simp [hopen]), not_stagedElsewhere helse, if_neg (by decide), hany, if_pos rfl]

end

/-- The registers that a Deal stages (R82). -/
def rwdRegisters : List RegId := [.ttPitch, .ttXlateLo, .ttXlateHi]

theorem at_rwd_aligned {id : RegId} (hid : id ∈ rwdRegisters) (n : Nat) : at_ pgTt id n / 4 * 4 = at_ pgTt id n := by
  obtain _ | ⟨_, _ | ⟨_, _ | ⟨_, h⟩⟩⟩ := hid
  · change (0x1000 + 0x180 + 4 * n) / 4 * 4 = 0x1000 + 0x180 + 4 * n
    omega
  · change (0x1000 + 0x200 + 8 * n) / 4 * 4 = 0x1000 + 0x200 + 8 * n
    omega
  · change (0x1000 + 0x204 + 8 * n) / 4 * 4 = 0x1000 + 0x204 + 8 * n
    omega
  · nomatch h

theorem writeEffect_rwd {id : RegId} (hid : id ∈ rwdRegisters) {v : Word} (hrange : id = .ttPitch → pitchRange v = true)
    (w : Work) (n : Nat) (who : Agent) (fe : Bool) :
    w.writeEffect pgTt (regOf pgTt id) n who v fe = w.stage (Agent.slot who) (at_ pgTt id n) v := by
  obtain _ | ⟨_, _ | ⟨_, _ | ⟨_, h⟩⟩⟩ := hid
  · change (do need (pitchRange v) .range; w.stage (Agent.slot who) (at_ pgTt .ttPitch n) v) = _
    rw [hrange rfl]
    rfl
  · rfl
  · rfl
  · nomatch h

theorem runs_rwdStage {s : State} {who : Agent} {id : RegId} {n value : Nat} {x : Work} (hid : id ∈ rwdRegisters)
    (hacc : Accepted s who pgTt id n (BitVec.ofNat 32 value)) (hrange : id = .ttPitch → pitchRange (BitVec.ofNat 32 value) = true)
    (hstage : s.work.stage (Agent.slot who) (at_ pgTt id n) (BitVec.ofNat 32 value) = .ok x) :
    Runs (.rwdStage who (at_ pgTt id n) value) s x := by
  refine runs_poke (?_ : _ = s.run fun w => w.poke who (at_ pgTt id n) (BitVec.ofNat 32 value)) hacc ((writeEffect_rwd hid hrange ..).trans hstage)
  change s.run (fun w => w.poke who (at_ pgTt id n / 4 * 4) (BitVec.ofNat 32 value)) = _
  rw [at_rwd_aligned hid]

/-! ### PUSH -/

theorem dirCtlWord (cmp low wr : Bool) : let v : Word := 1 ||| atBit (b2n cmp) 1 ||| atBit (b2n low) 2 ||| atBit (b2n wr) 3
    bitOf v 0 = true ∧ bitOf v 1 = cmp ∧ bitOf v 2 = low ∧ bitOf v 3 = wr := by
  cases cmp <;> cases low <;> cases wr <;> decide

theorem writeEffect_dlDirCtl (w : Work) (k : Nat) (who : Agent) (v : Word) (fe : Bool) :
    w.writeEffect pgDl (regOf pgDl .dlDirCtl) k who v fe
      = if bitOf v 0 then w.dirPush k (bitOf v 1) (bitOf v 2) (bitOf v 3) else .ok w := rfl

/-- The word that a push appends or replaces, its values read once its address has been translated. -/
def pushedWord (w : Work) (k va : Nat) (cmp low wr : Bool) : DirWord :=
  { va := va, expect := dword (w.slotPair .dlDirExpectLo .dlDirExpectHi k), data := dword (w.slotPair .dlDirDataLo .dlDirDataHi k),
    compare := cmp, low32 := low, write := wr }

section
variable {w v : Work} {k va : Nat} {cmp low wr : Bool} (hva : w.slotPair .dlDirAddrLo .dlDirAddrHi k = va)
  (hopen : (w.deal_ k).state = .opened) (halign : va % 8 = 0) (hused : cmp = true ∨ wr = true)
  (hsram : w.wordAt (slotCtx k) va = (.sram, v))
include hva hopen halign hused hsram

theorem dirPush_new (hnew : ∀ y ∈ (w.deal_ k).words, y.va ≠ va) (hroom : (w.deal_ k).words.length < 32) :
    w.dirPush k cmp low wr = .ok (v.setDeal k (fun x => { x with words := x.words ++ [pushedWord v k va cmp low wr] })) := by
  have hany : (w.deal_ k).words.any (fun y => y.va == va) = false := by simpa using hnew
  rw [Work.dirPush, hva, if_neg (by simp [hopen]), if_neg (by simp [hopen]), if_neg (by simp [halign]),
    if_neg (by rcases hused with h | h <;> simp [h]), hsram]
  simp only [hany, Bool.false_eq_true, if_false]
  rw [if_neg (by omega)]
  rfl

theorem dirPush_again (hpushed : ∃ y ∈ (w.deal_ k).words, y.va = va) :
    w.dirPush k cmp low wr = .ok (v.setDeal k (fun x => { x with
      words := x.words.map (fun y => if y.va = va then pushedWord v k va cmp low wr else y) })) := by
  have hany : (w.deal_ k).words.any (fun y => y.va == va) = true := by simpa using hpushed
  rw [Work.dirPush, hva, if_neg (by simp [hopen]), if_neg (by simp [hopen]), if_neg (by simp [halign]),
    if_neg (by rcases hused with h | h <;> simp [h]), hsram]
  simp only [hany, if_true]
  rfl

end

theorem runs_dirPush {s : State} {who : Agent} {k : Nat} {cmp low wr : Bool} {x : Work}
    (hacc : Accepted s who pgDl .dlDirCtl k (1 ||| atBit (b2n cmp) 1 ||| atBit (b2n low) 2 ||| atBit (b2n wr) 3))
    (hpush : s.work.dirPush k cmp low wr = .ok x) : Runs (.dirPush who k cmp low wr) s x := by
  refine runs_poke rfl hacc ?_
  obtain ⟨hgo, hcmp, hlow, hwr⟩ := dirCtlWord cmp low wr
  rw [writeEffect_dlDirCtl, if_pos hgo, hcmp, hlow, hwr, hpush]

/-- Settles O13: each operation comes down to what its slot takes while IDLE or OPEN. -/
theorem dealOpensStagesAndCloses : Obligations.DealOpensStagesAndCloses := by
  refine ⟨⟨?_, ?_, ?_⟩, ?_⟩
  · intro s who k hacc hidle
    exact runs_dealOpen hacc hidle
  · intro s who id n value hid _ hacc hrange hopen helse
    constructor
    · intro hnew hroom
      exact runs_rwdStage hid hacc hrange (stage_new hopen helse _ hnew hroom)
    · intro hstaged
      exact runs_rwdStage hid hacc hrange (stage_again hopen helse _ hstaged)
  · intro s who k hacc hopen
    exact runsTo_of_runs (runs_dealAbandon hacc hopen) rfl
  · intro s who k cmp low wr hacc va
    generalize hword : s.work.wordAt (slotCtx k) va = r
    obtain ⟨a, v⟩ := r
    intro w e hopen halign hused hsram
    obtain rfl : a = .sram := hsram
    constructor
    · intro hnew hroom
      exact runs_dirPush hacc (dirPush_new rfl hopen halign hused hword hnew hroom)
    · intro hpushed
      exact runs_dirPush hacc (dirPush_again rfl hopen halign hused hword hpushed)

end Sys2Proof
end

section
/-! SUPPORT. What an access of memory can change (R41, R55 to R58, R345 to R349, R416): the registers, counters, records and messages of
the errors it meets, the entries that are held, the free values it draws and its own writes; no task, unit, Deal or port. -/

namespace Sys2Proof.Machine

/-- A view equals another but for the parts that an access of memory may change. -/
def Work.accessed (w v : Work) : Work :=
  { w with
    out := v.out
    dev := { w.dev with
      regs := v.dev.regs, ctrs := v.dev.ctrs, msixPend := v.dev.msixPend, sent := v.dev.sent, cores := v.dev.cores,
      stock := v.dev.stock, free := v.dev.free, xheld := v.dev.xheld, ceCounts := v.dev.ceCounts, ueBeats := v.dev.ueBeats,
      broken := v.dev.broken } }

/-- `v` comes from `w` by accesses of memory. -/
def Accessed (w v : Work) : Prop := v = w.accessed v

namespace Accessed

theorem refl (w : Work) : Accessed w w := rfl

theorem trans {w v x : Work} (h : Accessed w v) (h' : Accessed v x) : Accessed w x := by
  rw [Accessed] at h h' ⊢
  rw [h', h]
  rfl

theorem of_recordedS {w v : Work} (h : v = w.recordedS v) : Accessed w v := by
  rw [Accessed, h]
  rfl

theorem of_recorded {w v : Work} (h : v = w.recorded v) : Accessed w v :=
  of_recordedS (Work.recordedS_of (Work.recordedC_of h))

theorem count (w : Work) (p : Page) (k n : Nat) : Accessed w (w.count p k n) := of_recorded (Work.count_eq ..)
theorem raise (w : Work) (p : Page) (e : Err) (a : ErrArgs) : Accessed w (w.raise p e a) := of_recordedS (Work.raise_eq ..)
theorem setReg (w : Work) (p : Page) (id : RegId) (x : Word) (i : Nat) : Accessed w (w.setReg p id x i) := rfl
theorem setRf (w : Work) (p : Page) (id : RegId) (hi lo x i : Nat) : Accessed w (w.setRf p id hi lo x i) := rfl
theorem emit (w : Work) (l : List Write) : Accessed w (w.emit l) := rfl
theorem draw (w : Work) : Accessed w w.draw.2 := rfl

theorem setXheld (w : Work) (l : Dev → SMap (List Nat)) : Accessed w (w.upd (fun d => { d with xheld := l d })) := rfl
theorem setUeBeats (w : Work) (l : Dev → SMap (List Nat)) : Accessed w (w.upd (fun d => { d with ueBeats := l d })) := rfl

theorem whenB {w : Work} {c : Bool} {f : Work → Work} (h : ∀ w, Accessed w (f w)) : Accessed w (w.whenB c f) := by
  cases c
  · exact refl w
  · exact h w

theorem each {α : Type} {f : α → Work → Work} (h : ∀ x w, Accessed w (f x w)) (l : List α) (w : Work) : Accessed w (w.each l f) := by
  induction l generalizing w with
  | nil => exact refl w
  | cons x t ih => exact (h x w).trans (ih (f x w))

/-- A fold that carries a view along with what it gathers. -/
theorem foldl {α γ : Type} {f : γ × Work → α → γ × Work} (h : ∀ acc x, Accessed acc.2 (f acc x).2) (l : List α) (acc : γ × Work) :
    Accessed acc.2 (l.foldl f acc).2 := by
  induction l generalizing acc with
  | nil => exact refl _
  | cons x t ih => exact (h acc x).trans (ih (f acc x))

/-! ### What stays -/

section
variable {w v : Work} (h : Accessed w v)
include h

theorem variant : v.variant = w.variant := by rw [h]; rfl
theorem mem : v.mem = w.mem := by rw [h]; rfl
theorem beat : v.dev.beat = w.dev.beat := by rw [h]; rfl
theorem time : v.dev.time = w.dev.time := by rw [h]; rfl
theorem graphs : v.dev.graphs = w.dev.graphs := by rw [h]; rfl
theorem admissions : v.dev.admissions = w.dev.admissions := by rw [h]; rfl
theorem insts : v.dev.insts = w.dev.insts := by rw [h]; rfl
theorem clusters : v.dev.clusters = w.dev.clusters := by rw [h]; rfl
theorem fetches : v.dev.fetches = w.dev.fetches := by rw [h]; rfl
theorem migs : v.dev.migs = w.dev.migs := by rw [h]; rfl
theorem deals : v.dev.deals = w.dev.deals := by rw [h]; rfl
theorem due : v.dev.due = w.dev.due := by rw [h]; rfl
theorem sync : v.dev.sync = w.dev.sync := by rw [h]; rfl
theorem ports : v.dev.ports = w.dev.ports := by rw [h]; rfl

end

end Accessed

/-! ### Errors in the cells (R345 to R349) -/

theorem Work.failMem_accessed (w : Work) (ctl : Page) : Accessed w (w.failMem ctl) :=
  .trans (v := (w.setRf ctl .hmStat 28 28 1).upd (fun d => { d with broken := d.broken ++ [ctl] })) rfl (.raise ..)

theorem Work.noteUe_accessed (w : Work) (ctl : Page) : Accessed w (w.noteUe ctl) := by
  unfold Work.noteUe
  extract_lets
  split
  · exact (Accessed.setUeBeats ..).trans (Work.failMem_accessed ..)
  · exact .setUeBeats ..

theorem Work.raiseUe_accessed (w : Work) (ctl : Page) (key : Nat) (r : Reader) : Accessed w (w.raiseUe ctl key r) :=
  ((((Accessed.setReg ..).trans (.setReg ..)).trans (.count ..)).trans (.raise ..)).trans (Work.noteUe_accessed ..)

theorem Work.readCells_accessed (w : Work) (ctl : Page) (key n : Nat) (r : Reader) : Accessed w (w.readCells ctl key n r).2 := by
  rw [Work.readCells]
  dsimp only
  split
  · exact .refl w
  · split
    · split
      · exact Work.raiseUe_accessed ..
      · exact ((Accessed.count ..).trans (.raise ..)).trans (.emit ..)
    · exact .refl w

theorem Work.writeCells_accessed (w : Work) (ctl : Page) (key : Nat) (l : List PByte) : Accessed w (w.writeCells ctl key l) := by
  rw [Work.writeCells]
  dsimp only
  split
  · exact .refl w
  · exact (Accessed.whenB fun w => .count w ..).trans (.emit ..)

/-! ### Device memory (R41) -/

theorem Work.chargeGranules_accessed (w : Work) (k : Nat) (ps : List (Nat × Nat)) : Accessed w (w.chargeGranules k ps) := by
  refine .each (fun (lo, len) w => ?_) _ w
  dsimp only
  split
  · exact .whenB fun w => .count w ..
  · exact .refl w

theorem Work.chargeFloor_accessed (w : Work) (k : Nat) (ps : List (Nat × Nat)) : Accessed w (w.chargeFloor k ps) := by
  refine .each (fun (lo, len) w => ?_) _ w
  dsimp only
  split
  · exact .whenB fun w => .count w ..
  · exact .refl w

theorem Work.charge_accessed (w : Work) (k : Nat) (ps : List (Nat × Nat)) : Accessed w (w.charge k ps) :=
  (Work.chargeGranules_accessed ..).trans (Work.chargeFloor_accessed ..)

theorem Work.readPart_accessed (w : Work) (a n : Nat) (r : Reader) : Accessed w (w.readPart a n r).2 := by
  refine Accessed.foldl (fun (l, w) (lo, len) => ?_) _ ([], w)
  dsimp only
  split
  · exact Work.readCells_accessed ..
  · exact .refl w

theorem Work.readPhys_accessed (w : Work) (a n : Nat) (r : Reader) : Accessed w (w.readPhys a n r).2 :=
  (Work.charge_accessed ..).trans (Work.readPart_accessed ..)

theorem Work.writePart_accessed (w : Work) (a : Nat) (l : List PByte) : Accessed w (w.writePart a l) := by
  refine .each (fun (lo, len) w => ?_) _ w
  dsimp only
  split
  · exact Work.writeCells_accessed ..
  · exact .refl w

/-! ### Host memory (R416) -/

theorem Work.writeHost_accessed (w : Work) (a : Nat) (l : List PByte) : Accessed w (w.writeHost a l) := by
  rw [Work.writeHost]
  split
  · exact .refl w
  · exact .each (fun _ _ => .emit ..) _ w

/-! ### Translation (R55 to R58) -/

theorem Work.entryNow_accessed (w : Work) (a : Nat) (r : Reader) : Accessed w (w.entryNow a r).2 := by
  rw [Work.entryNow]
  split
  · dsimp only
    split <;> exact Work.readCells_accessed ..
  · exact .refl w

theorem Work.cachedEntry_accessed (w : Work) (held : List Nat) {now : Work → Option Nat × Work} (h : ∀ w, Accessed w (now w).2) :
    Accessed w (w.cachedEntry held now).2 := by
  rw [Work.cachedEntry]
  dsimp only
  split
  · exact h w
  · split
    · exact .draw w
    · exact (Accessed.draw w).trans (h _)

theorem Work.readEntry_accessed (w : Work) (ctx a : Nat) (r : Reader) : Accessed w (w.readEntry ctx a r).2 := by
  have h := w.cachedEntry_accessed (look [] ((ctx * 2 ^ 32 + r.who) * 2 ^ 48 + a) w.dev.xheld) fun w => w.entryNow_accessed a r
  unfold Work.readEntry
  extract_lets key held
  change Accessed w (w.cachedEntry held _).2 at h
  generalize w.cachedEntry held _ = x at h ⊢
  obtain ⟨⟨v, isNew⟩, x⟩ := x
  dsimp only at h ⊢
  refine h.trans (Accessed.whenB ?_)
  intro w
  exact .setXheld ..

theorem Work.translate_accessed (w : Work) (ctx va : Nat) (write : Bool) (r : Reader) : Accessed w (w.translate ctx va write r).2 := by
  rw [Work.translate]
  dsimp only
  split
  · exact .refl w
  · have h1 := w.readEntry_accessed ctx (fld (w.reg pgTt .ttXlateLo ctx) 31 17 * 2 ^ 17 + w.rf pgTt .ttXlateHi 15 0 ctx * 2 ^ 32
      + va / 2 ^ 30 * 8) r
    generalize w.readEntry ctx _ r = e1 at h1 ⊢
    obtain ⟨e1, v⟩ := e1
    dsimp only at h1 ⊢
    split
    · exact h1
    · split
      · exact h1
      · split
        · split <;> exact h1
        · split
          · exact h1
          · rename_i e _ _ _
            refine h1.trans ?_
            have h2 := v.readEntry_accessed ctx (e.addr + va / 2 ^ 21 % 512 * 8) r
            generalize v.readEntry ctx (e.addr + va / 2 ^ 21 % 512 * 8) r = e2 at h2 ⊢
            obtain ⟨e2, x⟩ := e2
            dsimp only at h2 ⊢
            split
            · exact h2
            · split <;> exact h2

theorem Work.translateRange_accessed (w : Work) (ctx va n : Nat) (write : Bool) (r : Reader) :
    Accessed w (w.translateRange ctx va n write r).2 := by
  apply Accessed.foldl (acc := (Except.ok [], w))
  rintro ⟨_ | l, w⟩ ⟨lo, len⟩
  · exact .refl w
  · have h := w.translate_accessed ctx lo write r
    dsimp only
    generalize w.translate ctx lo write r = t at h ⊢
    obtain ⟨_ | (a | a), v⟩ := t
    · exact h
    · dsimp only
      split <;> exact h
    · exact h

theorem Work.writeTargets_accessed (w : Work) (ps : List (Target × Nat × Nat)) (va : Nat) (l : List PByte) :
    Accessed w (w.writeTargets ps va l) := by
  refine .each (fun (t, lo, len) w => ?_) _ w
  cases t with
  | dev a => exact Work.writePart_accessed ..
  | host a => exact Work.writeHost_accessed ..

theorem Work.writeVa_accessed (w : Work) (ctx va : Nat) (l : List PByte) (r : Reader) : Accessed w (w.writeVa ctx va l r).2 := by
  have h := w.translateRange_accessed ctx va l.length true r
  rw [Work.writeVa]
  generalize w.translateRange ctx va l.length true r = x at h ⊢
  obtain ⟨_ | ps, v⟩ := x
  · exact h
  · exact (h.trans (Work.charge_accessed ..)).trans (Work.writeTargets_accessed ..)

end Sys2Proof.Machine
end

section
/-! SUPPORT. COMMIT, and the beat on which one due Deal commits (R65, R84, R85, R87). -/

namespace Sys2Proof

open Machine

/-! ### A list with one element replaced -/

theorem Machine.getElem?_updAt {α : Type} (f : α → α) : ∀ (n k : Nat) (l : List α),
    (updAt f n l)[k]? = if n = k then l[k]?.map f else l[k]?
  | _, _, [] => by simp [updAt]
  | 0, 0, x :: t => rfl
  | 0, k + 1, x :: t => rfl
  | n + 1, 0, x :: t => rfl
  | n + 1, k + 1, x :: t => by simp [updAt, getElem?_updAt f n k t]

/-- What the replacement keeps of an element is kept everywhere. -/
theorem Machine.getD_updAt_keeps {α β : Type} (g : α → β) {f : α → α} (h : ∀ x, g (f x) = g x) (n k : Nat) (l : List α) (d : α) :
    g ((updAt f n l).getD k d) = g (l.getD k d) := by
  rw [List.getD_eq_getElem?_getD, List.getD_eq_getElem?_getD, getElem?_updAt]
  split
  · cases l[k]? <;> simp [h]
  · rfl

theorem Machine.getD_updAt_self {α : Type} (f : α → α) {k : Nat} {l : List α} (hk : k < l.length) (d : α) :
    (updAt f k l).getD k d = f (l.getD k d) := by
  simp [List.getD_eq_getElem?_getD, getElem?_updAt, hk]

/-! ### COMMIT (R84, R85) -/

/-- The slot that COMMIT leaves. -/
def committingDeal (due : Nat) (at_ : Option Nat) (lateFail late : Bool) (x : DealSlot) : DealSlot :=
  { x with state := .committing, due := due, at_ := at_, lateFail := lateFail, late := late }

/-- The beat on which the validation of a slot's entries ends. -/
def validationEnds (w : Work) (k : Nat) : Nat :=
  w.dev.beat + 4 + ceilDiv ((w.deal_ k).staged.length + (w.deal_ k).words.length) 8

/-- The time in a slot's AT registers, rounded up to a beat. -/
def atTicks (w : Work) (k : Nat) : Nat :=
  roundUp ((w.reg pgDl .dlAtLo k).toNat + (w.reg pgDl .dlAtHi k).toNat * 2 ^ 32) 4

theorem dealOp_commit_now {w : Work} {k : Nat} (hopen : (w.deal_ k).state = .opened) (thread : Nat) (lateFail : Bool) :
    w.dealOp k 2 thread false lateFail = .ok ((w.setDeal k (committingDeal (validationEnds w k + 1) none lateFail false)).dealDue
      (validationEnds w k + 1) (.slotted k) []) := by
  rw [Work.dealOp, if_neg (by decide), if_neg (by decide), if_neg (by simp [hopen]), if_neg (by decide)]
  rfl

theorem dealOp_commit_at {w : Work} {k : Nat} (hopen : (w.deal_ k).state = .opened) (hcount : w.dev.counting = true)
    (thread : Nat) (lateFail : Bool) :
    let b := w.dev.beat + w.beatsTo (atTicks w k)
    let late := decide (b ≤ validationEnds w k) || decide (atTicks w k < w.dev.time)
    let due := if late then validationEnds w k + 1 else b
    w.dealOp k 2 thread true lateFail
      = .ok ((w.setDeal k (committingDeal due (some b) lateFail late)).dealDue due (.slotted k) []) := by
  intro b late due
  rw [Work.dealOp, if_neg (by decide), if_neg (by decide), if_neg (by simp [hopen]), if_neg (by decide), hcount]
  change Except.ok ((w.setDeal k (committingDeal (if (true && !late) = true then b else validationEnds w k + 1) (some b) lateFail late)).dealDue
    (if (true && !late) = true then b else validationEnds w k + 1) (.slotted k) []) = _
  cases hlate : late <;> simp [due, hlate]

theorem commitWord (atTime lateFail : Bool) : let v : Word := 2 ||| atBit (b2n atTime) 3 ||| atBit (b2n lateFail) 4
    fld v 2 0 = 2 ∧ bitOf v 3 = atTime ∧ bitOf v 4 = lateFail := by
  cases atTime <;> cases lateFail <;> decide

theorem runs_dealCommit {s : State} {who : Agent} {k : Nat} {atTime lateFail : Bool} {x : Work}
    (hacc : Accepted s who pgDl .dlCtl k (2 ||| atBit (b2n atTime) 3 ||| atBit (b2n lateFail) 4))
    (hop : s.work.dealOp k 2 (Agent.thread who) atTime lateFail = .ok x) : Runs (.dealCommit who k atTime lateFail) s x := by
  obtain ⟨hcode, hat, hfail⟩ := commitWord atTime lateFail
  refine runs_poke rfl hacc ((writeEffect_dlCtl ..).trans ?_)
  rw [hcode, hat, hfail, hop]

/-! ### The commit beat (R87) -/

theorem commitBeat_of_next {w : Work} {p : DealDue → Bool} {b : Nat} (h : w.dev.nextCommit p = some b) :
    w.commitBeat p = (w.passTo b).takeBeat (dealOrder ((w.passTo b).dev.due.filter (fun x => decide (x.firstDue ≤ b)))) := by
  simp only [Work.commitBeat, h]

/-- The Deal is no longer due. -/
def undue (w : Work) (x : DealDue) : Work := w.upd (fun d => { d with due := d.due.filter (fun y => y.seq != x.seq) })

/-- The view that the beat leaves when a Deal has taken it. -/
def beatTaken (v : Work) : Work := (v.upd (fun d => { d with lastCommit := some d.beat })).moveOn

/-- The beat is taken by the first Deal of the order when that one commits. -/
theorem takeBeat_of_commits {w v : Work} {x : DealDue} (h : w.tryDeal x = (true, v)) (rest : List DealDue) :
    w.takeBeat (x :: rest) = beatTaken v := by
  rw [Work.takeBeat, h]
  rfl

theorem tryDeal_slotted {w : Work} {x : DealDue} {k : Nat} (hkind : x.kind = .slotted k)
    (hcommitting : ((undue w x).deal_ k).state = .committing) (hpass : ((undue w x).dealFault k).1 = none) :
    w.tryDeal x = (true, ((undue w x).dealFault k).2.dealTakes k) := by
  have htry : w.tryDeal x = match (undue w x).dealFault k with
      | (some a, v) => (false, v.closeDeal k a.outcome a.code a.index)
      | (none, v) => (true, v.dealTakes k) := by
    simp only [Work.tryDeal, hkind]
    exact if_neg (by rw [undue] at hcommitting; simp [hcommitting])
  rw [htry]
  generalize (undue w x).dealFault k = f at hpass ⊢
  obtain ⟨a, v⟩ := f
  obtain rfl : a = none := hpass
  rfl

theorem tryDeal_admission {w : Work} {x : DealDue} {q : Nat} (hkind : x.kind = .admission q) :
    w.tryDeal x = (undue w x).admissionTakes q := by
  simp only [Work.tryDeal, hkind]
  rfl

/-! ### What the beat leaves of the others -/

/-- A Deal that waits on from its AT beat is late. -/
def movedOn (y : DealSlot) : DealSlot := if y.at_.isSome then { y with late := true } else y

theorem moveOn_keeps {β : Type} (g : Work → β) (h : ∀ (w : Work) (j : Nat), g (w.setDeal j movedOn) = g w) (w : Work) :
    g w.moveOn = g w := by
  refine Work.each_keeps g (fun x w => ?_) _ w
  split
  · exact h ..
  · rfl

/-- Of a slot it keeps all but LATE. -/
theorem moveOn_deal {β : Type} (g : DealSlot → β) (h : ∀ y, g (movedOn y) = g y) (w : Work) (k : Nat) :
    g (w.moveOn.deal_ k) = g (w.deal_ k) :=
  moveOn_keeps (fun w => g (w.deal_ k)) (fun w j => getD_updAt_keeps g h j k w.dev.deals .idle) w

theorem movedOn_keeps {β : Type} (g : DealSlot → β) (h : ∀ y : DealSlot, g { y with late := true } = g y) (y : DealSlot) :
    g (movedOn y) = g y := by
  rw [movedOn]
  split
  · exact h y
  · rfl

/-! ### A slotted Deal takes effect (R85) -/

theorem wordAt_accessed (w : Work) (ctx va : Nat) : Accessed w (w.wordAt ctx va).2 := by
  have h := w.translate_accessed ctx va true (wordReader ctx)
  rw [Work.wordAt]
  generalize w.translate ctx va true (wordReader ctx) = t at h ⊢
  obtain ⟨_ | (a | a), v⟩ := t
  · exact h
  · exact h
  · exact h

theorem wordVal_accessed (w : Work) (ctx va : Nat) : Accessed w (w.wordVal ctx va).2 := by
  have h := w.translate_accessed ctx va true (wordReader ctx)
  rw [Work.wordVal]
  generalize w.translate ctx va true (wordReader ctx) = t at h ⊢
  obtain ⟨_ | (a | a), v⟩ := t
  · exact h
  · exact h.trans (Work.readPhys_accessed ..)
  · exact h

theorem wordsFault_accessed (w : Work) (ctx : Nat) (words : List DirWord) : Accessed w (w.wordsFault ctx words).2 := by
  have hreach := Accessed.foldl (γ := Option Abort) (α := DirWord × Nat) (f := fun acc (e, k) =>
    match acc.1 with
    | some _ => acc
    | none =>
      match acc.2.wordAt ctx e.va with
      | (.fault, w) => (some ⟨2, Rej.context.code, 64 + k⟩, w)
      | (.outside, w) => (some ⟨2, Rej.range.code, 64 + k⟩, w)
      | (.sram, w) => (none, w)) (by
        rintro ⟨_ | a, w⟩ ⟨e, k⟩
        · have h := wordAt_accessed w ctx e.va
          dsimp only
          generalize w.wordAt ctx e.va = t at h ⊢
          obtain ⟨_ | _ | _, v⟩ := t <;> exact h
        · exact .refl w) words.zipIdx (none, w)
  rw [Work.wordsFault]
  generalize List.foldl _ (none, w) words.zipIdx = r at hreach ⊢
  obtain ⟨_ | a, v⟩ := r
  · refine hreach.trans (Accessed.foldl (acc := (none, v)) ?_ _)
    rintro ⟨_ | a, w⟩ ⟨e, k⟩
    · exact wordVal_accessed w ctx e.va
    · exact .refl w
  · exact hreach

/-- The checks of a commit change what an access of memory may change. -/
theorem dealFault_accessed (w : Work) (k : Nat) : Accessed w (w.dealFault k).2 := by
  rw [Work.dealFault]
  dsimp only
  split
  · exact .refl w
  · split
    · exact .refl w
    · exact wordsFault_accessed ..

theorem writeWords_accessed (w : Work) (ctx : Nat) (words : List DirWord) : Accessed w (w.writeWords ctx words) :=
  .each (fun _ _ => Work.writeVa_accessed ..) _ w

theorem writeWords_nil (w : Work) (ctx : Nat) : w.writeWords ctx [] = w := rfl

/-- Clearing cells sets registers and drops adds on their way. -/
theorem clearCells_keeps {β : Type} (g : Work → β) (hreg : ∀ (w : Work) (p : Page) (id : RegId) (i : Nat), g (w.setReg p id 0 i) = g w)
    (hadds : ∀ (w : Work) (y : Dev → Sync), g (w.upd (fun d => { d with sync := y d })) = g w) (w : Work) (before : List Pitch) :
    g (w.clearCells before) = g w := by
  unfold Work.clearCells
  extract_lets
  refine (hadds _ _).trans (Work.each_keeps g (fun c w => ?_) _ w)
  exact (Work.each_keeps g (fun _ _ => hreg ..) _ _).trans (Work.each_keeps g (fun _ _ => hreg ..) _ w)

/-- Staged pitches leave the cells of clusters that change hands clear (R291). -/
def stagesPitch (x : DealSlot) : Bool := x.staged.any (fun e => (List.range 32).any (fun n => e.1 == pitchOff n))

/-- The registers once a slot's staged values are in them. -/
def stagedInto (x : DealSlot) (regs : SMap Word) : SMap Word := x.staged.foldl (fun m e => put 0 e.1 e.2 m) regs

/-- The outcome of a Deal that commits: COMMITTED, or LATE. -/
def committedOutcome (x : DealSlot) : Nat := if x.late then 4 else 1

/-- The view in which a slot's Deal has taken effect, before the slot closes. -/
def dealEffect (w : Work) (k : Nat) : Work :=
  let v := (w.upd (fun d => { d with regs := stagedInto (w.deal_ k) d.regs })).writeWords (slotCtx k) (w.deal_ k).words
  if stagesPitch (w.deal_ k) then v.clearCells w.pitches else v

theorem dealTakes_eq (w : Work) (k : Nat) : w.dealTakes k = (dealEffect w k).closeDeal k (committedOutcome (w.deal_ k)) 0 0 := rfl

/-- A Deal that takes effect leaves every slot until it closes. -/
theorem dealEffect_deals (w : Work) (k : Nat) : (dealEffect w k).dev.deals = w.dev.deals := by
  have hwords := (writeWords_accessed (w.upd (fun d => { d with regs := stagedInto (w.deal_ k) d.regs })) (slotCtx k) (w.deal_ k).words).deals
  rw [dealEffect]
  split
  · exact (clearCells_keeps (·.dev.deals) (fun _ _ _ _ => rfl) (fun _ _ => rfl) _ _).trans hwords
  · exact hwords

theorem dealEffect_registers {w : Work} {k : Nat} (hpitch : stagesPitch (w.deal_ k) = false) (hwords : (w.deal_ k).words = []) :
    (dealEffect w k).dev.regs = stagedInto (w.deal_ k) w.dev.regs := by
  rw [dealEffect, hpitch, hwords, writeWords_nil]
  rfl

/-- Without directory words a Deal writes no memory. -/
theorem dealEffect_out {w : Work} {k : Nat} (hwords : (w.deal_ k).words = []) : (dealEffect w k).out = w.out := by
  rw [dealEffect, hwords, writeWords_nil]
  split
  · exact clearCells_keeps (·.out) (fun _ _ _ _ => rfl) (fun _ _ => rfl) _ _
  · rfl

theorem closeDeal_out (w : Work) (k outcome code index : Nat) : (w.closeDeal k outcome code index).out = w.out := rfl
theorem closeDeal_regs (w : Work) (k outcome code index : Nat) : (w.closeDeal k outcome code index).dev.regs = w.dev.regs := rfl

theorem closeDeal_deal {w : Work} {k : Nat} (hk : k < w.dev.deals.length) (outcome code index : Nat) :
    (w.closeDeal k outcome code index).deal_ k = { w.deal_ k with
      state := .idle, outcome := outcome, code := code, index := index, staged := [], words := [], at_ := none, doneTime := w.dev.time } :=
  getD_updAt_self _ hk _

/-- A slotted Deal that comes first and passes takes the beat. -/
theorem commitBeat_slotted {w : Work} {p : DealDue → Bool} {b k : Nat} {x : DealDue} {rest : List DealDue}
    (hnext : w.dev.nextCommit p = some b)
    (horder : dealOrder ((w.passTo b).dev.due.filter (fun y => decide (y.firstDue ≤ b))) = x :: rest) (hkind : x.kind = .slotted k)
    (hcommitting : ((undue (w.passTo b) x).deal_ k).state = .committing)
    (hpass : ((undue (w.passTo b) x).dealFault k).1 = none) :
    w.commitBeat p = beatTaken (((undue (w.passTo b) x).dealFault k).2.dealTakes k) := by
  rw [commitBeat_of_next hnext, horder, takeBeat_of_commits (tryDeal_slotted hkind hcommitting hpass)]

/-! ### An admission enters its graph (R65) -/

/-- The view in which an admitted graph has been entered. -/
def graphEntered (w : Work) (q : Nat) (a : Admission) : Work :=
  ((((w.upd (fun d => { d with admissions := d.admissions.filter (fun x => x.queue != q) })).advanceHead q).upd (fun d => { d with
    graphs := d.graphs ++ [{ a.graph with valid := true }], lastGraph := put none q (some a.graph.gid) d.lastGraph })).recheck)

theorem admissionTakes_of_free {w : Work} {q : Nat} {a : Admission}
    (hfind : w.dev.admissions.find? (fun a => a.queue == q) = some a) (hfree : w.admissionHeld (q / 32) = false) :
    w.admissionTakes q = (true, graphEntered w q a) := by
  simp only [Work.admissionTakes, hfind]
  exact if_neg (ne_true_of_eq_false hfree)

theorem graphEntered_graphs (w : Work) (q : Nat) (a : Admission) :
    (graphEntered w q a).dev.graphs.length = w.dev.graphs.length + 1
      ∧ (graphEntered w q a).dev.graphs.getLast?.map (fun g => (g.gid, g.valid, g.tasks.length))
        = some (a.graph.gid, true, a.graph.tasks.length) := by
  constructor
  · simp [graphEntered, Work.recheck, Dev.recheckAll, Work.advanceHead]
  · simp [graphEntered, Work.recheck, Dev.recheckAll, Work.advanceHead, List.getLast?_map]

theorem commitBeat_admission {w : Work} {p : DealDue → Bool} {b q : Nat} {x : DealDue} {rest : List DealDue} {a : Admission}
    (hnext : w.dev.nextCommit p = some b)
    (horder : dealOrder ((w.passTo b).dev.due.filter (fun y => decide (y.firstDue ≤ b))) = x :: rest) (hkind : x.kind = .admission q)
    (hfind : (undue (w.passTo b) x).dev.admissions.find? (fun a => a.queue == q) = some a)
    (hfree : (undue (w.passTo b) x).admissionHeld (q / 32) = false) :
    w.commitBeat p = beatTaken (graphEntered (undue (w.passTo b) x) q a) := by
  rw [commitBeat_of_next hnext, horder,
    takeBeat_of_commits ((tryDeal_admission hkind).trans (admissionTakes_of_free hfind hfree))]

/-! ### The obligation -/

theorem runs_dealCommitBeat (s : State) : Runs .dealCommitBeat s (s.work.commitBeat fun _ => true) := rfl

/-- Which Deals ADMISSION_COMMIT waits for. -/
def isAdmission (y : DealDue) : Bool := match y.kind with
  | .admission _ => true
  | _ => false

theorem runs_admissionCommit (s : State) : Runs .admissionCommit s (s.work.commitBeat isAdmission) := rfl

/-- What COMMIT leaves, without AT, with an AT beat to come, and with one that has passed or falls in the validation. -/
theorem dealCommit_runs (s : State) (who : Agent) (k : Nat) (lateFail : Bool) (hopen : (s.work.deal_ k).state = .opened) :
    let n := (s.work.deal_ k).staged.length + (s.work.deal_ k).words.length
    let ends := s.dev.beat + 4 + ceilDiv n 8
    let at4 := roundUp ((s.work.reg pgDl .dlAtLo k).toNat + (s.work.reg pgDl .dlAtHi k).toNat * 2 ^ 32) 4
    let b := s.dev.beat + s.work.beatsTo at4
    (Accepted s who pgDl .dlCtl k (2 ||| atBit 0 3 ||| atBit (b2n lateFail) 4) →
      Runs (.dealCommit who k false lateFail) s
        ((s.work.setDeal k (fun x => { x with
          state := .committing, due := ends + 1, at_ := none, lateFail := lateFail, late := false })).dealDue (ends + 1) (.slotted k) []))
    ∧ (Accepted s who pgDl .dlCtl k (2 ||| atBit 1 3 ||| atBit (b2n lateFail) 4) → s.dev.counting = true →
      (s.dev.time ≤ at4 → ends < b →
        Runs (.dealCommit who k true lateFail) s
          ((s.work.setDeal k (fun x => { x with
            state := .committing, due := b, at_ := some b, lateFail := lateFail, late := false })).dealDue b (.slotted k) []))
      ∧ ((at4 < s.dev.time ∨ b ≤ ends) →
        Runs (.dealCommit who k true lateFail) s
          ((s.work.setDeal k (fun x => { x with
            state := .committing, due := ends + 1, at_ := some b, lateFail := lateFail, late := true })).dealDue (ends + 1) (.slotted k) []))) := by
  intro n ends at4 b
  refine ⟨fun hacc => runs_dealCommit (atTime := false) hacc (dealOp_commit_now hopen ..), fun hacc hcount => ?_⟩
  have hop := dealOp_commit_at (w := s.work) hopen hcount (Agent.thread who) lateFail
  constructor
  · intro hahead hends
    have hlate : (decide (b ≤ ends) || decide (at4 < s.dev.time)) = false := by simp; omega
    change s.work.dealOp k 2 _ true lateFail = .ok ((s.work.setDeal k (committingDeal
      (if (decide (b ≤ ends) || decide (at4 < s.dev.time)) then ends + 1 else b) (some b) lateFail
        (decide (b ≤ ends) || decide (at4 < s.dev.time)))).dealDue
      (if (decide (b ≤ ends) || decide (at4 < s.dev.time)) then ends + 1 else b) (.slotted k) []) at hop
    rw [hlate] at hop
    exact runs_dealCommit (atTime := true) hacc hop
  · intro hbehind
    have hlate : (decide (b ≤ ends) || decide (at4 < s.dev.time)) = true := by simp; omega
    change s.work.dealOp k 2 _ true lateFail = .ok ((s.work.setDeal k (committingDeal
      (if (decide (b ≤ ends) || decide (at4 < s.dev.time)) then ends + 1 else b) (some b) lateFail
        (decide (b ≤ ends) || decide (at4 < s.dev.time)))).dealDue
      (if (decide (b ≤ ends) || decide (at4 < s.dev.time)) then ends + 1 else b) (.slotted k) []) at hop
    rw [hlate] at hop
    exact runs_dealCommit (atTime := true) hacc hop

theorem beatTaken_keeps {β : Type} (g : Work → β) (h : ∀ (w : Work) (j : Nat), g (w.setDeal j movedOn) = g w) (v : Work) :
    g (beatTaken v) = g (v.upd (fun d => { d with lastCommit := some d.beat })) := moveOn_keeps g h _

theorem beatTaken_lastCommit (v : Work) : (beatTaken v).dev.lastCommit = some (beatTaken v).dev.beat := by
  rw [beatTaken_keeps (fun w => w.dev.lastCommit) (fun _ _ => rfl), beatTaken_keeps (fun w => w.dev.beat) (fun _ _ => rfl)]
  rfl

theorem beatTaken_out (v : Work) : (beatTaken v).out = v.out := beatTaken_keeps (·.out) (fun _ _ => rfl) v

theorem beatTaken_regs (v : Work) : (beatTaken v).dev.regs = v.dev.regs := beatTaken_keeps (fun w => w.dev.regs) (fun _ _ => rfl) v

/-- Without directory words a Deal that takes the beat writes no memory. -/
theorem beatTaken_dealTakes_out {v : Work} {k : Nat} (hwords : (v.deal_ k).words = []) : (beatTaken (v.dealTakes k)).out = v.out := by
  rw [beatTaken_out, dealTakes_eq, closeDeal_out, dealEffect_out hwords]

/-- The slot whose Deal took the beat is closed. -/
theorem beatTaken_deal {v : Work} {k : Nat} (hk : k < v.dev.deals.length) :
    ((beatTaken (v.dealTakes k)).deal_ k).state = .idle
      ∧ ((beatTaken (v.dealTakes k)).deal_ k).outcome = committedOutcome (v.deal_ k)
      ∧ ((beatTaken (v.dealTakes k)).deal_ k).staged = [] ∧ ((beatTaken (v.dealTakes k)).deal_ k).words = [] := by
  have hclosed := closeDeal_deal (w := dealEffect v k) (k := k) (by rwa [dealEffect_deals]) (committedOutcome (v.deal_ k)) 0 0
  have hkept {β : Type} (g : DealSlot → β) (h : ∀ y : DealSlot, g { y with late := true } = g y) :
      g ((beatTaken (v.dealTakes k)).deal_ k) = g ((v.dealTakes k).deal_ k) := moveOn_deal g (movedOn_keeps g h) _ k
  rw [hkept (·.state) fun _ => rfl, hkept (·.outcome) fun _ => rfl, hkept (·.staged) fun _ => rfl, hkept (·.words) fun _ => rfl,
    dealTakes_eq, hclosed]
  exact ⟨rfl, rfl, rfl, rfl⟩

theorem beatTaken_dealTakes_regs {v : Work} {k : Nat} (hstaged : ∀ e ∈ (v.deal_ k).staged, ∀ n < 32, e.1 ≠ pitchOff n)
    (hwords : (v.deal_ k).words = []) : (beatTaken (v.dealTakes k)).dev.regs = stagedInto (v.deal_ k) v.dev.regs := by
  have hpitch : stagesPitch (v.deal_ k) = false := by simpa [stagesPitch] using hstaged
  rw [beatTaken_regs, dealTakes_eq, closeDeal_regs, dealEffect_registers hpitch hwords]

/-- The state that a view leads to has the view's Deal slots. -/
theorem deal_after (s : State) (w : Work) (k : Nat) :
    ({ s with mem := s.mem.writeAll w.out, dev := w.dev } : State).work.deal_ k = w.deal_ k := rfl

/-- Settles O14: COMMIT makes the Deal due on the beat that its AT and its validation give; on the commit beat the first due Deal
takes effect, and those it leaves waiting change in nothing but LATE. -/
theorem oneDealCommitsPerBeat : Obligations.OneDealCommitsPerBeat := by
  refine ⟨fun s who k lateFail hopen => dealCommit_runs s who k lateFail hopen, ?_⟩
  intro s b x rest horder w
  have hw : w = undue (s.work.passTo b) x := rfl
  clear_value w
  constructor
  · intro k hnext hkind hk hcommitting hpass
    have hacc := dealFault_accessed w k
    have hruns : Runs .dealCommitBeat s (beatTaken ((w.dealFault k).2.dealTakes k)) := by
      subst hw
      exact commitBeat_slotted hnext horder hkind hcommitting hpass ▸ runs_dealCommitBeat s
    clear hpass
    revert hruns hacc
    generalize (w.dealFault k).2 = v
    intro hacc hruns
    have hdeal : v.deal_ k = w.deal_ k := by rw [Work.deal_, hacc.deals, Work.deal_]
    obtain ⟨hstate, houtcome, hstaged, hwords⟩ := beatTaken_deal (v := v) (k := k) (by rwa [hacc.deals])
    rw [← hdeal]
    refine ⟨hruns, _, hruns, beatTaken_lastCommit (v.dealTakes k), ?_⟩
    rw [deal_after]
    refine ⟨hstate, houtcome, hstaged, hwords, fun hnone => ?_, fun hpitch hnone => ?_⟩
    · exact congrArg s.mem.writeAll (beatTaken_dealTakes_out hnone)
    · exact beatTaken_dealTakes_regs hpitch hnone
  · intro i q a hcommand hkind hfind hfree
    have hruns : Runs i s (beatTaken (graphEntered w q a)) := by
      subst hw
      rcases hcommand with ⟨rfl, hnext⟩ | ⟨rfl, hnext⟩
      · exact commitBeat_admission hnext horder hkind hfind hfree ▸ runs_dealCommitBeat s
      · exact commitBeat_admission (p := isAdmission) hnext horder hkind hfind hfree ▸ runs_admissionCommit s
    obtain ⟨hlength, hlast⟩ := graphEntered_graphs w q a
    have hgraphs : (beatTaken (graphEntered w q a)).dev.graphs = (graphEntered w q a).dev.graphs :=
      beatTaken_keeps (fun w => w.dev.graphs) (fun _ _ => rfl) _
    refine ⟨_, hruns, congrArg s.mem.writeAll (beatTaken_out (graphEntered w q a)), beatTaken_lastCommit (graphEntered w q a), ?_, ?_, ?_,
      beatTaken_regs (graphEntered w q a)⟩
    · exact beatTaken_keeps (fun w => w.dev.admissions) (fun _ _ => rfl) (graphEntered w q a)
    · exact (congrArg List.length hgraphs).trans hlength
    · exact (congrArg (fun l : List Graph => l.getLast?.map (fun g => (g.gid, g.valid, g.tasks.length))) hgraphs).trans hlast

end Sys2Proof
end

section
/-! SUPPORT. ADMISSION of the entry at HEAD (R63, R64). -/

namespace Sys2Proof

open Machine

/-- The queue can run an admission: in service, enabled, not empty, and neither it nor its context is held back (R63, R78). -/
structure MayAdmit (w : Work) (q : Nat) : Prop where
  service : w.inService = true
  enabled : bitOf (w.qreg q .qCfg) 31 = true
  filled : w.qreg q .qHead ≠ w.qreg q .qTail
  free : w.admissionHeld (q / 32) = false
  room : w.dev.admissions.length < 4
  alone : w.dev.admissions.any (fun x => x.queue == q) = false
  running : w.dev.flrBusy.contains (q / 32) = false

/-- A graph of n tasks fits the context's quota and the free entries. -/
def Fits (w : Work) (q n : Nat) : Prop :=
  w.dev.held (q / 32) + n ≤ w.rf pgTt .ttCtxCfg 17 0 (q / 32) ∧ n ≤ w.dev.freeEntries

/-- A graph that its quota could hold finds no room yet. -/
def Waits (w : Work) (q n : Nat) : Prop :=
  w.rb pgTt .ttCtxCfg 31 (q / 32) = true ∧ w.outOfService = false ∧ n ≤ w.rf pgTt .ttCtxCfg 17 0 (q / 32) ∧ ¬ Fits w q n

/-- The graph that is entered, not yet valid. -/
def admittedGraph (d : Dev) (q gid : Nat) (r : AdmRead) : Graph :=
  let b := r.sub.getD []
  { gid := gid, queue := q, tag := bytesAt b 8 4, msix := bytesAt b 12 2, ordered := byteAt b 14 % 2 == 1,
    afterGraph := if byteAt b 14 % 2 == 1 then look none q d.lastGraph else none, complAddr := bytesAt b 16 8, paramAddr := bytesAt b 24 8,
    tasks := r.tasks, edges := r.edges, valid := false, ttCancelled := false, silent := false, firstFail := none,
    poisonRead := 0, poisonWritten := 0 }

/-- The beat on which a graph of n tasks has been checked. -/
def checkedBeat (w : Work) (n : Nat) : Nat := w.dev.beat + 12 + ceilDiv n 32

section
variable {w : Work} {q : Nat} {r : AdmRead} {a : Adm} (hmay : MayAdmit w q) (hread : w.readGraph q = (r, a))
include hmay hread

theorem admissionStep_waits (h : Waits w q r.count) : w.admissionStep q = none := by
  obtain ⟨hservice, hen, hfilled, hfree, hroom, halone, hrunning⟩ := hmay
  rw [Work.admissionStep, if_neg (by rw [hfree, halone, hrunning]; simp [hservice, hen, hfilled]; omega), hread]
  exact if_pos h

theorem admissionStep_refuses (h : ¬ Waits w q r.count) {f : Fail} (hfail : firstFail a.fails = some f) :
    w.admissionStep q = some ((a.w.passTo (checkedBeat w r.count)).refuse q r.sub f) := by
  obtain ⟨hservice, hen, hfilled, hfree, hroom, halone, hrunning⟩ := hmay
  rw [Work.admissionStep, if_neg (by rw [hfree, halone, hrunning]; simp [hservice, hen, hfilled]; omega), hread]
  refine (if_neg h).trans ?_
  rw [hfail]
  rfl

theorem admissionStep_enters (h : ¬ Waits w q r.count) (hpass : firstFail a.fails = none) :
    w.admissionStep q = some ((a.w.fresh.2.upd (fun d => { d with
      admissions := d.admissions ++ [⟨q, checkedBeat w r.count + 1, admittedGraph w.dev q a.w.dev.nextId r⟩] })).dealDue
        (checkedBeat w r.count + 1) (.admission q) []) := by
  obtain ⟨hservice, hen, hfilled, hfree, hroom, halone, hrunning⟩ := hmay
  rw [Work.admissionStep, if_neg (by rw [hfree, halone, hrunning]; simp [hservice, hen, hfilled]; omega), hread]
  refine (if_neg h).trans ?_
  rw [hpass]
  rfl

end

/-- A queue that ran an admission comes last in the next turn (R63; log 52). -/
def turnTaken (w : Work) (q : Nat) : Work :=
  w.upd (fun d => { d with turnCtx := q / 32, turnQueue := put 31 (q / 32) (q % 32) d.turnQueue })

section
variable {s : State} {q : Nat} (hturn : s.work.dev.turns.find? (fun k => k == q || (s.work.admissionStep k).isSome) = some q)
include hturn

theorem runs_admission_of_step {v : Work} (h : s.work.admissionStep q = some v) : Runs (.admission q) s (turnTaken v q) := by
  have hwork : admissionWork q s.work = turnTaken v q := by
    rw [admissionWork, if_pos hturn, h]
    rfl
  rw [← hwork]
  rfl

theorem runs_admission_of_none (h : s.work.admissionStep q = none) : Runs (.admission q) s s.work := by
  have hwork : admissionWork q s.work = s.work := by rw [admissionWork, if_pos hturn, h]
  conv => arg 3; rw [← hwork]
  rfl

end

/-- The device once an admission has been entered and its Deal is due. -/
theorem entered_dev (v : Work) (q due : Nat) (g : Graph) :
    (turnTaken ((v.fresh.2.upd (fun d => { d with admissions := d.admissions ++ [⟨q, due, g⟩] })).dealDue due (.admission q) []) q).dev
      = { v.dev with
          admissions := v.dev.admissions ++ [⟨q, due, g⟩]
          due := v.dev.due ++ [⟨due, v.dev.nextId + 1, .admission q, []⟩]
          nextId := v.dev.nextId + 2
          turnCtx := q / 32
          turnQueue := put 31 (q / 32) (q % 32) v.dev.turnQueue } := rfl

/-- Settles O15: an entry at HEAD that may be admitted waits for room, is refused with its first failing check, or is entered. -/
theorem admissionReadsAndQueues : Obligations.AdmissionReadsAndQueues := by
  intro s q hservice hen hfilled hfree hroom halone hrunning hturn
  have hmay : MayAdmit s.work q := ⟨hservice, hen, hfilled, hfree, hroom, halone, hrunning⟩
  generalize hread : s.work.readGraph q = read
  obtain ⟨r, a⟩ := read
  intro r' a' quota fits due
  refine ⟨fun hpass hfits => ?_, fun f hfail hknown => ?_, fun hvalid hservice' hquota hfull => ?_⟩
  · have hwaits : ¬ Waits s.work q r.count := fun h => h.2.2.2 hfits
    have hruns := runs_admission_of_step hturn (admissionStep_enters hmay hread hwaits hpass)
    exact ⟨_, admittedGraph s.dev q a.w.dev.nextId r, hruns, rfl, entered_dev .., rfl, rfl, rfl, rfl, rfl, rfl, rfl⟩
  · have hwaits : ¬ Waits s.work q r.count := by
      rintro ⟨hvalid, hservice', hquota, hfull⟩
      rcases hknown with h | h | h | h
      · exact hfull h
      · rw [hvalid] at h; cases h
      · rw [hservice'] at h; cases h
      · exact absurd hquota (Nat.not_le.mpr h)
    exact runs_admission_of_step hturn (admissionStep_refuses hmay hread hwaits hfail)
  · exact runs_admission_of_none hturn (admissionStep_waits hmay hread ⟨hvalid, hservice', hquota, hfull⟩)

end Sys2Proof
end

section
/-! SUPPORT. The life of a task: release, completion of SIGNAL tasks, timeouts and completion records (R62, R66 to R69). -/

namespace Sys2Proof

open Machine

/-- A command runs to what its change of the view makes of the state. -/
theorem runs_of_work {c : Instr} {s : State} {f : Work → Work} {x : Work} (hexec : exec c s = s.run f) (h : f s.work = x) : Runs c s x :=
  h ▸ runs_iff f hexec

/-! ### Tasks found after a change -/

/-- The first element that meets `p` is the one that is replaced, when its replacement meets `p` too. -/
theorem Machine.find?_updFirst {α : Type} {p : α → Bool} {f : α → α} (h : ∀ x, p x = true → p (f x) = true) (l : List α) :
    (updFirst p f l).find? p = (l.find? p).map f := by
  induction l with
  | nil => rfl
  | cons x t ih =>
    rw [updFirst]
    split
    case isTrue hx => simp [hx, h x hx]
    case isFalse hx => simp [hx, ih]

theorem Machine.graph?_setGraph {w : Work} {gid : Nat} {f : Graph → Graph} (h : ∀ g, (f g).gid = g.gid) :
    (w.setGraph gid f).dev.graph? gid = (w.dev.graph? gid).map f :=
  find?_updFirst (fun g hg => by simpa [h] using hg) w.dev.graphs

theorem Machine.task?_eq_some {d : Dev} {gid ti : Nat} {t : Task} :
    d.task? gid ti = some t ↔ ∃ g, d.graph? gid = some g ∧ g.tasks[ti]? = some t := by
  rw [Dev.task?, Option.bind_eq_some_iff]

theorem Machine.task?_setTask {w : Work} {gid ti : Nat} {t : Task} (f : Task → Task) (h : w.dev.task? gid ti = some t) :
    (w.setTask gid ti f).dev.task? gid ti = some (f t) := by
  obtain ⟨g, hg, ht⟩ := task?_eq_some.mp h
  refine task?_eq_some.mpr ⟨{ g with tasks := updAt f ti g.tasks }, ?_, ?_⟩
  · exact (graph?_setGraph (f := fun g => { g with tasks := updAt f ti g.tasks }) fun _ => rfl).trans (congrArg _ hg)
  · simp [getElem?_updAt, ht]

/-- A task of an admitted graph is found with those of saved ones. -/
theorem Machine.anyTask?_of_task? {d : Dev} {gid ti : Nat} {t : Task} (h : d.task? gid ti = some t) : d.anyTask? gid ti = some t := by
  obtain ⟨g, hg, ht⟩ := task?_eq_some.mp h
  have hany : d.anyGraph? gid = some g := by rw [Dev.anyGraph?, List.find?_append, ← Dev.graph?, hg]; rfl
  rw [Dev.anyTask?, hany]
  exact ht

/-- Noting conditions that are met leaves a task that neither waits nor is PRIMED. -/
theorem Machine.recheckTask_of_settled {t : Task} (d : Dev) (g : Graph) (ti : Nat) (hwaiting : t.state ≠ .waiting) (hprimed : t.state ≠ .primed) :
    d.recheckTask g ti t = t := by
  simp [Dev.recheckTask, hwaiting, hprimed]

theorem Machine.task?_recheck {w : Work} {gid ti : Nat} {t : Task} (h : w.dev.task? gid ti = some t) (hwaiting : t.state ≠ .waiting)
    (hprimed : t.state ≠ .primed) : w.recheck.dev.task? gid ti = some t := by
  obtain ⟨g, hg, ht⟩ := task?_eq_some.mp h
  refine task?_eq_some.mpr ⟨{ g with tasks := g.tasks.mapIdx (fun ti t => w.dev.recheckTask g ti t) }, ?_, ?_⟩
  · rw [Dev.graph?, Work.recheck, Work.upd_dev, Dev.recheckAll, List.find?_map]
    exact congrArg _ hg
  · simp [ht, recheckTask_of_settled _ _ _ hwaiting hprimed]

/-! ### A task is DONE (R62, R68) -/

theorem Machine.releaseRing_graphs (w : Work) (t : Task) : (w.releaseRing t).dev.graphs = w.dev.graphs := by
  rw [Work.releaseRing]
  split
  · dsimp only
    split <;> rfl
  · rfl

theorem Machine.releaseRing_beat (w : Work) (t : Task) : (w.releaseRing t).dev.beat = w.dev.beat := by
  rw [Work.releaseRing]
  split
  · dsimp only
    split <;> rfl
  · rfl

/-- The task as it is DONE on a beat, its signal on an object due 12 beats later (R290; log 26). -/
def doneAt (b : Nat) (t : Task) : Task :=
  { t with state := .done, err := 0, doneAt := b, metAt := none, softAt := none, waitRegistered := false,
           signalDue := if t.signalsObject = true then some (b + 12) else none }

theorem task?_doneTask {w : Work} {gid ti : Nat} {t : Task} (h : w.dev.task? gid ti = some t) (hlive : t.state.live = true) :
    (w.doneTask gid ti).dev.task? gid ti = some (doneAt w.dev.beat t) := by
  refine task?_recheck ?_ (by decide : TaskState.done ≠ .waiting) (by decide : TaskState.done ≠ .primed)
  have hring : (w.releaseRing t).dev.task? gid ti = some t := by
    rw [← h, Dev.task?, Dev.task?, Dev.graph?, Dev.graph?, releaseRing_graphs]
  have hset := task?_setTask (doneAt (w.releaseRing t).dev.beat) hring
  rw [releaseRing_beat] at hset
  rw [Work.closeTask, anyTask?_of_task? h]
  dsimp only
  rw [if_neg (by simp [hlive]), if_pos rfl, ← hset, releaseRing_beat]
  simp only [true_and]
  rfl

theorem signalTaskComplete_work {w : Work} {r : TaskRef} {t : Task} {b : Nat} (ht : w.dev.task? r.gid r.task = some t)
    (hmet : t.metAt = some b) (hkind : t.kind = some .signal) (hwaiting : t.state = .waiting) :
    signalTaskCompleteWork r w
      = (if t.timed then (w.passTo b).passToTime t.launchTime else w.passTo b).doneTask r.gid r.task := by
  simp only [signalTaskCompleteWork, ht, hmet, hkind, hwaiting, and_self, if_true]

/-! ### Release (R67) -/

/-- The task as it is released, or PRIMED, on a beat. -/
def releasedAt (g : Graph) (r : TaskRef) (b : Nat) (t : Task) : Task :=
  { t with state := if g.softDone r.task then .released else .primed, releasedAt := b, metAt := none, dealt := t.hasInstances }

theorem taskRelease_work {w : Work} {r : TaskRef} {g : Graph} {t : Task} {b : Nat} (hg : w.dev.graph? r.gid = some g)
    (ht : g.task? r.task = some t) (hmet : t.metAt = some b) (hwaiting : t.state = .waiting) (hkind : t.kind ≠ some .signal) :
    let v := (w.passTo (b + 2)).setTask r.gid r.task (releasedAt g r (w.passTo (b + 2)).dev.beat)
    let u := if t.hasInstances then v.deal r.gid r.task t else v
    taskReleaseWork r w = (if g.softDone r.task then u.completeEmpty r.gid r.task t else u).recheck := by
  intro v u
  simp only [taskReleaseWork, hg, ht, hmet]
  rw [if_neg (by simp [hwaiting, hkind])]
  have hrel : releasedAt g r = fun b t => { t with
      state := if !g.softDone r.task then .primed else .released, releasedAt := b, metAt := none, dealt := t.hasInstances } := by
    funext b t
    cases h : g.softDone r.task <;> simp [releasedAt, h]
  simp only [u, v, hrel]
  cases g.softDone r.task <;> rfl

theorem primedRelease_work {w : Work} {r : TaskRef} {t : Task} {b : Nat} (ht : w.dev.task? r.gid r.task = some t)
    (hsoft : t.softAt = some b) (hprimed : t.state = .primed) :
    primedReleaseWork r w = ((((w.passTo (b + 2)).setTask r.gid r.task (fun t => { t with state := .released, softAt := none })).completeEmpty
      r.gid r.task t).startTask r.gid r.task) := by
  simp only [primedReleaseWork, ht, hsoft]
  rw [if_neg (by simp [hprimed])]

/-- A deal makes one share of the task for each cluster that it names. -/
theorem deal_dev {w : Work} {gid : Nat} {t : Task} {p : Pitch} (ti : Nat) (hp : w.pitchOfTask gid t = some p) :
    ∃ new, (w.deal gid ti t).dev = { w.dev with insts := w.dev.insts ++ new, nextId := w.dev.nextId + new.length }
      ∧ new.map (·.cluster) = (if t.one then [p.at (t.f 4 1) (t.f 5 1)] else p.clusters)
      ∧ (∀ i ∈ new, i.gid = gid ∧ i.ti = ti ∧ i.slot = none ∧ i.started = false) := by
  let cs := if t.one then [p.at (t.f 4 1) (t.f 5 1)] else p.clusters
  let new := cs.mapIdx (fun k c => freshInst (w.dev.nextId + k) gid ti k c (t.share cs.length k).1 (t.share cs.length k).2)
  refine ⟨new, ?_, ?_, ?_⟩
  · have hlen : new.length = cs.length := by simp [new]
    rw [hlen]
    simp only [Work.deal, hp]
    rfl
  · exact List.ext_getElem (by simp [new, cs]) fun i _ _ => by simp [new, freshInst, cs]
  · intro i hi
    obtain ⟨k, hk, rfl⟩ := List.mem_mapIdx.mp hi
    exact ⟨rfl, rfl, rfl, rfl⟩

/-- Settles O16: each command is the change of the view that its work equation gives. -/
theorem taskIsReleased : Obligations.TaskIsReleased := by
  refine ⟨⟨?_, ?_, ?_⟩, ?_⟩
  · intro s r g t b w hg ht hmet hwaiting hkind hw
    have hwork := taskRelease_work (w := s.work) hg ht hmet hwaiting hkind
    rw [← show w = (s.work.passTo (b + 2)).setTask r.gid r.task (releasedAt g r (s.work.passTo (b + 2)).dev.beat) from hw] at hwork
    have hruns := runs_of_work (c := .taskRelease r) (s := s) rfl hwork
    refine ⟨?_, ?_, ?_, ?_⟩ <;> intro hinst hsoft <;> simpa only [hinst, hsoft, if_true, Bool.false_eq_true, if_false] using hruns
  · exact fun w gid ti t p hp => deal_dev ti hp
  · exact fun s r t b ht hsoft hprimed => runs_of_work rfl (primedRelease_work ht hsoft hprimed)
  · intro s r t b ht hmet hkind hwaiting
    refine ⟨runs_of_work rfl (signalTaskComplete_work ht hmet hkind hwaiting), fun w hw => ?_⟩
    exact ⟨_, task?_doneTask hw (by rw [hwaiting]; rfl), rfl, rfl, rfl⟩

end Sys2Proof
end

section
/-! SUPPORT. Slots, timeouts and completion records (R66, R68, R71, R264, R266). -/

namespace Sys2Proof

open Machine

/-! ### Taking and leaving a slot (R71, R266) -/

/-- What R71 asks of the one that is placed. -/
theorem placeable_spec {w : Work} {c : Nat} {l : List Inst} {i : Inst} (h : w.placeable c l = some i) :
    i ∈ l ∧ (w.freeSlot c).isSome ∧ ∃ t, i.task? w.dev = some t ∧ t.landing ≤ w.landingFree c ∧ opcPages t.opcache ≤ w.opcFree c
      ∧ w.heldBack i t = false ∧ w.dev.cellConflict i t = false := by
  induction l with
  | nil => cases h
  | cons j rest ih =>
    have later : w.placeable c rest = some i → _ := fun h => (ih h).imp_left (List.mem_cons_of_mem j)
    rw [Work.placeable] at h
    split at h
    case h_1 => exact later h
    case h_2 t ht =>
      split at h
      case isTrue => cases h
      case isFalse hroom =>
        split at h
        case isTrue => exact later h
        case isFalse hfree =>
          cases h
          simp only [not_or, Nat.not_lt, Bool.not_eq_true] at hroom hfree
          obtain ⟨hslot, hlanding, hopc⟩ := hroom
          exact ⟨List.mem_cons_self, by simpa using hslot, t, ht, hlanding, hopc, hfree⟩

theorem slotTake_work {w v : Work} {c k : Nat} {i : Inst} {t : Task} (hopen : w.clusterOpen c = true)
    (hplace : w.placeable c (w.dev.waitingAt c) = some i) (hslot : w.freeSlot c = some k)
    (hv : v = (w.setInst i.iid (fun x => { x with slot := some k, tookAt := w.dev.beat })).setTask i.gid i.ti
      (fun t => { t with gen := (w.setInst i.iid (fun x => { x with slot := some k, tookAt := w.dev.beat })).gen c k }))
    (ht : i.task? v.dev = some t) : slotTakeWork c w = ((v.chooseLayout i t false).registerCellWait i.iid).startInst i.iid := by
  subst hv
  simp only [slotTakeWork, hopen, Bool.true_eq_false, if_false, hplace, hslot, ht]

theorem instanceComplete_work {w : Work} {c k : Nat} {i : Inst} {t : Task} (hi : w.dev.instIn? c k = some i)
    (ht : i.task? w.dev = some t) (hcommitted : w.committed i = true) (hstop : i.stopOrdered = false) (hlane : i.isLane = false) :
    instanceCompleteWork c k w
      = let v := ((w.bumpGen c k).cellSignal i t).leave i
        if v.dev.insts.any (fun j => j.gid == i.gid && j.ti == i.ti && !j.isLane) then v else v.doneTask i.gid i.ti := by
  simp only [instanceCompleteWork, hi, ht, hcommitted, hstop, hlane, Bool.true_eq_false, Bool.false_eq_true, or_self, if_false]

theorem freePages_insts (w : Work) (i : Inst) : (w.freePages i).dev.insts = w.dev.insts := by
  unfold Work.freePages
  dsimp only
  split <;> rfl

/-- The one that leaves is gone, and every other one stays. -/
theorem leave_insts (w : Work) (i : Inst) : (w.leave i).dev.insts = w.dev.insts.filter (fun x => x.iid != i.iid) := by
  rw [← freePages_insts w i]
  rfl

/-- Settles O17, with the choice of R71 read off the recursion over the waiting order. -/
theorem slotIsTaken : Obligations.SlotIsTaken := by
  refine ⟨⟨?_, fun w c l i h => placeable_spec h⟩, fun s c k i hi => ⟨?_, ?_, ?_, ?_⟩⟩
  · exact fun s c i k t hopen hplace hslot ht => runs_of_work rfl (slotTake_work hopen hplace hslot rfl ht)
  · intro t ht hcommitted hstop hlane
    refine ⟨fun hothers => runs_of_work rfl ?_, fun hothers => runs_of_work rfl ?_⟩
    · rw [instanceComplete_work hi ht hcommitted hstop hlane, if_pos hothers]
    · rw [instanceComplete_work hi ht hcommitted hstop hlane, if_neg (by simpa using hothers)]
  · exact fun hstop hbumped => runs_of_work rfl (by simp only [generationBumpWork, State.work_dev, hi, hstop, hbumped, and_self, if_true])
  · refine fun hstop hbumped htiles => ⟨runs_of_work rfl ?_, leave_insts ..⟩
    simp only [instanceStopWork, State.work_dev, hi, hstop, hbumped, htiles, and_self, if_true]
  · exact fun n => runsTo_of_runs (w := pageZeroedWork c n s.work) (runs_of_work rfl rfl) rfl

/-! ### Timeouts and completion records (R66, R68, R69) -/

theorem task?_passTo (w : Work) (b gid ti : Nat) : (w.passTo b).dev.task? gid ti = w.dev.task? gid ti := by
  simp [Dev.task?, Dev.graph?, Work.passTo]

/-- An error of a task that is still live is raised, and the task and its dependants end. -/
theorem failTask_of_live {w : Work} {gid ti : Nat} {t : Task} (ht : w.dev.task? gid ti = some t) (hlive : t.state.live = true)
    (p : Page) (e : Err) (waiter : Nat) (detail : List Byte) (sev : Nat) : w.failTask gid ti p e waiter detail sev
      = (w.raise p e ⟨sev, some (w.dev.ctxOf gid), w.dev.codeOf gid ti, waiter, detail⟩).failOnly gid ti e.code := by
  simp only [Work.failTask, anyTask?_of_task? ht, hlive, if_true]

/-- Settles O18. -/
theorem taskTimesOut : Obligations.TaskTimesOut := by
  intro s r t ht hlive hwaiting htimeout w
  refine runs_of_work rfl ?_
  have hw : w.dev.task? r.gid r.task = some t := (task?_passTo ..).trans ht
  rw [← failTask_of_live hw hlive]
  simp only [taskTimeoutWork, State.work_dev, ht]
  rw [if_pos ⟨hlive, hwaiting, htimeout⟩]

/-- Settles O19: the record of an ended graph, and of a refusal. -/
theorem completionRecordIsWritten : Obligations.CompletionRecordIsWritten := by
  intro s gid
  constructor
  · intro g hrefusal hg hvalid hended hinsts hsignals htiles
    refine runs_of_work rfl ?_
    simp only [completionRecordWork, State.work_dev, hrefusal, hg]
    exact if_pos ⟨hvalid, hended, hinsts, hsignals, htiles⟩
  · intro r hr
    refine runs_of_work rfl ?_
    simp only [completionRecordWork, State.work_dev, hr]
    rfl

end Sys2Proof
end

section
/-! SUPPORT. Cancellation: the live tasks of the graphs that are named end, and no task comes back to life (R70). -/

namespace Sys2Proof

open Machine

/-! ### What a graph keeps while tasks end -/

/-- A graph that has become another: the same submission, and no task live that was not. -/
structure Faded (g g' : Machine.Graph) : Prop where
  gid : g'.gid = g.gid
  queue : g'.queue = g.queue
  tag : g'.tag = g.tag
  valid : g'.valid = g.valid
  length : g'.tasks.length = g.tasks.length
  settled : ∀ j : Nat, (∀ t, g.tasks[j]? = some t → t.state.live = false) → ∀ t, g'.tasks[j]? = some t → t.state.live = false

theorem Faded.refl (g : Graph) : Faded g g := ⟨rfl, rfl, rfl, rfl, rfl, fun _ h => h⟩

theorem Faded.trans {f g h : Graph} (a : Faded f g) (b : Faded g h) : Faded f h :=
  ⟨b.gid.trans a.gid, b.queue.trans a.queue, b.tag.trans a.tag, b.valid.trans a.valid, b.length.trans a.length,
    fun j hj => b.settled j (a.settled j hj)⟩

/-- Two lists of one length whose entries at each place are related. -/
inductive Paired {α : Type} (R : α → α → Prop) : List α → List α → Prop
  | nil : Paired R [] []
  | cons {x y : α} {l m : List α} (head : R x y) (tail : Paired R l m) : Paired R (x :: l) (y :: m)

section Paired

variable {α : Type} {R : α → α → Prop} {l m : List α}

theorem Paired.of_map {f : α → α} (hf : ∀ x, R x (f x)) : ∀ l : List α, Paired R l (l.map f)
  | [] => .nil
  | x :: t => .cons (hf x) (of_map hf t)

theorem Paired.of_refl (h : ∀ x, R x x) (l : List α) : Paired R l l := by
  simpa only [List.map_id'] using of_map (f := fun x => x) h l

theorem Paired.exists_mem (h : Paired R l m) {y : α} (hy : y ∈ m) : ∃ x ∈ l, R x y := by
  induction h with
  | nil => cases hy
  | cons hr _ ih =>
    rcases List.mem_cons.mp hy with rfl | hy
    · exact ⟨_, List.mem_cons_self, hr⟩
    · obtain ⟨x, hx, hr⟩ := ih hy
      exact ⟨x, List.mem_cons_of_mem _ hx, hr⟩

end Paired

theorem Paired.faded_trans {k l m : List Graph} (a : Paired Faded k l) (b : Paired Faded l m) : Paired Faded k m := by
  induction a generalizing m with
  | nil => exact b
  | cons hg _ ih =>
    cases b with
    | cons hg' b => exact .cons (hg.trans hg') (ih b)

theorem map_gid_of_faded {l m : List Graph} (h : Paired Faded l m) : m.map (·.gid) = l.map (·.gid) := by
  induction h with
  | nil => rfl
  | cons hg _ ih => simp [hg.gid, ih]

/-- Every admitted graph of a view is one of another view that has faded. -/
def AllFaded (w v : Work) : Prop := Paired Faded w.dev.graphs v.dev.graphs

theorem AllFaded.of_eq {w v : Work} (h : v.dev.graphs = w.dev.graphs) : AllFaded w v := by
  rw [AllFaded, h]
  exact .of_refl Faded.refl _

theorem AllFaded.trans {u v w : Work} (a : AllFaded u v) (b : AllFaded v w) : AllFaded u w :=
  Paired.faded_trans a b

theorem AllFaded.each {α : Type} {f : α → Work → Work} (h : ∀ x w, AllFaded w (f x w)) (l : List α) (w : Work) :
    AllFaded w (w.each l f) := by
  induction l generalizing w with
  | nil => exact .of_eq rfl
  | cons x t ih => exact (h x w).trans (ih _)

theorem AllFaded.exists_mem {w v : Work} (h : AllFaded w v) {g' : Graph} (hg : g' ∈ v.dev.graphs) : ∃ g ∈ w.dev.graphs, Faded g g' :=
  Paired.exists_mem h hg

theorem AllFaded.gids {w v : Work} (h : AllFaded w v) : v.dev.graphs.map (·.gid) = w.dev.graphs.map (·.gid) :=
  map_gid_of_faded h

theorem paired_updFirst {α : Type} {R : α → α → Prop} {f : α → α} (p : α → Bool) (hrefl : ∀ x, R x x) (hf : ∀ x, R x (f x)) (l : List α) :
    Paired R l (updFirst p f l) := by
  induction l with
  | nil => exact .nil
  | cons x t ih =>
    rw [updFirst]
    split
    · exact .cons (hf x) (.of_refl hrefl t)
    · exact .cons (hrefl x) ih

theorem setGraph_allFaded {w : Work} {gid : Nat} {f : Graph → Graph} (h : ∀ g, Faded g (f g)) : AllFaded w (w.setGraph gid f) :=
  paired_updFirst _ Faded.refl h _

theorem recheck_allFaded (w : Work) : AllFaded w w.recheck := by
  refine Paired.of_map (fun g => ⟨rfl, rfl, rfl, rfl, by simp, fun j hj t ht => ?_⟩) _
  simp only [List.getElem?_mapIdx, Option.map_eq_some_iff] at ht
  obtain ⟨u, hu, rfl⟩ := ht
  have hstate : (w.dev.recheckTask g j u).state = u.state := by
    unfold Dev.recheckTask
    dsimp only
    split <;> split <;> rfl
  rw [hstate]
  exact hj u hu

/-! ### A task that ends (R68, R70) -/

theorem abortHub_graphs (h : Hub) (w : Work) : (w.abortHub h).dev.graphs = w.dev.graphs := by
  unfold Work.abortHub
  dsimp only
  split
  · rfl
  case h_2 tag htag =>
    cases h.closed
    · simp [Work.freeDrained, Work.sendClose, htag]
    · rfl

theorem stopInsts_graphs (w : Work) (gid ti : Nat) : (w.stopInsts gid ti).dev.graphs = w.dev.graphs :=
  Work.each_keeps (·.dev.graphs) (fun _ _ => Work.each_keeps (·.dev.graphs) abortHub_graphs ..) ..

/-- The task as it has ended. -/
def closedAt (b : Nat) (st : TaskState) (err : Nat) (t : Task) : Task :=
  { t with state := st, err := err, doneAt := b, metAt := none, softAt := none, waitRegistered := false,
           signalDue := if st = .done ∧ t.signalsObject = true then some (b + 12) else none }

/-- A graph with one task of it changed. -/
def withTask (f : Task → Task) (ti : Nat) (g : Graph) : Graph := { g with tasks := updAt f ti g.tasks }

theorem closeTask_graphs {w : Work} {gid ti : Nat} {t : Task} (st : TaskState) (err : Nat) (ht : w.dev.anyTask? gid ti = some t)
    (hlive : t.state.live = true) : (w.closeTask gid ti st err).dev.graphs
      = updFirst (fun g => g.gid == gid) (withTask (closedAt w.dev.beat st err) ti) w.dev.graphs := by
  have hring := releaseRing_graphs w t
  rw [← hring, ← releaseRing_beat w t, Work.closeTask, ht]
  dsimp only
  rw [if_neg (by simp [hlive])]
  split
  · rfl
  · exact stopInsts_graphs ..

theorem closeTask_of_settled {w : Work} {gid ti : Nat} (st : TaskState) (err : Nat)
    (h : ∀ t, w.dev.anyTask? gid ti = some t → t.state.live = false) : w.closeTask gid ti st err = w := by
  rw [Work.closeTask]
  split
  · rfl
  case h_2 t ht => exact if_pos (h t ht)

theorem closeTask_cases {w : Work} (gid ti : Nat) : (∃ t, w.dev.anyTask? gid ti = some t ∧ t.state.live = true)
    ∨ ∀ t, w.dev.anyTask? gid ti = some t → t.state.live = false := by
  cases h : w.dev.anyTask? gid ti with
  | none => exact .inr nofun
  | some t =>
    cases hlive : t.state.live
    · exact .inr fun u hu => by cases hu; exact hlive
    · exact .inl ⟨t, rfl, hlive⟩

theorem length_updAt {α : Type} (f : α → α) (n : Nat) (l : List α) : (updAt f n l).length = l.length := by
  induction l generalizing n with
  | nil => cases n <;> rfl
  | cons x t ih =>
    cases n with
    | zero => rfl
    | succ n => exact congrArg (· + 1) (ih n)

theorem closeTask_allFaded (w : Work) (gid ti : Nat) {st : TaskState} (hst : st.live = false) (err : Nat) :
    AllFaded w (w.closeTask gid ti st err) := by
  rcases closeTask_cases gid ti (w := w) with ⟨t, ht, hlive⟩ | hsettled
  · rw [AllFaded, closeTask_graphs st err ht hlive]
    refine paired_updFirst (f := withTask _ _) _ Faded.refl (fun g => ⟨rfl, rfl, rfl, rfl, length_updAt .., fun j hj t ht => ?_⟩) _
    rw [withTask, getElem?_updAt] at ht
    split at ht
    · obtain ⟨u, -, rfl⟩ := Option.map_eq_some_iff.mp ht
      exact hst
    · exact hj t ht
  · exact .of_eq (by rw [closeTask_of_settled st err hsettled])

/-! ### Graphs found by their serial number -/

theorem find?_gid_of_mem {l : List Graph} (hnodup : (l.map (·.gid)).Nodup) {g : Graph} (hg : g ∈ l) :
    l.find? (fun x => x.gid == g.gid) = some g := by
  induction l with
  | nil => cases hg
  | cons x t ih =>
    obtain ⟨hx, ht⟩ := List.nodup_cons.mp hnodup
    rcases List.mem_cons.mp hg with rfl | hg
    · exact List.find?_cons_of_pos (by simp)
    · have hne : x.gid ≠ g.gid := fun h => hx (List.mem_map.mpr ⟨g, hg, h.symm⟩)
      rw [List.find?_cons_of_neg (by simpa using hne)]
      exact ih ht hg

theorem anyTask?_of_mem {d : Dev} (hnodup : (d.graphs.map (·.gid)).Nodup) {g : Graph} (hg : g ∈ d.graphs) (ti : Nat) :
    d.anyTask? g.gid ti = g.tasks[ti]? := by
  rw [Dev.anyTask?, Dev.anyGraph?, List.find?_append, find?_gid_of_mem hnodup hg]
  rfl

/-- Closing a task with an end that is not live leaves it settled in the graph of that serial number. -/
theorem closeTask_settled {w : Work} {gid ti : Nat} {st : TaskState} (hst : st.live = false) (err : Nat)
    (hnodup : (w.dev.graphs.map (·.gid)).Nodup) {g' : Graph} (hg : g' ∈ (w.closeTask gid ti st err).dev.graphs) (hgid : g'.gid = gid) :
    ∀ t, g'.tasks[ti]? = some t → t.state.live = false := by
  rcases closeTask_cases gid ti (w := w) with ⟨t, ht, hlive⟩ | hsettled
  · have hnodup' := (closeTask_allFaded w gid ti hst err).gids ▸ hnodup
    have hfind := find?_gid_of_mem hnodup' hg
    rw [closeTask_graphs st err ht hlive, hgid, find?_updFirst (p := fun g => g.gid == gid) (f := withTask _ _) (fun _ h => h)] at hfind
    obtain ⟨g, -, rfl⟩ := Option.map_eq_some_iff.mp hfind
    intro u hu
    rw [withTask, getElem?_updAt, if_pos rfl] at hu
    obtain ⟨v, -, rfl⟩ := Option.map_eq_some_iff.mp hu
    simp [closedAt, hst]
  · rw [closeTask_of_settled st err hsettled] at hg
    subst hgid
    intro t ht
    exact hsettled t ((anyTask?_of_mem hnodup hg ti).trans ht)

/-! ### Every live task of a named graph (R70) -/

/-- The tasks of a graph, by its serial number, up to `n` are settled. -/
def SettledBelow (gid n : Nat) (w : Work) : Prop :=
  ∀ g ∈ w.dev.graphs, g.gid = gid → ∀ j < n, ∀ t, g.tasks[j]? = some t → t.state.live = false

theorem SettledBelow.of_faded {gid n : Nat} {w v : Work} (h : SettledBelow gid n w) (hfaded : AllFaded w v) : SettledBelow gid n v := by
  intro g' hg' hgid j hj
  obtain ⟨g, hg, hgg⟩ := hfaded.exists_mem hg'
  exact hgg.settled j (h g hg (hgg.gid.symm.trans hgid) j hj)

/-- All tasks of a graph are closed as CANCELLED. -/
def cancelTasks (gid n : Nat) (w : Work) : Work := w.each (List.range n) (fun ti w => w.closeTask gid ti .cancelled 0)

theorem cancelTasks_allFaded (gid n : Nat) (w : Work) : AllFaded w (cancelTasks gid n w) :=
  .each (fun ti w => closeTask_allFaded w gid ti rfl 0) _ _

theorem cancelTasks_settled {w : Work} (gid n : Nat) (hnodup : (w.dev.graphs.map (·.gid)).Nodup) :
    SettledBelow gid n (cancelTasks gid n w) := by
  induction n with
  | zero => exact fun _ _ _ j hj => absurd hj (Nat.not_lt_zero j)
  | succ n ih =>
    have hlast : cancelTasks gid (n + 1) w = (cancelTasks gid n w).closeTask gid n .cancelled 0 := by
      simp [cancelTasks, Work.each, List.range_succ]
    have hn := (cancelTasks_allFaded gid n w).gids ▸ hnodup
    rw [hlast]
    intro g hg hgid j hj
    rcases Nat.lt_succ_iff_lt_or_eq.mp hj with hj | rfl
    · exact ih.of_faded (closeTask_allFaded _ gid n rfl 0) g hg hgid j hj
    · exact closeTask_settled rfl 0 hn hg hgid

/-- One named graph is cancelled. -/
def cancelOne (silent : Bool) (g : Graph) (w : Work) : Work :=
  cancelTasks g.gid g.tasks.length (w.setGraph g.gid (fun g => { g with ttCancelled := true, silent := g.silent || silent }))

theorem cancelGraphs_eq (w : Work) (p : Graph → Bool) (silent : Bool) :
    w.cancelGraphs p silent = (w.each (w.dev.graphs.filter (fun g => p g && g.valid && !g.ended)) (cancelOne silent)).recheck := rfl

theorem mark_allFaded (w : Work) (gid : Nat) (silent : Bool) :
    AllFaded w (w.setGraph gid (fun g => { g with ttCancelled := true, silent := g.silent || silent })) :=
  setGraph_allFaded fun _ => ⟨rfl, rfl, rfl, rfl, rfl, fun _ h => h⟩

theorem cancelOne_allFaded (silent : Bool) (g : Graph) (w : Work) : AllFaded w (cancelOne silent g w) :=
  (mark_allFaded w g.gid silent).trans (cancelTasks_allFaded ..)

theorem each_cancelOne_settled {silent : Bool} {l : List Graph} {w : Work} (hnodup : (w.dev.graphs.map (·.gid)).Nodup) {g : Graph}
    (hg : g ∈ l) : SettledBelow g.gid g.tasks.length (w.each l (cancelOne silent)) := by
  induction l generalizing w with
  | nil => cases hg
  | cons x t ih =>
    rw [Work.each_cons]
    rcases List.mem_cons.mp hg with rfl | hg
    · have hmarked := (mark_allFaded w g.gid silent).gids ▸ hnodup
      exact (cancelTasks_settled g.gid g.tasks.length hmarked).of_faded (.each (cancelOne_allFaded silent) t _)
    · exact ih ((cancelOne_allFaded silent x w).gids ▸ hnodup) hg

theorem Machine.Graph.ended_iff {g : Graph} : g.ended = true ↔ ∀ (j : Nat) (t : Task), g.tasks[j]? = some t → t.state.live = false := by
  simp only [Graph.ended, List.all_eq_true, Bool.not_eq_true']
  exact ⟨fun h j t ht => h t (List.mem_of_getElem? ht), fun h t ht => (List.mem_iff_getElem?.mp ht).elim fun j hj => h j t hj⟩

/-- After the cancellation no task of a named graph is live. -/
theorem cancelGraphs_ended {w : Work} {p : Graph → Bool} (hp : ∀ g h : Graph, g.queue = h.queue → g.tag = h.tag → p g = p h)
    (hnodup : (w.dev.graphs.map (·.gid)).Nodup) {g' : Graph} (hg' : g' ∈ (w.cancelGraphs p false).dev.graphs) (hnamed : p g' = true)
    (hvalid : g'.valid = true) : g'.ended = true := by
  rw [cancelGraphs_eq] at hg'
  generalize hnamedGraphs : w.dev.graphs.filter (fun g => p g && g.valid && !g.ended) = named at hg'
  have hlast := recheck_allFaded (w.each named (cancelOne false))
  obtain ⟨g, hg, hfaded⟩ := ((AllFaded.each (cancelOne_allFaded false) named w).trans hlast).exists_mem hg'
  cases hended : g.ended
  case true => exact Graph.ended_iff.mpr fun j => hfaded.settled j (Graph.ended_iff.mp hended j)
  case false =>
    have hmem : g ∈ named := by
      rw [← hnamedGraphs, List.mem_filter]
      exact ⟨hg, by simp [hended, ← hfaded.valid, hvalid, ← hp g' g hfaded.queue hfaded.tag, hnamed]⟩
    have hsettled := (each_cancelOne_settled (silent := false) hnodup hmem).of_faded hlast
    refine Graph.ended_iff.mpr fun j t ht => hsettled g' hg' hfaded.gid j ?_ t ht
    exact hfaded.length ▸ (List.getElem?_eq_some_iff.mp ht).1

/-! ### The registers (R58, R70, R283) -/

theorem fld_eq (w : Word) (hi lo : Nat) : fld w hi lo = w.toNat / 2 ^ lo % 2 ^ (hi + 1 - lo) := rfl

theorem toNat_cancelWord {scope q : Nat} (hscope : scope ≤ 2) (hq : q < 1024) : (atBit scope 30 ||| atBit q 0).toNat = scope * 2 ^ 30 + q := by
  rw [toNat_or_of_apart 30 (by rw [toNat_atBit]; omega) (by rw [toNat_atBit]; omega), toNat_atBit, toNat_atBit]
  omega

/-- TT_CANCEL, accepted, cancels the graphs that its scope names. -/
theorem writeCancel_eq {w : Work} {who : Agent} {scope q : Nat} (hscope : scope ≤ 2) (hq : q < 1024) :
    w.writeCancel who (atBit scope 30 ||| atBit q 0) = .ok (w.cancelGraphs (fun g =>
      if scope = 0 then g.queue == q && g.tag == (look 0 (writerOf who) w.dev.cancelTags).toNat
      else if scope = 1 then g.queue == q else g.ctx == q / 32) false) := by
  have hscopeFld : fld (atBit scope 30 ||| atBit q 0) 31 30 = scope := by
    rw [fld_eq, toNat_cancelWord hscope hq]; omega
  have hqFld : fld (atBit scope 30 ||| atBit q 0) 9 0 = q := by
    rw [fld_eq, toNat_cancelWord hscope hq]; omega
  simp only [Work.writeCancel, hscopeFld, hqFld]
  rw [need_of_true (by simpa using hscope)]
  rfl

theorem fld_ctx {ctx : Nat} (h : ctx < 32) : fld (BitVec.ofNat 32 ctx) 4 0 = ctx := by
  rw [fld_eq, BitVec.toNat_ofNat]; omega

theorem xlateInvDone_work {w : Work} {ctx : Nat} (h : w.dev.ttInvDue = some ctx) : xlateInvDoneWork w
    = w.upd (fun d => { d with ttInvDue := none, xheld := dropRange (ctx * 2 ^ 80) ((ctx + 1) * 2 ^ 80) d.xheld }) := by
  simp only [xlateInvDoneWork, h]

theorem syXlateInvDone_work {w : Work} {ctx : Nat} (h : w.dev.sync.invDue = some ctx) : syXlateInvDoneWork w
    = w.updSync (fun y => { y with invDue := none, held := dropRange (ctx * 2 ^ 48) ((ctx + 1) * 2 ^ 48) y.held }) := by
  simp only [syXlateInvDoneWork, h]

/-- Settles O20: fading carries "no live task" through the cancellation; the rest are the effects of the registers. -/
theorem cancelNamesGraphs : Obligations.CancelNamesGraphs := by
  refine ⟨⟨fun s who q hq => ⟨fun hacc => ?_, fun hacc => ?_, fun hacc => ?_⟩, fun w p hp hnodup g hg hnamed hvalid => ?_⟩,
    fun s who ctx hctx => ⟨fun hacc hdue => ?_, fun hdue => ?_, fun hacc hdue => ?_, fun hdue => ?_⟩⟩
  · exact runs_poke rfl hacc (writeCancel_eq (by decide) hq)
  · exact runs_poke rfl hacc (writeCancel_eq (by decide) hq)
  · exact runs_poke rfl hacc (writeCancel_eq (by decide) hq)
  · exact cancelGraphs_ended hp hnodup hg hnamed hvalid
  · have heff : s.work.writeEffect pgTt (regOf pgTt .ttXlateInv) 0 who (BitVec.ofNat 32 ctx) false = .ok (s.work.xlateInv ctx) := by
      change (do need s.dev.ttInvDue.isNone .state; return s.work.xlateInv (fld (BitVec.ofNat 32 ctx) 4 0)) = _
      rw [hdue, fld_ctx hctx]
      rfl
    exact runsTo_of_runs (runs_poke rfl hacc heff) rfl
  · exact runsTo_of_runs (runs_of_work rfl (xlateInvDone_work hdue)) rfl
  · have heff : s.work.writeEffect pgSy (regOf pgSy .syXlateInv) 0 who (BitVec.ofNat 32 ctx) false
        = .ok (s.work.updSync (fun y => { y with invDue := some ctx })) := by
      change (do need s.dev.sync.invDue.isNone .state; return s.work.updSync (fun y => { y with invDue := some (fld (BitVec.ofNat 32 ctx) 4 0) })) = _
      rw [hdue, fld_ctx hctx]
      rfl
    exact runsTo_of_runs (runs_poke rfl hacc heff) rfl
  · exact runsTo_of_runs (runs_of_work rfl (syXlateInvDone_work hdue)) rfl

end Sys2Proof
end

section
/-! SUPPORT. The Hawker: the request that leaves and the fetch that flies for it (R255 to R262). -/

namespace Sys2Proof

open Machine

/-! ### A fetch leaves (R257, R265) -/

/-- The fetch that leaves carries the present generation of its home slot; nothing is written. -/
theorem addFetch_spec (w : Work) (i : Inst) (unit : Nat) (dest : Dest) (phys : Bool) (pieces span : List (Nat × Nat)) (copy : List PByte)
    (remote : Option (Nat × Nat)) (cached : Bool) :
    ∃ f : Fetch, (w.addFetch i unit dest phys pieces span copy remote cached).dev.fetches = w.dev.fetches ++ [f]
      ∧ (w.addFetch i unit dest phys pieces span copy remote cached).out = w.out
      ∧ f.copy = copy ∧ f.pieces = pieces ∧ f.iid = i.iid ∧ f.dest = dest ∧ f.cached = cached ∧ f.remote = remote
      ∧ (f.home, f.slot) = (w.addFetch i unit dest phys pieces span copy remote cached).dev.homeSlot i
      ∧ f.gen = (w.addFetch i unit dest phys pieces span copy remote cached).gen f.home f.slot :=
  ⟨_, rfl, rfl, rfl, rfl, rfl, rfl, rfl, rfl, rfl, rfl⟩

theorem noteList_out (w : Work) (i : Inst) (t : Task) : (w.noteList i t).out = w.out := by
  unfold Work.noteList
  split
  · split <;> rfl
  · split
    · rfl
    · split <;> rfl

theorem noteList_fetches (w : Work) (i : Inst) (t : Task) : (w.noteList i t).dev.fetches = w.dev.fetches := by
  unfold Work.noteList
  split
  · split <;> rfl
  · split
    · rfl
    · split <;> rfl

/-! ### The request of a stream (R258, R260, R41) -/

/-- A request that has its bytes goes on its way. -/
def flightOf (i : Inst) (t : Task) (a : Ask) (w : Work) (l : List PByte) (cached : Bool) : Work :=
  let w := w.count ⟨.hk, i.cluster⟩ 4 (if i.started || i.isLane then 0 else a.n)
  let w := w.whenB (t.kind == some .matchT && a.req.stream == sNeigh) (fun w => w.noteList i t)
  let w := w.setInst i.iid (fun i => { i with issued := i.issued + (if a.req.idx = 0 then 0 else a.n / a.req.idx) })
  w.addFetch i 0 (.stream a.req.stream a.req.item a.part a.req.split.length) false [(a.va, a.n)] a.req.pieces l none cached

theorem flightOf_spec (i : Inst) (t : Task) (a : Ask) (w : Work) (l : List PByte) (cached : Bool) :
    ∃ f : Fetch, (flightOf i t a w l cached).dev.fetches = w.dev.fetches ++ [f] ∧ (flightOf i t a w l cached).out = w.out
      ∧ f.copy = l ∧ f.pieces = [(a.va, a.n)] ∧ f.iid = i.iid
      ∧ f.dest = .stream a.req.stream a.req.item a.part a.req.split.length ∧ f.cached = cached ∧ f.remote = none
      ∧ (f.home, f.slot) = (flightOf i t a w l cached).dev.homeSlot i ∧ f.gen = (flightOf i t a w l cached).gen f.home f.slot := by
  obtain ⟨f, hfetches, hout, hf⟩ := addFetch_spec
    (((w.count ⟨.hk, i.cluster⟩ 4 (if i.started || i.isLane then 0 else a.n)).whenB (t.kind == some .matchT && a.req.stream == sNeigh)
      (fun w => w.noteList i t)).setInst i.iid (fun i => { i with issued := i.issued + (if a.req.idx = 0 then 0 else a.n / a.req.idx) }))
    i 0 (.stream a.req.stream a.req.item a.part a.req.split.length) false [(a.va, a.n)] a.req.pieces l none cached
  refine ⟨f, hfetches.trans ?_, hout.trans ?_, hf⟩
  all_goals cases t.kind == some .matchT && a.req.stream == sNeigh
  · exact congrArg (· ++ [f]) (Work.count_fetches ..)
  · exact congrArg (· ++ [f]) ((noteList_fetches ..).trans (Work.count_fetches ..))
  · exact Work.count_out ..
  · exact (noteList_out ..).trans (Work.count_out ..)

/-- The piece that a request reads: whole granules for a topology request. -/
def askPiece (a : Ask) : Nat × Nat := if a.req.topo then widen (a.va, a.n) else (a.va, a.n)

/-- What the topology cache answers to a request, once it is counted. -/
def askCache (w : Work) (i : Inst) (a : Ask) : Option (List PByte) × Work :=
  if a.req.topo then (w.count ⟨.hk, i.cluster⟩ 0).tcRead i.cluster (w.dev.ctxOf i.gid) [askPiece a] (i.reader w.dev)
  else (none, w.count ⟨.hk, i.cluster⟩ 0)

/-- What memory answers to a request that the cache does not serve; `r` reads for it. -/
def askMemory (v : Work) (ctx : Nat) (r : Reader) (i : Inst) (a : Ask) : Except Nat (List PByte) × Work :=
  let v := if a.req.topo then v.count ⟨.hk, i.cluster⟩ 3 else v
  if a.first then v.readVa ctx (askPiece a).1 (askPiece a).2 r else v.readLater ctx (askPiece a).1 (askPiece a).2 r

/-- A request served by the cache flies with the lines it touched; otherwise it flies with what memory holds, or fails. -/
theorem issueReq_eq (w : Work) (i : Inst) (t : Task) (a : Ask) :
    w.issueReq i t a = match (askCache w i a).1 with
      | some l =>
        flightOf i t a (((askCache w i a).2.count ⟨.hk, i.cluster⟩ 2).tcTouch i.cluster (w.dev.ctxOf i.gid) [askPiece a] (i.reader w.dev)) l true
      | none => match askMemory (askCache w i a).2 (w.dev.ctxOf i.gid) (i.reader w.dev) i a with
        | (.error e, x) => x.failInst i (t.page i.cluster) .xlate (leBytes 8 e)
        | (.ok l, x) => flightOf i t a (x.count ⟨.hk, i.cluster⟩ 1
            (if a.first then chargedBytes [(a.va, a.n)] else 64 * granuleCount [laterPart (askPiece a).1 (askPiece a).2])) l false := by
  unfold Work.issueReq askCache askMemory askPiece
  dsimp only
  cases a.req.topo <;> rfl

theorem hawkerFetchIssue_work {w : Work} {c : Nat} {i : Inst} {a : Ask} {t : Task} (hon : w.pageOn ⟨.hk, c⟩ = true)
    (htags : w.dev.tags c < 2048) (hpick : w.hawkerPick c = some (i, a)) (ht : i.task? w.dev = some t) :
    hawkerFetchIssueWork c w = w.issueReq i t a := by
  rw [hawkerFetchIssueWork, if_neg (by simp [hon, htags]), hpick]
  dsimp only
  rw [ht]

/-- A flight that starts from a view with the fetches and the writes of `y` is the one fetch that is added. -/
theorem flies_of_flight {c : Instr} {s : State} {i : Inst} {t : Task} {a : Ask} {y z : Work} {l : List PByte} {cached : Bool}
    (hfetches : z.dev.fetches = y.dev.fetches) (hout : z.out = y.out) (hruns : Runs c s (flightOf i t a z l cached)) :
    ∃ u : State, exec c s = .next u ∧ ∃ f : Fetch,
      u.dev.fetches = y.dev.fetches ++ [f] ∧ u.mem = s.mem.writeAll y.out ∧ f.copy = l ∧ f.pieces = [(a.va, a.n)]
        ∧ f.iid = i.iid ∧ f.dest = .stream a.req.stream a.req.item a.part a.req.split.length ∧ f.cached = cached ∧ f.remote = none
        ∧ (f.home, f.slot) = u.dev.homeSlot i ∧ f.gen = u.work.gen f.home f.slot := by
  obtain ⟨f, hf, hw, hfields⟩ := flightOf_spec i t a z l cached
  exact ⟨_, hruns, f, hf.trans (by rw [hfetches]), congrArg s.mem.writeAll (hw.trans hout), hfields⟩

/-! ### TC_FLUSH (R261, R276) -/

theorem writeTcCfg_flush {w : Work} {p : Page} {r : Reg} {v : Word} (h : bitOf v 0 = true) :
    w.writeTcCfg p r v = (w.storeRw p r 0 v).setCluster p.num (fun cl => { cl with tc := [] }) :=
  if_pos (.inl h)

/-- Settles O22: the request that is picked, by what serves it. -/
theorem streamRequestIsIssued : Obligations.StreamRequestIsIssued := by
  constructor
  · intro s c i a t w hon htags hpick ht v ctx p hit miss x flies
    have hruns := runs_of_work (c := .hawkerFetchIssue c) (s := s) (f := fun w => hawkerFetchIssueWork c (w.stepBeat c)) rfl
      (hawkerFetchIssue_work hon htags hpick ht)
    have hhit : askCache w i a = hit := rfl
    have hmem : askMemory hit.2 ctx (i.reader w.dev) i a = x := rfl
    clear_value hit
    refine ⟨hruns, fun l hl => ?_, fun l hl hx => ?_, fun e hl hx => ?_⟩
    · rw [issueReq_eq, hhit, hl] at hruns
      exact flies_of_flight rfl rfl hruns
    · rw [issueReq_eq, hhit, hl] at hruns
      dsimp only at hruns
      rw [hmem] at hruns
      generalize x = y at hx hruns
      obtain ⟨r, z⟩ := y
      cases hx
      exact flies_of_flight (Work.count_fetches ..) (Work.count_out ..) hruns
    · rw [issueReq_eq, hhit, hl] at hruns
      dsimp only at hruns
      rw [hmem] at hruns
      generalize x = y at hx hruns
      obtain ⟨r, z⟩ := y
      cases hx
      exact hruns
  · intro s who c en hacc
    refine runs_poke rfl hacc (congrArg Except.ok (writeTcCfg_flush ?_))
    cases en <;> decide

end Sys2Proof
end

section
/-! SUPPORT. The arrival of a fetch, by its generation and its destination (R257, R264, R265). -/

namespace Sys2Proof

open Machine

/-- A fetch that brings topology: whole granules come (R260). -/
def Machine.Fetch.topo (f : Fetch) : Bool := ((f.dest.unit?).map (fun u => topoStream u.1)).getD false
def Machine.Fetch.wide (f : Fetch) : List (Nat × Nat) := if f.topo then f.pieces.map widen else f.pieces

/-- The bytes that come, and the view they come into. -/
def comeIn (w : Work) (id : Nat) (f : Fetch) (es : List CellError) : List PByte × Work :=
  if f.cached then (f.copy, w.dropFetch id) else (w.dropFetch id).arrived f.ctx f.phys f.wide f.copy es (w.dev.fetchReader f)

/-- What is counted of them, and kept by the topology cache. -/
def noteArrival (f : Fetch) (stale : Bool) (rd : Reader) (r : List PByte × Work) : Work :=
  let n := ((granulesOf f.wide).filter (fun (_, len, off) => ((r.1.drop off).take len).any (·.2))).length
  ((r.2.count ⟨.hk, f.cluster⟩ 7 (if stale then 0 else n)).poisonRead f.gid n).whenB (f.topo && !f.cached)
    (fun w => w.tcFill f.cluster f.ctx f.wide r.1 rd)

/-- Where bytes go, by the destination of their fetch. -/
def landAt (f : Fetch) (stale : Bool) (w : Work) (l : List PByte) : Work :=
  match f.dest with
  | .row ref => w.landRow f.iid ref l
  | .stream s item part total =>
    match w.dev.inst? f.iid, w.dev.task? f.gid f.ti with
    | some i, some t => w.landUnit i t f s item part total l
    | _, _ => w
  | .copy desc _ va first last => w.landCopy f stale desc va first last l
  | .mcast row => w.landStream f row l

theorem landAt_stream {f : Fetch} {stale : Bool} {w : Work} {l : List PByte} {s item part total : Nat} {i : Inst} {t : Task}
    (hdest : f.dest = .stream s item part total) (hi : w.dev.inst? f.iid = some i) (ht : w.dev.task? f.gid f.ti = some t) :
    landAt f stale w l = w.landUnit i t f s item part total l := by
  simp only [landAt, hdest, hi, ht]

theorem fetchArrive_stale {w : Work} {id : Nat} {es : List CellError} {f : Fetch} (hf : w.dev.fetches.find? (fun f => f.id == id) = some f)
    (hremote : f.remote = none) (hstale : w.stale f = true) (hfill : w.shelfFill f = false) :
    fetchArriveWork id es w = (w.dropFetch id).countStale f f.bytes := by
  rw [fetchArriveWork, hf]
  dsimp only
  rw [if_neg (by simp [hremote]), if_pos (by simp [hstale, hfill])]

theorem fetchArrive_lands {w : Work} {id : Nat} {es : List CellError} {f : Fetch} (hf : w.dev.fetches.find? (fun f => f.id == id) = some f)
    (hremote : f.remote = none) (hgo : w.stale f = false ∨ w.shelfFill f = true) :
    fetchArriveWork id es w = landAt f (w.stale f) (noteArrival f (w.stale f) (w.dev.fetchReader f) (comeIn w id f es))
      (if f.topo then cutPieces f.pieces (comeIn w id f es).1 else (comeIn w id f es).1) := by
  rw [fetchArriveWork, hf]
  dsimp only
  rw [if_neg (by simp [hremote]), if_neg (by rcases hgo with h | h <;> simp [h])]
  rfl

/-- A unit that comes in one part lands whole. -/
theorem land_whole {i : Inst} {st item : Nat} (l : List PByte) (h : ∀ p ∈ i.parts, ¬ (p.stream = st ∧ p.item = item)) :
    i.land st item 0 1 l = { i with landed := i.landed ++ [⟨st, item, l⟩] } := by
  have hnone : i.parts.filter (fun x => x.stream == st && x.item == item) = [] := by
    simpa [List.filter_eq_nil_iff] using h
  have hall : i.parts.filter (fun x => !(x.stream == st && x.item == item)) = i.parts := by
    exact List.filter_eq_self.mpr fun p hp => by
      rw [Bool.not_eq_true', Bool.and_eq_false_iff, beq_eq_false_iff_ne, beq_eq_false_iff_ne]
      exact Decidable.not_and_iff_or_not.mp (h p hp)
  have hfind : i.parts.find? (fun x => (x.stream == st && x.item == item) && x.part == 0) = none := by
    rw [List.find?_eq_none]
    intro p hp hp'
    exact h p hp (by simp only [Bool.and_eq_true, beq_iff_eq] at hp'; exact hp'.1)
  unfold Inst.land
  dsimp only
  rw [List.filter_append, hnone, if_neg (by simp), List.filter_append, hall]
  simp [List.find?_append, hfind]

/-- Settles O23: each destination of a fetch that is not dropped, and the drop of a stale one. -/
theorem fetchLandsOrIsDropped : Obligations.FetchLandsOrIsDropped := by
  refine ⟨fun s id es f hf hremote => ?_, fun i st item l h => land_whole l h⟩
  have hlands (hgo : s.work.stale f = false ∨ s.work.shelfFill f = true) :=
    runs_of_work (c := .fetchArrive id es) rfl (fetchArrive_lands (w := s.work) (es := es) hf hremote hgo)
  intro topo wide r n w l
  refine ⟨fun hstale hfill => ⟨runs_of_work rfl (fetchArrive_stale hf hremote hstale hfill), by simp; rfl⟩, ?_, ?_, ?_, ?_⟩
  · intro ref hstale hdest
    have h := hlands (.inl hstale)
    rwa [landAt, hdest] at h
  · intro st item part total i t hstale hdest hi ht
    have h : Runs _ s (landAt f (s.work.stale f) w l) := hlands (.inl hstale)
    rwa [landAt_stream hdest hi ht] at h
  · intro desc row va first last hgo hdest
    have h := hlands hgo
    rwa [landAt, hdest] at h
  · intro row hdest
    have h := hlands (.inr (by rw [Work.shelfFill, hdest]))
    rwa [landAt, hdest] at h

end Sys2Proof
end

section
/-! SUPPORT. The index that enters the coalescer (R99, R101, R102). -/

namespace Sys2Proof

open Machine

/-- The index that is next in the stream of one whose Gather Unit may act. -/
theorem nextIndex_eq {w : Work} {i : Inst} {t : Task} (ht : i.task? w.dev = some t) (hgathers : w.gathers i t = true)
    (hrows : i.rows.any (fun r => r.st == .queued) = false) (hheld : w.streamHeld i = false) :
    w.nextIndex i = ((i.stream t w.self).1[i.idxPos]?).map (fun x => (t, x)) := by
  simp only [Work.nextIndex, ht, hgathers, hrows, hheld, Bool.true_eq_false, Bool.false_eq_true, or_self, if_false]

theorem gatherIndex_work {w : Work} {c k : Nat} {i : Inst} {t : Task} {x : Idx} (hi : w.dev.instIn? c k = some i)
    (ht : i.task? w.dev = some t) (hgathers : w.gathers i t = true) (hrows : i.rows.any (fun r => r.st == .queued) = false)
    (hheld : w.streamHeld i = false) (hfirst : (w.dev.resident c).any (fun j => w.dev.hawkBefore j i && (w.nextIndex j).isSome) = false)
    (hx : (i.stream t w.self).1[i.idxPos]? = some x) :
    gatherIndexWork c k w = match x.self, x.hub with
      | false, some (first, deg) => w.takeHub i x first deg
      | _, _ => w.takeIndex i t x := by
  rw [gatherIndexWork, hi]
  dsimp only
  rw [hfirst, if_neg Bool.false_ne_true, nextIndex_eq ht hgathers hrows hheld, hx]
  rfl

/-- The stream moves on by one index. -/
def nextPos (w : Work) (i : Inst) (x : Idx) : Work :=
  w.setInst i.iid (fun i => { i with idxPos := i.idxPos + 1, idxTaken := i.idxTaken + b2n (!x.self) })

theorem Machine.inst?_setInst {w : Work} {iid : Nat} {f : Inst → Inst} {i : Inst} (hf : ∀ i, (f i).iid = i.iid) (hi : w.dev.inst? iid = some i) :
    (w.setInst iid f).dev.inst? iid = some (f i) := by
  rw [Dev.inst?, Work.setInst, Work.upd_dev, find?_updFirst (fun x hx => by simpa [hf] using hx)]
  exact congrArg (Option.map f) hi

theorem takeIndex_null {w : Work} {i : Inst} {t : Task} {x : Idx} (h : i.classify t x = .null) :
    w.takeIndex i t x = ((nextPos (w.count ⟨.gu, i.cluster⟩ 0) i x).count ⟨.gu, i.cluster⟩ 9).afterIndex i.iid := by
  rw [Work.takeIndex, h]
  rfl

theorem takeIndex_fault {w : Work} {i : Inst} {t : Task} {x : Idx} {f : StreamFault} (h : i.classify t x = .fault f) :
    w.takeIndex i t x = (w.count ⟨.gu, i.cluster⟩ 0).streamFault i t f := by
  rw [Work.takeIndex, h]

/-- An index whose row is fetched on its own from home: no window, and no earlier row that serves it. -/
theorem serveIndex_alone {w : Work} {i : Inst} {t : Task} {x : Idx} (hsingle : t.gather.noCoalesce = true) (hhome : x.home = none)
    (hscatter : t.gather.scatter = none) (hdir : i.shelfDir t = 0) :
    w.serveIndex i t x false = (w.newRow i x.id 0 .home false).addOcc i.iid x i.nextRef 0 := by
  simp [Work.serveIndex, Work.sourceOf, hsingle, hhome, hscatter, hdir]

theorem takeIndex_alone {w : Work} {i : Inst} {t : Task} {x : Idx} (h : i.classify t x = .row) (hi : w.dev.inst? i.iid = some i)
    (hsingle : t.gather.noCoalesce = true) (hhome : x.home = none) (hscatter : t.gather.scatter = none) (hdir : i.shelfDir t = 0) :
    w.takeIndex i t x = (((nextPos (w.count ⟨.gu, i.cluster⟩ 0) i x).newRow i x.id 0 .home false).addOcc i.iid x i.nextRef
      0).afterIndex i.iid := by
  have hj : (nextPos (w.count ⟨.gu, i.cluster⟩ 0) i x).dev.inst? i.iid
      = some { i with idxPos := i.idxPos + 1, idxTaken := i.idxTaken + b2n (!x.self) } :=
    inst?_setInst (fun _ => rfl) (by rw [Dev.inst?, Work.count_insts]; exact hi)
  rw [Work.takeIndex, h]
  simp only [hsingle, true_or, if_true]
  rw [← nextPos, hj]
  exact congrArg (Work.afterIndex · i.iid) (serveIndex_alone hsingle hhome hscatter hdir)

/-- Settles O24: what the index is decides. -/
theorem indexEntersTheCoalescer : Obligations.IndexEntersTheCoalescer := by
  intro s c k i t
  constructor
  · intro w hi hself ht hgathers hrows hheld hfirst x hx v
    have hruns := runs_of_work (c := .gatherIndex c k) (s := s) (f := fun w => gatherIndexWork c k (w.stepBeat c)) rfl
      (gatherIndex_work hi ht hgathers hrows hheld hfirst hx)
    refine ⟨fun first deg hown hhub => ?_, fun hretail => ?_⟩
    · rwa [hown, hhub] at hruns
    · have htake : Runs (.gatherIndex c k) s (w.takeIndex i t x) := by
        rcases hretail with hown | hhub
        · rwa [hown] at hruns
        · rw [hhub] at hruns
          cases hown : x.self <;> rwa [hown] at hruns
      refine ⟨htake, fun hnull => ?_, fun f hfault => ?_, fun hrow hsingle hhome hscatter hdir => ?_⟩
      · rwa [takeIndex_null hnull] at htake
      · rwa [takeIndex_fault hfault] at htake
      · rwa [takeIndex_alone hrow hself hsingle hhome hscatter hdir] at htake
  · intro hi ht hopen hidle hgathers
    refine runs_of_work rfl ?_
    simp only [windowIdleTimeoutWork, State.work_dev, hi, ht]
    exact if_pos ⟨hopen, hidle, hgathers⟩

end Sys2Proof
end

section
/-! SUPPORT. The fetch of a row, by its source (R100, R108, R111, R112), and a remote request that is not answered (R114). -/

namespace Sys2Proof

open Machine

theorem rowFetchIssue_work {w : Work} {c k : Nat} {i : Inst} {t : Task} {r : RowEnt} (hi : w.dev.instIn? c k = some i)
    (ht : i.task? w.dev = some t) (hr : i.rows.find? (fun r => r.st == .queued) = some r) (hgathers : w.gathers i t = true)
    (htags : w.dev.tags c < 2048) (hslot : w.slotFree i t r = true) : rowFetchIssueWork c k w = w.fetchRow i t r := by
  simp only [rowFetchIssueWork, hi, ht, hr]
  exact if_neg (by simp [hgathers, htags, hslot])

theorem fetchRow_shelf {w : Work} {i : Inst} {t : Task} {r : RowEnt} {d off : Nat} (hsrc : r.src = .shelf d off)
    (hbacked : w.backed (slicePhys d (off * 64)) (i.rowPiece t r).2 = true) :
    w.fetchRow i t r
      = ((((w.readPhys (slicePhys d (off * 64)) (i.rowPiece t r).2 (i.reader w.dev)).2.count ⟨.gu, i.cluster⟩ 3).count ⟨.gu, i.cluster⟩ 8
          (chargedBytes [(slicePhys d (off * 64), (i.rowPiece t r).2)])).rowState i.iid r.ref .flying).addFetch i 1 (.row r.ref) true
          [(slicePhys d (off * 64), (i.rowPiece t r).2)] [(slicePhys d (off * 64), (i.rowPiece t r).2)]
          (w.readPhys (slicePhys d (off * 64)) (i.rowPiece t r).2 (i.reader w.dev)).1 none := by
  rw [Work.fetchRow, hsrc]
  exact if_neg fun h => Bool.false_ne_true (h.symm.trans hbacked)

theorem fetchRow_shelf_unbacked {w : Work} {i : Inst} {t : Task} {r : RowEnt} {d off : Nat} (hsrc : r.src = .shelf d off)
    (hbacked : w.backed (slicePhys d (off * 64)) (i.rowPiece t r).2 = false) :
    w.fetchRow i t r = w.failInst i ⟨.gu, i.cluster⟩ .xlate (leBytes 8 (i.rowPiece t r).1) := by
  rw [Work.fetchRow, hsrc]
  exact if_pos hbacked

/-- What the read of a row's address answers decides: its bytes fly, or the task fails. -/
def fetchAddressed (w : Work) (i : Inst) (t : Task) (r : RowEnt) : Work :=
  match w.readVa (w.dev.ctxOf i.gid) (i.rowPiece t r).1 (i.rowPiece t r).2 (i.reader w.dev) with
  | (.error e, v) => v.failInst i ⟨.gu, i.cluster⟩ .xlate (leBytes 8 e)
  | (.ok l, v) =>
    let y := v.tierCounter (w.dev.ctxOf i.gid) (i.rowPiece t r).1 (i.reader w.dev)
    (((y.2.count ⟨.gu, i.cluster⟩ y.1).count ⟨.gu, i.cluster⟩ 8 (chargedBytes [i.rowPiece t r])).rowState i.iid r.ref .flying).addFetch i 1
      (.row r.ref) false [i.rowPiece t r] [i.rowPiece t r] l none

theorem fetchRow_addressed {w : Work} {i : Inst} {t : Task} {r : RowEnt}
    (hsrc : r.src = .home ∨ (∃ e, r.src = .sourceRow e) ∨ (r.src = .default ∧ (i.rowPiece t r).1 ≠ 0)) :
    w.fetchRow i t r = fetchAddressed w i t r := by
  rcases hsrc with hsrc | ⟨e, hsrc⟩ | ⟨hsrc, hva⟩ <;> rw [Work.fetchRow, hsrc]
  · exact if_neg (by simp)
  · exact if_neg (by simp)
  · exact if_neg fun h => hva h.2

theorem fetchRow_zeros {w : Work} {i : Inst} {t : Task} {r : RowEnt} (hsrc : r.src = .default) (hva : (i.rowPiece t r).1 = 0) :
    w.fetchRow i t r = w.landRow i.iid r.ref (List.replicate (i.rowPiece t r).2 (0, false)) := by
  rw [Work.fetchRow, hsrc]
  exact if_pos ⟨rfl, hva⟩

theorem fetchRow_unreachable {w : Work} {i : Inst} {t : Task} {r : RowEnt} {d n : Nat} (hsrc : r.src = .remote d)
    (hreach : w.reach d none = .error n) : w.fetchRow i t r = w.failInst i ⟨.gu, i.cluster⟩ .linkLost (leBytes 1 n) := by
  rw [Work.fetchRow, hsrc]
  dsimp only
  rw [hreach]

theorem fetchRow_remote {w v : Work} {i : Inst} {t : Task} {r : RowEnt} {d port : Nat} (hsrc : r.src = .remote d)
    (hreach : w.reach d none = .ok port)
    (hv : v = (((w.count ⟨.gu, i.cluster⟩ 7).count ⟨.gu, i.cluster⟩ 8 (chargedBytes [(0, (i.rowPiece t r).2)])).rowState i.iid r.ref
      .flying).addFetch i 1 (.row r.ref) false [i.rowPiece t r] [i.rowPiece t r] [] (some (d, r.row))) :
    w.fetchRow i t r = v.sendPacket port (mkPacket 2 0 (w.dev.ctxOf i.gid) d v.self
      (leBytes 4 w.dev.nextId ++ leBytes 2 t.gather.remoteTable) (some (leBytes 8 r.row ++ leBytes 4 (i.rowPiece t r).2)) []) := by
  subst hv
  rw [Work.fetchRow, hsrc]
  dsimp only
  rw [hreach]

/-- A remote request that times out with its task live. -/
theorem remoteTimeout_work {w : Work} {id : Nat} {f : Fetch} {i : Inst} {t : Task}
    (hf : w.dev.fetches.find? (fun f => f.id == id && f.remote.isSome) = some f) (hstale : ((w.passTo f.dueAt).dropFetch id).stale f = false)
    (hi : ((w.passTo f.dueAt).dropFetch id).dev.inst? f.iid = some i) (ht : i.task? ((w.passTo f.dueAt).dropFetch id).dev = some t)
    (hlive : t.state.live = true) : remoteTimeoutWork id w
      = ((((w.passTo f.dueAt).dropFetch id).raise ⟨.gu, f.cluster⟩ .remoteTimeout ⟨2, some f.ctx, t.gather.remoteTable, f.cluster, []⟩).failOnly
          f.gid f.ti Err.remoteTimeout.code) := by
  rw [remoteTimeoutWork, hf]
  dsimp only
  rw [hstale, if_neg Bool.false_ne_true, hi]
  dsimp only
  rw [ht]
  exact if_pos hlive

/-- Settles O25: one clause for each source of the row. -/
theorem rowFetchIsIssued : Obligations.RowFetchIsIssued := by
  constructor
  · intro s c k i t r w hi ht hr hgathers htags hslot
    have hruns := runs_of_work (c := .rowFetchIssue c k) (s := s) (f := fun w => rowFetchIssueWork c k (w.stepBeat c)) rfl
      (rowFetchIssue_work hi ht hr hgathers htags hslot)
    refine ⟨hruns, fun d off hsrc hbacked => ?_, fun d off hsrc hbacked => ?_, fun hsrc => ?_, fun hsrc hva => ?_, fun d hsrc => ?_⟩
    · rwa [fetchRow_shelf hsrc hbacked] at hruns
    · rwa [fetchRow_shelf_unbacked hsrc hbacked] at hruns
    · rw [fetchRow_addressed hsrc, fetchAddressed] at hruns
      intro p x y
      have hx : w.readVa (w.dev.ctxOf i.gid) p.1 p.2 (i.reader w.dev) = x := rfl
      rw [hx] at hruns
      clear_value x
      obtain ⟨a, v⟩ := x
      refine ⟨fun l hl => ?_, fun e he => ?_⟩
      · cases hl; exact hruns
      · cases he; exact hruns
    · rwa [fetchRow_zeros hsrc hva] at hruns
    · refine ⟨fun port hreach => ?_, fun n hreach => ?_⟩
      · rwa [fetchRow_remote hsrc hreach rfl] at hruns
      · rwa [fetchRow_unreachable hsrc hreach] at hruns
  · intro s id f i t hf w hstale hi ht hlive
    exact runs_of_work rfl (remoteTimeout_work (w := s.work) hf hstale hi ht hlive)

end Sys2Proof
end

section
/-! SUPPORT. Scatter updates: the combining queue, the area of a die node, its application and the report (R115 to R117, R138, R141,
R164, R165). -/

namespace Sys2Proof

open Machine

/-! ### The first of the best in a list -/

theorem ite_cases {α : Type} (c : Prop) [Decidable c] (a b : α) : (if c then a else b) = b ∨ (if c then a else b) = a := by
  split
  · exact .inr rfl
  · exact .inl rfl

/-- A fold that keeps the better of what it holds and what it meets answers `e`, when `e` is better than all before it and nothing
after it is better than `e`. -/
theorem foldl_keeps_best {α : Type} {f : Option α → α → Option α} {e : α} {l₁ l₂ : List α} (hnone : ∀ x, f none x = some x)
    (hone : ∀ y x, f (some y) x = some y ∨ f (some y) x = some x) (hbefore : ∀ y ∈ l₁, f (some y) e = some e)
    (hafter : ∀ x ∈ l₂, f (some e) x = some e) : (l₁ ++ e :: l₂).foldl f none = some e := by
  have hend : l₂.foldl f (some e) = some e := by
    clear hnone hone hbefore
    induction l₂ with
    | nil => rfl
    | cons x t ih =>
      rw [List.foldl_cons, hafter x List.mem_cons_self]
      exact ih fun y hy => hafter y (List.mem_cons_of_mem x hy)
  have hmid (b : Option α) (hb : b = none ∨ ∃ y, b = some y ∧ f (some y) e = some e) : (l₁ ++ e :: l₂).foldl f b = some e := by
    induction l₁ generalizing b with
    | nil =>
      rw [List.nil_append, List.foldl_cons]
      rcases hb with rfl | ⟨y, rfl, hy⟩
      · rw [hnone]; exact hend
      · rw [hy]; exact hend
    | cons x t ih =>
      have hx := hbefore x List.mem_cons_self
      refine ih (fun y hy => hbefore y (List.mem_cons_of_mem x hy)) _ (.inr ?_)
      rcases hb with rfl | ⟨y, rfl, hy⟩
      · exact ⟨x, hnone x, hx⟩
      · rcases hone y x with h | h
        · exact ⟨y, h, hy⟩
        · exact ⟨x, h, hx⟩
  exact hmid none (.inl rfl)

/-- What such a fold answers is in the list, and it answers when the list is not empty. -/
theorem foldl_best_spec {α : Type} {f : Option α → α → Option α} (hnone : ∀ x, f none x = some x)
    (hone : ∀ y x, f (some y) x = some y ∨ f (some y) x = some x) {l : List α} {r : Option α} (h : l.foldl f none = r) :
    (l = [] ∧ r = none) ∨ ∃ e ∈ l, r = some e := by
  have hkeep (t : List α) (y : α) : ∃ e ∈ y :: t, t.foldl f (some y) = some e := by
    induction t generalizing y with
    | nil => exact ⟨y, List.mem_cons_self, rfl⟩
    | cons x t ih =>
      rw [List.foldl_cons]
      rcases hone y x with h | h <;> rw [h]
      · obtain ⟨e, he, hfold⟩ := ih y
        exact ⟨e, by rw [List.mem_cons] at he ⊢; exact he.imp_right (List.mem_cons_of_mem x), hfold⟩
      · obtain ⟨e, he, hfold⟩ := ih x
        exact ⟨e, List.mem_cons_of_mem _ he, hfold⟩
  subst h
  cases l with
  | nil => exact .inl ⟨rfl, rfl⟩
  | cons x t =>
    rw [List.foldl_cons, hnone]
    exact .inr (hkeep t x)

/-! ### SCATTER_UPDATE (R115, R116) -/

section
variable {w : Work} {c k : Nat} {i : Inst} {t : Task} {o : Occ} {r : RowEnt} (hi : w.dev.instIn? c k = some i)
  (ht : i.task? w.dev = some t) (ho : i.occs.head? = some o) (hr : i.rows.find? (fun r => r.ref == o.ref && r.st == .landed) = some r)
  (hgathers : w.gathers i t = true) (hscatter : t.gather.scatter.isSome = true)
include hi ht ho hr hgathers hscatter

/-- The update of the first occurrence as it enters the queue, or is stopped by poison. -/
theorem scatterUpdate_work : scatterUpdateWork c k w
    = if i.stopPolicy ∧ (r.data.any (·.2) ∨ o.idx.weight.p) then w.poisonStop i t (firstPoison (i.rowPiece t r).1 r.data)
      else
        let v := ((w.setInst i.iid (fun i => { i with occs := i.occs.drop 1, rows := i.rows.filter (fun q => q.ref != o.ref) })).count
          ⟨.gu, c⟩ 11).combine i t o.idx.id (i.updateOf t o.idx r.data)
        let l := i.stream t v.self
        let through : Bool := (l.2 && i.idxPos == l.1.length && (i.occs.drop 1).isEmpty)
          || (!t.gather.noCoalesce && ({ i with occs := i.occs.drop 1 } : Inst).drained o.win)
        ((if through then v.flushComb i.iid else v).updateBags i.iid).endScatter i.iid := by
  rw [scatterUpdateWork, hi]
  simp only [ht, ho, hr]
  exact if_neg (by simp [hgathers, Option.isSome_iff_ne_none.mp hscatter])

end

theorem combine_merges {i : Inst} {t : Task} {row : Nat} {e : Comb} (h : i.comb.find? (fun e => e.row == row) = some e) (w : Work)
    (val : List Elem) : w.combine i t row val = w.setInst i.iid (fun i => { i with
      comb := i.comb.filter (fun e => e.row != row)
        ++ [⟨row, (e.val.zip val).map (fun (a, b) => scatterElem (t.gather.scatter.getD .add) t.gather.u32 a b), w.dev.beat⟩] }) := by
  rw [Work.combine, h]

/-! ### The area of a die node (R138, R141) -/

theorem Machine.Accessed.scat {w v : Work} (h : Accessed w v) : v.dev.scat = w.dev.scat := by rw [h]; rfl

theorem readParts_accessed (w : Work) (ps : List (Nat × Nat)) (r : Reader) : Accessed w (w.readParts ps r).2 :=
  .foldl (f := fun (acc : List PByte × Work) (x : Nat × Nat) => (acc.1 ++ (acc.2.readPart x.1 x.2 r).1, (acc.2.readPart x.1 x.2 r).2))
    (fun _ _ => Work.readPart_accessed ..) ps ([], w)

theorem writeParts_accessed (w : Work) (ps : List (Nat × Nat)) (l : List PByte) : Accessed w (w.writeParts ps l) :=
  .foldl (f := fun (acc : List PByte × Work) (x : Nat × Nat) => (acc.1.drop x.2, acc.2.writePart x.1 (acc.1.take x.2)))
    (fun _ _ => Work.writePart_accessed ..) ps (l, w)

/-- The write of a target row leaves the area. -/
theorem writeBack_scat (w : Work) (at_ : List (Nat × Nat)) (out : List PByte) (node gid a b : Nat) :
    (((((w.charge 5 at_).writeParts at_ out).count ⟨.chNode, node⟩ 3).poisonRead gid a).poisonWrote gid b).dev.scat = w.dev.scat :=
  (((Work.charge_accessed w 5 at_).trans (writeParts_accessed _ at_ out)).trans (.count _ ⟨.chNode, node⟩ 3 1)).scat

theorem applyScat_scat (w : Work) (e : ScatEntry) : (w.applyScat e).dev.scat = w.dev.scat := by
  have hread := ((Work.charge_accessed w 4 e.at_).trans (readParts_accessed _ e.at_ ⟨some e.ctx, w.dev.codeOf e.gid e.ti, e.cluster⟩)).scat
  rw [← hread, Work.applyScat]
  generalize (w.charge 4 e.at_).readParts e.at_ ⟨some e.ctx, w.dev.codeOf e.gid e.ti, e.cluster⟩ = x
  obtain ⟨l, v⟩ := x
  dsimp -zeta only
  extract_lets now out u y
  have hy : y.dev.scat = v.dev.scat := writeBack_scat v e.at_ out e.node e.gid _ _
  split
  · exact (Accessed.scat (.count y pgEb 3 _)).trans hy
  · exact hy

/-- The entry that is applied leaves the area. -/
theorem applyHeld_scat (w : Work) (e : ScatEntry) : (w.applyHeld e).dev.scat
    = w.dev.scat.filter (fun x => !(x.held && x.node == e.node && x.target == e.target && x.op == e.op && x.ctx == e.ctx)) :=
  applyScat_scat ..

/-- Entries that a node holds. -/
def heldAt (d : Dev) (node : Nat) : List ScatEntry := d.scat.filter (fun x => x.node == node && x.held)

theorem filter_swap {α : Type} (p q : α → Bool) (l : List α) : (l.filter p).filter q = (l.filter q).filter p := by
  rw [List.filter_filter, List.filter_filter]
  exact List.filter_congr fun x _ => Bool.and_comm ..

theorem length_heldAt_applyHeld {w : Work} {node : Nat} {o : ScatEntry} (ho : o ∈ heldAt w.dev node) :
    (heldAt (w.applyHeld o).dev node).length < (heldAt w.dev node).length := by
  rw [heldAt, applyHeld_scat, filter_swap]
  refine List.length_filter_lt_length_iff_exists.mpr ⟨o, ho, ?_⟩
  obtain ⟨-, ho⟩ := List.mem_filter.mp ho
  simp only [Bool.and_eq_true] at ho
  simp [ho]

theorem scatRoom_of_empty {d : Dev} {node bytes : Nat} (h : heldAt d node = []) (hbytes : bytes ≤ 2097152) : d.scatRoom node bytes = true := by
  rw [Dev.scatRoom, ← heldAt, h]
  simpa using hbytes

theorem makeRoom_of_room {w : Work} {node bytes : Nat} (h : w.dev.scatRoom node bytes = true) : ∀ n, w.makeRoom node bytes n = w
  | 0 => rfl
  | _ + 1 => if_pos h

/-- Each application takes an entry from the area, so enough of them make room. -/
theorem makeRoom_room {node bytes : Nat} (hbytes : bytes ≤ 2097152) : ∀ (n : Nat) (w : Work), (heldAt w.dev node).length ≤ n →
    (w.makeRoom node bytes n).dev.scatRoom node bytes = true
  | 0, w, h => scatRoom_of_empty (List.length_eq_zero_iff.mp (Nat.le_zero.mp h)) hbytes
  | n + 1, w, h => by
    rw [Work.makeRoom]
    split
    case isTrue hroom => exact hroom
    case isFalse hroom =>
      split
      case h_1 o hfold =>
        obtain ⟨-, ⟨⟩⟩ | ⟨e, ho, ⟨⟩⟩ := foldl_best_spec (fun _ => rfl) (fun y x => by dsimp only; split <;> simp) hfold
        exact makeRoom_room hbytes n _ (Nat.lt_succ_iff.mp (Nat.lt_of_lt_of_le (length_heldAt_applyHeld ho) h))
      case h_2 hfold =>
        obtain ⟨hempty, -⟩ | ⟨e, -, ⟨⟩⟩ := foldl_best_spec (fun _ => rfl) (fun y x => by dsimp only; split <;> simp) hfold
        exact absurd (scatRoom_of_empty hempty hbytes) hroom

/-- An entry that arrives, as it leaves the way to its node. -/
def arriving (w : Work) (node : Nat) (e : ScatEntry) : Work :=
  ((w.upd (fun d => { d with scat := dropMoving node d.scat })).count ⟨.chNode, node⟩ 2).count ⟨.chNode, node⟩ 4 (ceilDiv e.body 256)

theorem heldAt_arriving (w : Work) (node : Nat) (e : ScatEntry) :
    heldAt (arriving w node e).dev node = (dropMoving node w.dev.scat).filter (fun x => x.node == node && x.held) := by
  rw [heldAt, arriving, ((Accessed.count ..).trans (Accessed.count ..)).scat]
  rfl

theorem scatterEntryArrive_merged {w : Work} {node : Nat} {e h : ScatEntry} (he : w.dev.scat.find? (fun e => e.node == node && !e.held) = some e)
    (hh : ((dropMoving node w.dev.scat).filter (fun x => x.node == node && x.held)).find?
      (fun x => x.target == e.target && x.op == e.op && x.ctx == e.ctx) = some h) :
    scatterEntryArriveWork node w = (arriving w node e).upd (fun d => { d with
      scat := d.scat.map (fun x => if x.held && x.node == node && x.target == e.target && x.op == e.op && x.ctx == e.ctx then
        { h with val := (h.val.zip e.val).map (fun (a, b) => scatterElem e.op e.u32 a b), stamp := (arriving w node e).dev.beat,
                 update := h.update || e.update, parts := h.parts ++ e.parts } else x) }) := by
  rw [← heldAt_arriving w node e, heldAt] at hh
  rw [scatterEntryArriveWork, he]
  dsimp only
  rw [← arriving, hh]

theorem scatterEntryArrive_new {w : Work} {node : Nat} {e : ScatEntry} (he : w.dev.scat.find? (fun e => e.node == node && !e.held) = some e)
    (hh : ((dropMoving node w.dev.scat).filter (fun x => x.node == node && x.held)).find?
      (fun x => x.target == e.target && x.op == e.op && x.ctx == e.ctx) = none) :
    scatterEntryArriveWork node w
      = ((arriving w node e).makeRoom node e.body ((dropMoving node w.dev.scat).filter (fun x => x.node == node && x.held)).length).upd
        (fun d => { d with
          scat := d.scat ++ [{ e with held := true, stamp := (arriving w node e).dev.beat, since := (arriving w node e).dev.beat }] }) := by
  rw [← heldAt_arriving w node e, heldAt] at hh ⊢
  rw [scatterEntryArriveWork, he]
  dsimp only
  rw [← arriving, hh]

theorem scatterHoldExpire_final {w : Work} {node : Nat} {e : ScatEntry}
    (he : (w.dev.scat.filter (fun x => x.node == node && x.held)).find? (fun e => w.dev.finalSent e) = some e) :
    scatterHoldExpireWork node w = w.applyHeld e := by
  rw [scatterHoldExpireWork, he]

theorem scatterHoldExpire_idle {w : Work} {node : Nat} {e : ScatEntry} {l₁ l₂ : List ScatEntry}
    (hheld : w.dev.scat.filter (fun x => x.node == node && x.held) = l₁ ++ e :: l₂)
    (hfinal : ∀ x ∈ l₁ ++ e :: l₂, w.dev.finalSent x = false)
    (hbefore : ∀ x ∈ l₁, e.stamp < x.stamp) (hafter : ∀ x ∈ l₂, e.stamp ≤ x.stamp) :
    scatterHoldExpireWork node w = (w.passTo (e.stamp + w.rf ⟨.chNode, node⟩ .chNodeCfg 11 0)).applyHeld e := by
  have hnone : (l₁ ++ e :: l₂).find? (fun e => w.dev.finalSent e) = none :=
    List.find?_eq_none.mpr fun x hx => by simp [hfinal x hx]
  rw [scatterHoldExpireWork, hheld, hnone]
  dsimp only
  rw [foldl_keeps_best (e := e) (fun _ => rfl) (fun y x => by dsimp only; split <;> simp)
    (fun y hy => if_neg (Nat.not_le.mpr (hbefore y hy))) (fun x hx => if_pos (hafter x hx))]

/-! ### VERSION_BUMP (R165) -/

theorem drop1_append {c : Nat} {b : BumpDue} {l₁ l₂ : List BumpDue} (hb : b.cluster = c) (h : ∀ x ∈ l₁, x.cluster ≠ c) :
    versionBumpWork.drop1 c (l₁ ++ b :: l₂) = l₁ ++ l₂ := by
  induction l₁ with
  | nil => exact if_pos hb
  | cons x t ih =>
    rw [List.cons_append, versionBumpWork.drop1, if_neg (h x List.mem_cons_self), ih fun y hy => h y (List.mem_cons_of_mem x hy)]
    rfl

/-- The report that is taken, out of those that wait. -/
theorem versionBump_work {w : Work} {b : BumpDue} {l₁ l₂ : List BumpDue} (hbumps : w.dev.bumps = l₁ ++ b :: l₂)
    (h : ∀ x ∈ l₁, x.cluster ≠ b.cluster) :
    versionBumpWork b.cluster w = let v := w.upd (fun d => { d with bumps := l₁ ++ l₂ })
      let rd : Reader := ⟨some b.ctx, b.obj, b.cluster⟩
      if b.dir = 0 then v
      else match v.readBucket b.ctx b.dir rd with
        | (.ok bytes, w) =>
          match matchEntry bytes b.row with
          | some (k, x, _) => ((w.writeVa b.ctx (b.dir + 16 * k) ((leBytes 4 (x % 2 ^ 32 + 1)).map (·, false)) rd).2).count pgEb 4
          | none => w
        | (_, w) => w := by
  have hfind : w.dev.bumps.find? (fun x => x.cluster == b.cluster) = some b := by
    rw [hbumps, List.find?_append, List.find?_eq_none.mpr (by simpa using h)]
    simp
  have hupd : w.upd (fun d => { d with bumps := versionBumpWork.drop1 b.cluster d.bumps }) = w.upd (fun d => { d with bumps := l₁ ++ l₂ }) := by
    simp only [Work.upd, hbumps, drop1_append rfl h]
  rw [versionBumpWork, hfind]
  dsimp only
  rw [hupd] <;> rfl

/-- Settles O26: an entry leaves the area with each application, so the room is made; the rest are the branches of each command. -/
theorem scatterUpdatesAreCombined : Obligations.ScatterUpdatesAreCombined := by
  refine ⟨?_, fun s node => ⟨fun e he => ⟨?_, ?_⟩, ?_, ?_, ?_, ?_⟩⟩
  · intro s c k i t o r w hi ht ho hr hgathers hscatter
    have hruns := runs_of_work (c := .scatterUpdate c k) (s := s) (f := fun w => scatterUpdateWork c k (w.stepBeat c)) rfl
      (scatterUpdate_work hi ht ho hr hgathers hscatter)
    refine ⟨fun hstop hpoison => ?_, fun hgo => ?_, fun e he w val => combine_merges he w val⟩
    · rwa [if_pos ⟨hstop, hpoison⟩] at hruns
    · rwa [if_neg (by rcases hgo with h | ⟨h, h'⟩ <;> simp [*])] at hruns
  · exact fun h hh => runs_of_work rfl (scatterEntryArrive_merged (w := s.work) he hh)
  · exact fun hh => runs_of_work rfl (scatterEntryArrive_new (w := s.work) he hh)
  · exact fun w bytes hbytes => ⟨makeRoom_room hbytes _ w (Nat.le_refl _), makeRoom_of_room⟩
  · exact fun e he => runs_of_work rfl (scatterHoldExpire_final (w := s.work) he)
  · exact fun e l₁ l₂ hheld hfinal hbefore hafter => runs_of_work rfl (scatterHoldExpire_idle (w := s.work) hheld hfinal hbefore hafter)
  · intro b l₁ l₂ hbumps hl w rd x
    have hruns := runs_of_work (c := .versionBump b.cluster) (s := s) rfl (versionBump_work (w := s.work) hbumps hl)
    refine ⟨fun hdir => ?_, ?_⟩
    · dsimp only at hruns
      rwa [if_pos hdir] at hruns
    have hx : (s.work.upd (fun d => { d with bumps := l₁ ++ l₂ })).readBucket b.ctx b.dir ⟨some b.ctx, b.obj, b.cluster⟩ = x := rfl
    dsimp only at hruns
    rw [hx] at hruns
    clear_value x
    obtain ⟨a, v⟩ := x
    refine ⟨fun hdir ha => ?_, fun bytes hdir ha => ⟨fun hentry => ?_, fun k y z hentry => ?_⟩⟩ <;> rw [if_neg hdir] at hruns
    · rcases ha with ha | ⟨e, ha⟩ <;> cases ha <;> exact hruns
    · cases ha
      dsimp only at hruns
      rwa [hentry] at hruns
    · cases ha
      dsimp only at hruns
      rwa [hentry] at hruns

end Sys2Proof
end

section
/-! SUPPORT. The Wholesale path: tags, slabs, the tree of the Clearing House (R124 to R142). -/

namespace Sys2Proof

open Machine

/-! ### TAG_GRANT (R125, R127, R135) -/

theorem freeTag_spec {d : Dev} {tag : Nat} (h : d.freeTag = some tag) : tag < 256 ∧ tag ∉ d.tagsUsed ∧ ∀ k < tag, k ∈ d.tagsUsed := by
  obtain ⟨hfree, hmem, hlow⟩ := List.find?_range_eq_some.mp h
  exact ⟨List.mem_range.mp hmem, by simpa using hfree, fun k hk => by simpa using hlow k hk⟩

/-- A hub with its tag, as its entry of the directory is looked up. -/
def granted (w : Work) (h : Hub) (tag : Nat) : Work :=
  let w := w.passTo (h.askedAt + 6)
  let w := w.count ⟨.wh, h.cluster⟩ 4 (w.dev.beat - h.askedAt)
  w.setHub h.iid h.seg (fun h => { h with tag := some tag, creditAt := w.dev.beat })

theorem tagGrant_work {w : Work} {h : Hub} {tag : Nat} {i : Inst} {t : Task} (hrequest : w.tagRequest = some h) (htag : w.dev.freeTag = some tag)
    (hi : (granted w h tag).dev.inst? h.iid = some i) (ht : i.task? (granted w h tag).dev = some t) :
    tagGrantWork w = match (granted w h tag).hubListed i t h with
      | (.ok, w) => w
      | (.fault va, w) => w.failInst i ⟨.gu, i.cluster⟩ .xlate (leBytes 8 va)
      | (.bad va, w) => w.failInst i ⟨.wh, i.cluster⟩ .topoMeta (leBytes 8 va) := by
  rw [tagGrantWork, hrequest, htag]
  dsimp only
  rw [← granted, hi]
  dsimp only
  rw [ht] <;> rfl

/-- Settles O27. -/
theorem hubTagIsGranted : Obligations.HubTagIsGranted := by
  intro s h tag i t hrequest htag w₁ w₂ w x hi ht
  have hruns := runs_of_work (c := .tagGrant) (s := s) rfl (tagGrant_work (w := s.work) hrequest htag hi ht)
  have hx : (granted s.work h tag).hubListed i t h = x := rfl
  rw [hx] at hruns
  clear_value x
  obtain ⟨a, v⟩ := x
  obtain ⟨hlt, hfree, hlow⟩ := freeTag_spec htag
  simp only [Dev.tagsUsed, List.mem_append, List.mem_filterMap, List.mem_map, not_or, not_exists, not_and] at hfree
  refine ⟨fun ha => ?_, fun va ha => ?_, fun va ha => ?_, hfree.1, hfree.2, hlt, hlow⟩ <;> cases ha <;> exact hruns

/-! ### SLAB_DEAL and DEAL_WAIT_EXPIRE (R126 to R130) -/

theorem slabDeal_credit {w : Work} {c k d n : Nat} {i : Inst} {t : Task} {h : Hub} {p : Pitch} (hdealer : w.dealer c k = some (i, t, h, p))
    (hcands : w.rotation p h.lastCand (i.table t).slot ≠ []) (hd : (w.rotation p h.lastCand (i.table t).slot).find? w.credit = some d)
    (hn : (List.range 8).find? (fun k => (w.dev.instIn? d (8 + k)).isNone) = some n) :
    slabDealWork c k w
      = let v := (w.placeSlab i h d (8 + n)).setHub h.iid h.seg (fun h => { h with lastCand := p.rel d })
        (if d = c then v else v.count ⟨.wh, c⟩ 1).closeIfDealt p h.iid h.seg := by
  rw [slabDealWork, hdealer]
  dsimp only
  split
  case h_1 hnil => exact absurd hnil hcands
  case h_2 => rw [hd]; dsimp only; rw [hn]

theorem selfServe_free {w : Work} {i : Inst} {h : Hub} {p : Pitch} (hfree : (w.dev.instIn? i.cluster (16 + i.slot.getD 0)).isSome = false) :
    w.selfServe i h p = ((w.placeSlab i h i.cluster (16 + i.slot.getD 0)).count ⟨.wh, i.cluster⟩ 2).closeIfDealt p h.iid h.seg :=
  if_neg (by simp [hfree])

theorem slabDeal_alone {w : Work} {c k : Nat} {i : Inst} {t : Task} {h : Hub} {p : Pitch} (hdealer : w.dealer c k = some (i, t, h, p))
    (hcands : w.rotation p h.lastCand (i.table t).slot = []) : slabDealWork c k w = w.selfServe i h p := by
  rw [slabDealWork, hdealer]
  dsimp only
  rw [hcands]

theorem dealWaitExpire_work {w : Work} {c k : Nat} {i : Inst} {t : Task} {h : Hub} {p : Pitch} (hdealer : w.dealer c k = some (i, t, h, p))
    (hcredit : (w.rotation p h.lastCand (i.table t).slot).any w.credit = false) :
    dealWaitExpireWork c k w = (w.passTo (h.creditAt + w.rf ⟨.wh, c⟩ .whDeal 15 0)).selfServe i h p := by
  rw [dealWaitExpireWork, hdealer]
  exact if_neg (by simp [hcredit])

theorem instIn?_passTo (w : Work) (b c k : Nat) : (w.passTo b).dev.instIn? c k = w.dev.instIn? c k := by
  rw [Dev.instIn?, Work.passTo, Work.pass_insts]
  rfl

theorem placeSlab_insts (w : Work) (i : Inst) (h : Hub) (d n : Nat) :
    ∃ lane, (w.placeSlab i h d n).dev.insts = w.dev.insts ++ [lane] ∧ lane.cluster = d ∧ lane.slot = some n
      ∧ lane.lo = h.first + 1024 * h.dealt ∧ lane.hi = min (h.first + 1024 * (h.dealt + 1)) (h.first + h.degree) ∧ lane.tag = h.tag.getD 0 := by
  unfold Work.placeSlab
  dsimp only
  split <;> exact ⟨_, rfl, rfl, rfl, rfl, rfl, rfl⟩

/-- Settles O28. -/
theorem slabsAreDealt : Obligations.SlabsAreDealt := by
  intro s c k i t h p hdealer
  refine ⟨fun d n hcands hd hn => ?_, fun hcands hfree => ?_, fun hcredit hfree => ?_, fun w d n => placeSlab_insts w i h d n⟩
  · exact runs_of_work rfl (slabDeal_credit (w := s.work) hdealer hcands hd hn)
  · exact runs_of_work rfl ((slabDeal_alone (w := s.work) hdealer hcands).trans (selfServe_free hfree))
  · have hlane : ((s.work.passTo (h.creditAt + s.work.rf ⟨.wh, c⟩ .whDeal 15 0)).dev.instIn? i.cluster (16 + i.slot.getD 0)).isSome = false := by
      rwa [instIn?_passTo]
    exact runs_of_work rfl ((dealWaitExpire_work (w := s.work) hdealer hcredit).trans (selfServe_free hlane))

/-! ### Messages of the tree (R134, R137) -/

section
variable {α : Type} {p : α → Bool} {x : α} {l₁ l₂ : List α} (hx : p x = true) (hbefore : ∀ y ∈ l₁, p y = false)
include hx hbefore

theorem find?_first : (l₁ ++ x :: l₂).find? p = some x := by
  rw [List.find?_append, List.find?_eq_none.mpr fun y hy => by simp [hbefore y hy], List.find?_cons_of_pos hx]
  rfl

end

theorem takeMsg_first {p : TreeMsg → Bool} {x : TreeMsg} {l₁ l₂ : List TreeMsg} (hx : p x = true) (hbefore : ∀ y ∈ l₁, p y = false) :
    takeMsg p (l₁ ++ x :: l₂) = l₁ ++ l₂ := by
  induction l₁ with
  | nil => exact if_pos hx
  | cons y t ih =>
    rw [List.cons_append, takeMsg, if_neg (by simp [hbefore y List.mem_cons_self]), ih fun z hz => hbefore z (List.mem_cons_of_mem y hz)]
    rfl

/-- A view with its first message of a sort taken. -/
theorem upd_takeMsg {w : Work} {p : TreeMsg → Bool} {x : TreeMsg} {l₁ l₂ : List TreeMsg} (htree : w.dev.tree = l₁ ++ x :: l₂)
    (hx : p x = true) (hbefore : ∀ y ∈ l₁, p y = false) :
    w.upd (fun d => { d with tree := takeMsg p d.tree }) = w.upd (fun d => { d with tree := l₁ ++ l₂ }) := by
  simp only [Work.upd, htree, takeMsg_first hx hbefore]

theorem count_abortedTags (w : Work) (p : Page) (k n : Nat) : (w.count p k n).dev.abortedTags = w.dev.abortedTags := by
  rw [Work.count_eq]; rfl

theorem hubSlot?_count (w : Work) (p : Page) (k n node tag : Nat) : (w.count p k n).dev.hubSlot? node tag = w.dev.hubSlot? node tag := by
  rw [Work.count_eq]; rfl

theorem hubEntryMerge_work {w : Work} {node : Nat} {e : MergeEntry} {l₁ l₂ : List TreeMsg} (htree : w.dev.tree = l₁ ++ .entry node e :: l₂)
    (hfirst : ∀ x ∈ l₁, ∀ f : MergeEntry, x ≠ .entry node f) :
    hubEntryMergeWork node w
      = let v := (((w.upd (fun d => { d with tree := l₁ ++ l₂ })).count (chPage node) 0).count (chPage node) 5 (b2n e.body.isNone)).count
          (chPage node) 4 (ceilDiv ((e.body.map (fun l => l.length * 4)).getD 0) 256)
        if w.dev.abortedTags.any (fun x => x.1 == e.tag) then v.drainTag e.tag e.slabs
        else
          let h := (w.dev.hubSlot? node e.tag).getD (emptySlot e.tag)
          (v.setHubSlot node { h with
            op := e.op, ctx := e.ctx, n := e.n,
            slabs := h.slabs + e.slabs, count := h.count + e.count, body := mergeBodies e.op h.body e.body }).forward node e.tag := by
  have hbefore : ∀ y ∈ l₁, (match y with
      | .entry n _ => n == node
      | _ => false) = false := by
    intro y hy
    cases y with
    | entry n f => simpa using fun hn : n = node => hfirst _ hy f (by rw [hn])
    | close => rfl
    | aggregate => rfl
  rw [hubEntryMergeWork]
  dsimp only
  rw [upd_takeMsg htree ?_ ?_, htree, find?_first ?_ ?_]
  · simp only [count_abortedTags, hubSlot?_count]
    rfl
  · exact beq_self_eq_true node
  · exact hbefore
  · exact beq_self_eq_true node
  · exact hbefore

theorem closeArrive_work {w : Work} {node tag count mask : Nat} {l₁ l₂ : List TreeMsg}
    (htree : w.dev.tree = l₁ ++ .close node tag count mask :: l₂)
    (hfirst : ∀ x ∈ l₁, ∀ t n m : Nat, x ≠ .close node t n m) :
    closeArriveWork node w = let v := w.upd (fun d => { d with tree := l₁ ++ l₂ })
      if w.dev.abortedTags.any (fun x => x.1 == tag) then v.freeDrained
      else if count = 0 ∨ !w.dev.hubs.any (fun h => h.tag == some tag) then v
      else (v.setHubSlot node { (v.dev.hubSlot? node tag).getD (emptySlot tag) with close := some count, mask := mask }).forward node tag := by
  have hbefore : ∀ y ∈ l₁, (match y with
      | .close n _ _ _ => n == node
      | _ => false) = false := by
    intro y hy
    cases y with
    | close n t c m => simpa using fun hn : n = node => hfirst _ hy t c m (by rw [hn])
    | entry => rfl
    | aggregate => rfl
  rw [closeArriveWork]
  dsimp only
  rw [upd_takeMsg htree ?_ ?_, htree, find?_first ?_ ?_]
  · rfl
  · exact beq_self_eq_true node
  · exact hbefore
  · exact beq_self_eq_true node
  · exact hbefore

theorem aggregateArrive_work {w : Work} {tag count : Nat} {body : Option (List Elem)} {l₁ l₂ : List TreeMsg} {h : Hub}
    (htree : w.dev.tree = l₁ ++ .aggregate tag count body :: l₂)
    (hfirst : ∀ x ∈ l₁, ∀ (t n : Nat) (b : Option (List Elem)), x ≠ .aggregate t n b)
    (hhub : w.dev.hubs.find? (fun h => h.tag == some tag) = some h) :
    aggregateArriveWork w = (w.upd (fun d => { d with
      tree := l₁ ++ l₂, hubs := d.hubs.filter (fun x => !(x.iid == h.iid && x.seg == h.seg)),
      insts := updFirst (fun i => i.iid == h.iid) (fun i => { i with hubDone := i.hubDone ++ [(h.seg, body, count)] }) d.insts })).askTag h.iid := by
  have hbefore : ∀ y ∈ l₁, (match y with
      | .aggregate _ _ _ => true
      | _ => false) = false := by
    intro y hy
    cases y with
    | aggregate t n b => exact absurd rfl (hfirst _ hy t n b)
    | entry => rfl
    | close => rfl
  rw [aggregateArriveWork]
  dsimp only
  rw [upd_takeMsg htree ?_ ?_, htree, find?_first ?_ ?_]
  · dsimp only
    rw [Work.upd_dev, hhub]
    rfl
  · rfl
  · exact hbefore
  · rfl
  · exact hbefore

/-! ### SLAB_PARTIAL_SEND (R131, R142) -/

theorem slabPartialSend_work {w : Work} {c lane : Nat} {i : Inst} {t : Task} (hi : w.dev.instIn? c (8 + lane) = some i)
    (ht : i.task? w.dev = some t) (hdone : i.ended = true ∨ i.stopOrdered = true) :
    slabPartialSendWork c lane w
      = let body := if i.stopOrdered then none else i.agg.map (mapPoison false .fp32)
        let v := w.upd (fun d => { d with tree := d.tree ++ [.entry (dieOfCluster c) {
          tag := i.tag, op := t.gather.reduce, ctx := w.dev.ctxOf i.gid, n := (i.table t).n, slabs := 1,
          count := if i.stopOrdered then 0 else i.aggCount, body := body, abort := i.stopOrdered }] })
        let v := if body = none then v.count ⟨.wh, c⟩ 5 else v
        (if lane < 8 then v.count ⟨.wh, c⟩ 3 else v).dropInst i.iid := by
  rw [slabPartialSendWork, hi]
  dsimp only
  rw [if_neg (by rcases hdone with h | h <;> simp [h]), ht]
  simp only [Option.isNone_iff_eq_none]

/-- Settles O29: the first message of its sort is the one that is taken. -/
theorem hubPartialsAreMerged : Obligations.HubPartialsAreMerged := by
  refine fun s => ⟨?_, ?_, ?_, ?_⟩
  · exact fun c lane i t hi ht hdone => runs_of_work rfl (slabPartialSend_work (w := s.work) hi ht hdone)
  · intro node e l₁ l₂ htree hfirst w h
    have hruns := runs_of_work (c := .hubEntryMerge node) (s := s) rfl (hubEntryMerge_work (w := s.work) htree hfirst)
    refine ⟨fun hlive => ?_, fun haborted => ?_⟩
    · dsimp only at hruns
      rwa [State.work_dev, hlive, if_neg Bool.false_ne_true] at hruns
    · dsimp only at hruns
      rwa [State.work_dev, haborted, if_pos rfl] at hruns
  · intro node tag count mask l₁ l₂ htree hfirst w
    have hruns := runs_of_work (c := .closeArrive node) (s := s) rfl (closeArrive_work (w := s.work) htree hfirst)
    dsimp only at hruns
    refine ⟨fun hcount hlive hhub => ?_, fun haborted => ?_, fun hlive hover => ?_⟩
    · rwa [State.work_dev, hlive, if_neg Bool.false_ne_true, if_neg (by simp [hcount, hhub])] at hruns
    · rwa [State.work_dev, haborted, if_pos rfl] at hruns
    · rwa [State.work_dev, hlive, if_neg Bool.false_ne_true, if_pos (by rcases hover with h | h <;> simp [h])] at hruns
  · exact fun tag count body l₁ l₂ h htree hfirst hhub => runs_of_work rfl (aggregateArrive_work (w := s.work) htree hfirst hhub)

end Sys2Proof
end

section
/-! SUPPORT. Hub multicast: what a stream does next, its receivers, and a wait that is too long (R144 to R149, R267). -/

namespace Sys2Proof

open Machine

/-! ### The next row of a stream (R147, R267) -/

theorem mcastRowSend_stream {w : Work} {c : Nat} {m : McStream} (hwh : w.pageOn ⟨.wh, c⟩ = true) (hpt : w.pageOn ⟨.pt, c⟩ = true)
    (hm : (w.sweepStream c).dev.stream? c = some m) : mcastRowSendWork c w = (w.sweepStream c).streamNext m := by
  rw [mcastRowSendWork, if_neg (by simp [hwh, hpt])]
  dsimp only
  rw [hm]

theorem mcastRowSend_begins {w x : Work} {c : Nat} {i : Inst} {t : Task} {p : Pitch} (hwh : w.pageOn ⟨.wh, c⟩ = true)
    (hpt : w.pageOn ⟨.pt, c⟩ = true) (hm : (w.sweepStream c).dev.stream? c = none) (hsender : (w.sweepStream c).streamSender c = some (i, t, p))
    (hx : x = (w.sweepStream c).passTo ((w.sweepStream c).dev.wokenAt i.iid)) :
    mcastRowSendWork c w
      = let m : McStream := { iid := i.iid, gid := i.gid, ti := i.ti, cluster := c, sent := 0, ctx := x.dev.ctxOf i.gid,
                              off := t.stream.off, slotBytes := (tableOf (t.fmt fmtTable)).slot, read := 0, staged := [],
                              waitAt := x.dev.beat, recvs := x.receivers p t.stream, rows := [], ended := false, stopped := false }
        (x.upd (fun d => { d with streams := d.streams ++ [m] })).streamNext m := by
  subst hx
  rw [mcastRowSendWork, if_neg (by simp [hwh, hpt])]
  dsimp only
  rw [hm]
  dsimp only
  rw [hsender]

section
variable {w : Work} {m : McStream}

theorem streamNext_sends {t : Task} {row : Nat} {l : List PByte} (ht : w.dev.task? m.gid m.ti = some t) (hgo : m.stopped = false)
    (hrow : m.staged.find? (fun x => x.1 == m.sent) = some (row, l)) (hcredit : m.maySend t.stream.credits = true) :
    w.streamNext m = w.sendRow m (some t) row l := by
  simp [Work.streamNext, ht, hgo, hrow, hcredit]

theorem streamNext_reads {t : Task} {i : Inst} (ht : w.dev.task? m.gid m.ti = some t) (hi : w.dev.inst? m.iid = some i)
    (hgo : m.stopped = false) (hstop : i.stopOrdered = false) (hrow : m.staged.find? (fun x => x.1 == m.sent) = none)
    (hrows : m.read < t.stream.rows) (htags : w.dev.tags m.cluster < 2048)
    (hroom : w.dev.porterBytes m.iid + m.staged.foldl (fun a x => a + x.2.length) 0 = 0
      ∨ w.dev.porterBytes m.iid + m.staged.foldl (fun a x => a + x.2.length) 0 + (tableOf (t.fmt fmtTable)).rowBytes ≤ t.landing * 1024) :
    w.streamNext m = w.readStreamRow i t m := by
  simp only [Work.streamNext, ht, hi, hgo, hrow, hstop, Bool.false_eq_true, if_false, false_or]
  exact if_neg (by omega)

/-- Of a stopped stream the lowest row that waits goes out, whatever the credit. -/
theorem streamNext_drains {row : Nat} {l : List PByte} (hstop : m.stopped = true) (hmem : (row, l) ∈ m.staged)
    (hlow : ∀ x ∈ m.staged, x ≠ (row, l) → row < x.1) : w.streamNext m = w.sendRow m (w.dev.task? m.gid m.ti) row l := by
  obtain ⟨l₁, l₂, hstaged⟩ := List.append_of_mem hmem
  rw [hstaged] at hlow
  have hlow' (x : Nat × List PByte) (hx : x ∈ l₁ ++ (row, l) :: l₂) : x = (row, l) ∨ row < x.1 := by
    by_cases h : x = (row, l)
    · exact .inl h
    · exact .inr (hlow x hx h)
  simp only [Work.streamNext, hstop, if_true, hstaged]
  rw [foldl_keeps_best (e := (row, l)) (fun _ => rfl) (fun y x => by dsimp only; split <;> simp)]
  · rfl
  · intro y hy
    rcases hlow' y (List.mem_append_left _ hy) with rfl | h
    · exact if_neg (Nat.lt_irrefl _)
    · exact if_pos h
  · intro x hx
    rcases hlow' x (List.mem_append_right _ (List.mem_cons_of_mem _ hx)) with rfl | h
    · exact if_neg (Nat.lt_irrefl _)
    · exact if_neg (Nat.not_lt.mpr (Nat.le_of_lt h))

theorem streamNext_drained (hstop : m.stopped = true) (hempty : m.staged = []) : w.streamNext m = w := by
  simp only [Work.streamNext, hstop, hempty, List.foldl_nil, if_true, true_or]
  split <;> rfl

end

/-! ### Receivers, and a wait that is too long (R147 to R149) -/

theorem mcastRowReceive_work {w : Work} {c r row : Nat} {m : McStream} {x : McRecv} {l : List PByte} (hm : w.dev.stream? c = some m)
    (hx : m.recvs.find? (fun x => !x.remote && x.who == r && !x.detached) = some x) (hrow : m.rows[x.landed]? = some (row, l)) :
    mcastRowReceiveWork c r w
      = let a := slicePhys r (m.off + row * m.slotBytes)
        let v := (((w.writePhys a l).count ⟨.wh, r⟩ 7).count ⟨.pt, c⟩ 2 (chargedBytes [(a, l.length)])).poisonWrote m.gid
          (poisonGranules a l)
        ((v.setStream c (fun m => { m with
          recvs := updFirst (fun x => !x.remote && x.who == r) (fun x => { x with landed := x.landed + 1, credited := row + 1 }) m.recvs })).count
            ⟨.pt, c⟩ 4 (b2n (m.stopped && m.recvs.all (fun y => y.remote || y.detached || y.who == r || decide (x.landed < y.landed))))).sweepStream
              c := by
  rw [mcastRowReceiveWork, hm]
  dsimp only
  rw [hx]
  dsimp only
  rw [hrow]

theorem mcastTimeout_work {w : Work} {c : Nat} {m : McStream} {t : Task} {r : McRecv} {l : List McRecv}
    (hwait : w.mcWaiting c false = some (m, t, r, l)) (hlive : t.state.live = true) :
    mcastTimeoutWork c w
      = let v := (w.passTo (m.waitAt + t.stream.timeoutUs * 250)).raise ⟨.wh, c⟩ .mcastTimeout ⟨2, some m.ctx, t.stream.id, r.code, []⟩
        ((v.setStream c (fun m => { m with stopped := true })).failOnly m.gid m.ti Err.mcastTimeout.code).sweepStream c := by
  rw [mcastTimeoutWork, hwait]
  exact if_pos hlive

theorem mcastDetach_work {w : Work} {c : Nat} {m : McStream} {t : Task} {r : McRecv} {l : List McRecv}
    (hwait : w.mcWaiting c true = some (m, t, r, l)) :
    mcastDetachWork c w
      = let v := (w.passTo (m.waitAt + t.stream.timeoutUs * 250)).each (l.filter (fun r => !r.remote)) (fun r w =>
          w.raise ⟨.wh, r.who⟩ .mcastMissed ⟨1, some m.ctx, t.stream.id, r.code, leBytes 4 r.credited ++ leBytes 4 (t.stream.rows - 1)⟩)
        ((v.setStream c (fun m => { m with
          waitAt := v.dev.beat,
          recvs := m.recvs.map (fun x => if l.any (fun r => r.remote == x.remote && r.who == x.who) then { x with detached := true } else x)
            })).count ⟨.wh, c⟩ 8 l.length).sweepStream c := by
  rw [mcastDetachWork, hwait]

/-- Settles O30: what the stream has, and whether it is stopped, decide. -/
theorem multicastRowsAreSentAndLand : Obligations.MulticastRowsAreSentAndLand := by
  refine ⟨⟨?_, ?_⟩, fun s c m t r l => ⟨?_, ?_⟩⟩
  · intro s c w hwh hpt v
    have hnext (m : McStream) (hm : v.dev.stream? c = some m) : Runs (.mcastRowSend c) s (v.streamNext m) :=
      runs_of_work (f := fun w => mcastRowSendWork c (w.stepBeat c)) rfl (mcastRowSend_stream hwh hpt hm)
    refine ⟨?_, ?_, ?_, ?_, ?_⟩
    · intro m t row l hm ht hgo hrow hcredit
      exact streamNext_sends ht hgo hrow hcredit ▸ hnext m hm
    · intro m t i hm ht hi hgo hstop hrow hrows htags hroom
      exact streamNext_reads ht hi hgo hstop hrow hrows htags hroom ▸ hnext m hm
    · intro m row l hm hstop hmem hlow
      exact streamNext_drains hstop hmem hlow ▸ hnext m hm
    · intro m hm hstop hempty
      have h := hnext m hm
      rwa [streamNext_drained hstop hempty] at h
    · intro i t p hm hsender
      exact runs_of_work (f := fun w => mcastRowSendWork c (w.stepBeat c)) rfl (mcastRowSend_begins hwh hpt hm hsender rfl)
  · exact fun s c r row m x l hm hx hrow => runs_of_work rfl (mcastRowReceive_work (w := s.work) hm hx hrow)
  · exact fun hwait hlive => runs_of_work rfl (mcastTimeout_work (w := s.work) hwait hlive)
  · exact fun hwait => runs_of_work rfl (mcastDetach_work (w := s.work) hwait)

end Sys2Proof
end

section
/-! SUPPORT. Rows of the Shelf: migration, eviction and the pause of a table (R172 to R180, R187). -/

namespace Sys2Proof

open Machine

/-! ### Numbers in byte strings (R8) -/

theorem leNat_leBytes (n x : Nat) : leNat (leBytes n x) = x % 256 ^ n := by
  induction n generalizing x with
  | zero => rw [leBytes, leNat, Nat.pow_zero, Nat.mod_one]
  | succ n ih =>
    have hpow : 256 ^ (n + 1) = 256 * 256 ^ n := Nat.pow_succ'
    rw [leBytes, leNat, ih, BitVec.toNat_ofNat, hpow, Nat.mod_mul]

theorem length_leBytes (n x : Nat) : (leBytes n x).length = n := by
  induction n generalizing x with
  | zero => rfl
  | succ n ih => exact congrArg (· + 1) (ih _)

/-- A string of clean bytes reads as its number. -/
theorem pbNat_clean (l : List Byte) {n : Nat} (hn : l.length = n) : pbNat (l.map (·, false)) 0 n = leNat l := by
  subst hn
  simp [pbNat, List.take_of_length_le, Function.comp_def]

theorem pbNat_leBytes {n x : Nat} (h : x < 256 ^ n) : pbNat ((leBytes n x).map (·, false)) 0 n = x := by
  rw [pbNat_clean _ (length_leBytes n x), leNat_leBytes, Nat.mod_eq_of_lt h]

theorem clean_any (l : List Byte) : (l.map (·, false)).any (·.2) = false := by
  simp [List.any_map]

/-! ### MIGRATION_GO (R172, R187) -/

theorem toNat_three {a b c : Word} (hi lo : Nat) (ha : a.toNat % 2 ^ hi = 0) (hb : b.toNat % 2 ^ lo = 0) (hab : b.toNat < 2 ^ hi)
    (hle : lo ≤ hi) (hc : c.toNat < 2 ^ lo) : (a ||| b ||| c).toNat = a.toNat + b.toNat + c.toNat := by
  have hsum := toNat_or_of_apart hi ha hab
  have hdvd : 2 ^ lo ∣ 2 ^ hi := Nat.pow_dvd_pow 2 hle
  rw [toNat_or_of_apart lo _ hc, hsum]
  rw [hsum]
  exact Nat.mod_eq_zero_of_dvd (Nat.dvd_add (Nat.dvd_trans hdvd (Nat.dvd_of_mod_eq_zero ha)) (Nat.dvd_of_mod_eq_zero hb))

theorem toNat_goWord {ctx table : Nat} (hctx : ctx < 32) (htable : table < 16384) :
    (atBit 1 31 ||| atBit ctx 16 ||| atBit table 0).toNat = 2 ^ 31 + ctx * 2 ^ 16 + table := by
  rw [toNat_three 31 16] <;> repeat rw [toNat_atBit]
  all_goals omega

theorem writeMigCtl_go {w : Work} {c ctx table : Nat} {r : Reg} (hctx : ctx < 32) (htable : table < w.rf pgEb .ebTables 30 16 ctx)
    (hlt : table < 16384) (hcount : w.rf ⟨.sh, c⟩ .shMigCount 15 0 ≠ 0) (hidle : w.dev.mig? c = none) :
    w.writeMigCtl c r (atBit 1 31 ||| atBit ctx 16 ||| atBit table 0)
      = .ok ((w.storeRw ⟨.sh, c⟩ r 0 (atBit 1 31 ||| atBit ctx 16 ||| atBit table 0)).startList c ctx table) := by
  have hword := toNat_goWord hctx hlt
  have hctxFld : fld (atBit 1 31 ||| atBit ctx 16 ||| atBit table 0) 20 16 = ctx := by rw [fld_eq, hword]; omega
  have htableFld : fld (atBit 1 31 ||| atBit ctx 16 ||| atBit table 0) 13 0 = table := by rw [fld_eq, hword]; omega
  have hgo : bitOf (atBit 1 31 ||| atBit ctx 16 ||| atBit table 0) 31 = true := by
    rw [bitOf_eq_decide, hword, decide_eq_true_eq]; omega
  simp only [Work.writeMigCtl, hctxFld, htableFld, hgo, hidle]
  rw [need_of_true (by simpa using htable), need_of_true (by simpa using hcount), need_of_true (c := !(true && none.isSome)) rfl, if_pos trivial]
  rfl

/-! ### MIGRATE (R173) -/

/-- The entry that a list is at, as it reads. -/
theorem listEntry_eq {w : Work} {c e : Nat} {m : Migration} (hm : w.dev.mig? c = some m) (hva : m.entryVa = none)
    (hon : w.pageOn ⟨.sh, c⟩ = true)
    (hread : (w.readVa m.ctx (m.listVa + 8 * m.done) 8 (m.reader w)).1 = .ok ((leBytes 8 e).map (·, false))) (he : e < 2 ^ 64) :
    w.listEntry c = (some (m, e), (w.readVa m.ctx (m.listVa + 8 * m.done) 8 (m.reader w)).2) := by
  rw [Work.listEntry, hm]
  dsimp only
  rw [if_neg (by simp [hva, hon])]
  generalize w.readVa m.ctx (m.listVa + 8 * m.done) 8 (m.reader w) = x at hread ⊢
  obtain ⟨a, v⟩ := x
  cases hread
  dsimp only
  rw [clean_any, if_neg Bool.false_ne_true, pbNat_leBytes (by omega)]

/-- A row in no entry, with a free entry in its bucket, claims that entry and makes its first attempt. -/
theorem migrate_claims {w v u y : Work} {c e k row va : Nat} {m : Migration} {b : List Byte} (hentry : w.listEntry c = (some (m, e), v))
    (hbad : entryBad m e = false) (hop : fieldN e 51 48 = 1) (hrow : fieldN e 31 0 = row)
    (hva : bucketVa m.dir (dirBuckets m.dirHdr) row = va)
    (hbucket : v.readBucket m.ctx va (m.reader v) = (.ok b, u)) (hmatch : matchEntry b row = none)
    (hfree : (List.range 4).find? (fun k => match (bucketEntries b)[k]? with
        | some (_, y) => wbState y == 0
        | none => false) = some k)
    (hwrite : u.writeVa m.ctx (va + 16 * k)
        ((leBytes 8 (row * 2 ^ 32)).map (·, false) ++ (leBytes 8 (wbPending c)).map (·, false)) (m.reader u) = (.ok (), y)) :
    migrateWork c w = (y.setMig c (fun m => { m with
      row := row, slot := fieldN e 47 32, entryVa := some (va + 16 * k), prior := 0, attempt := 0 })).attemptMig c := by
  rw [migrateWork, hentry]
  dsimp -zeta only
  rw [if_neg (by simp [hop]), if_neg (by simp [hbad])]
  extract_lets -underBinder row' bv
  have hrow' : row' = row := hrow
  clear_value row'
  subst hrow'
  have hbv : bv = va := hva
  clear_value bv
  subst hbv
  rw [hbucket]
  dsimp -zeta only
  extract_lets -underBinder claim pend
  obtain ⟨f, hf, hclaim⟩ : ∃ f : Nat → Nat → List PByte → Nat → Work → Work, claim = f ∧
      ∀ words, u.writeVa m.ctx (bv + 16 * k) words (m.reader u) = (.ok (), y) →
        f k 0 words 0 u = (y.setMig c (fun m => { m with
          row := row', slot := fieldN e 47 32, entryVa := some (bv + 16 * k), prior := 0, attempt := 0 })).attemptMig c := by
    refine ⟨claim, rfl, fun words h => ?_⟩
    dsimp -zeta only [claim]
    rw [Nat.add_zero, h]
  rw [hf, hmatch]
  dsimp -zeta only
  rw [(congrArg (List.find? · (List.range 4)) (funext fun k => ?_)).trans hfree]
  · exact hclaim _ hwrite
  · rcases (bucketEntries b)[k]? with _ | ⟨x, y⟩ <;> rfl

/-! ### MIGRATE_ROW_LANDED and MIGRATE_ATTEMPT_TIMEOUT (R173, R174, R177) -/

theorem migrateRowLanded_arrived {w v : Work} {c e : Nat} {m : Migration} {es : List CellError} {l : List PByte}
    (hm : w.dev.mig? c = some m) (he : m.entryVa = some e) (hcopy : m.copying = true) (htime : w.dev.beat ≤ m.readAt + 65536)
    (harr : w.arrived m.ctx false [(m.T.rowVa m.row, m.T.rowBytes)] m.copy es (m.reader w) = (l, v)) :
    migrateRowLandedWork c es w = if l.any (·.2) then v.restoreEntry m 9 false
      else (((v.writePhys (slicePhys c (m.slot * 64)) l).count ⟨.sh, c⟩ 6 l.length).setMig c (fun m => { m with
          copying := false, copy := [] })).migDeal c 0 [⟨e, dword (m.row * 2 ^ 32 + m.version), 0, true, false, false⟩,
            ⟨e + 8, dword (wbPending c), dword (wbValid c m.slot m.version), true, false, true⟩] := by
  rw [migrateRowLandedWork, hm]
  dsimp -zeta only
  rw [he]
  dsimp -zeta only
  rw [if_neg (by simp [hcopy]), if_neg (by omega), harr]

theorem migrateAttemptTimeout_copying {w : Work} {c : Nat} {m : Migration} (hm : w.dev.mig? c = some m) (hcopy : m.copying = true) :
    migrateAttemptTimeoutWork c w
      = ((w.passTo (m.readAt + 65536)).setMig c (fun m => { m with copying := false })).mismatch c := by
  rw [migrateAttemptTimeoutWork, hm]
  dsimp only
  rw [if_pos hcopy]

/-! ### EVICT (R175) -/

theorem evictTry_valid {w v : Work} {m : Migration} {row va k a y : Nat} {b : List Byte} (hva : bucketVa m.dir (dirBuckets m.dirHdr) row = va)
    (hbucket : w.readBucket m.ctx va (m.reader w) = (.ok b, v)) (hmatch : matchEntry b row = some (k, a, y)) (hvalid : wbState y = 2) :
    w.evictTry m row
      = (v.setMig m.cluster (fun m => { m with row := row, prior := y, attempt := m.attempt + 1, entryVa := some (va + 16 * k) })).migDeal
          m.cluster 2 [⟨va + 16 * k, 0, 0, false, false, true⟩, ⟨va + 16 * k + 8, dword y, 0, true, false, true⟩] := by
  have hdef : @Work.evictTry = @Work.evictTry := rfl
  conv at hdef => rhs; delta Work.evictTry
  rw [hdef]
  dsimp -zeta only
  extract_lets -underBinder c bv
  obtain ⟨bv', hbv⟩ : ∃ x, bv = x := ⟨_, rfl⟩
  rw [hbv, show bv' = va from hbv.symm.trans hva, hbucket]
  dsimp -zeta only
  rw [hmatch]
  dsimp -zeta only
  rw [if_neg (not_not_intro hvalid)]

theorem evictTry_invalid {w v : Work} {m : Migration} {row va : Nat} {b : List Byte} (hva : bucketVa m.dir (dirBuckets m.dirHdr) row = va)
    (hbucket : w.readBucket m.ctx va (m.reader w) = (.ok b, v))
    (hmatch : ∀ k a y, matchEntry b row = some (k, a, y) → wbState y ≠ 2) :
    w.evictTry m row = v.finishEntry m 8 := by
  have hdef : @Work.evictTry = @Work.evictTry := rfl
  conv at hdef => rhs; delta Work.evictTry
  rw [hdef]
  dsimp -zeta only
  extract_lets -underBinder c bv
  obtain ⟨bv', hbv⟩ : ∃ x, bv = x := ⟨_, rfl⟩
  rw [hbv, show bv' = va from hbv.symm.trans hva, hbucket]
  dsimp -zeta only
  rcases h : matchEntry b row with _ | ⟨k, a, y⟩
  · rfl
  · dsimp -zeta only
    rw [if_pos (hmatch k a y h)]

theorem evict_of_entry {w v : Work} {c e : Nat} {m : Migration} (hentry : w.listEntry c = (some (m, e), v))
    (hbad : entryBad m e = false) (hop : fieldN e 51 48 = 2) : evictWork c w = v.evictTry m (fieldN e 31 0) := by
  rw [evictWork, hentry]
  dsimp -zeta only
  rw [if_neg (by simp [hop]), if_neg (by simp [hbad])]

/-- Settles O31: the list starts, claims its entry, copies the row and gives up as R172 to R177 say. -/
theorem rowsMigrateIntoTheShelf : Obligations.RowsMigrateIntoTheShelf := by
  unfold Obligations.RowsMigrateIntoTheShelf
  intro s c
  refine ⟨?_, ?_, ?_, ?_⟩
  · intro who ctx table hctx htable hlt hcount hidle hacc
    exact runs_poke rfl hacc (writeMigCtl_go hctx htable hlt hcount hidle)
  · intro m e k b hm hnone hon l
    have hread : s.work.readVa m.ctx (m.listVa + 8 * m.done) 8 (m.reader s.work) = l := rfl
    clear_value l
    obtain ⟨lr, v⟩ := l
    generalize hrow : fieldN e 31 0 = row
    intro va
    have hva : bucketVa m.dir (dirBuckets m.dirHdr) row = va := rfl
    clear_value va
    intro y
    have hbucket : v.readBucket m.ctx va (m.reader v) = y := rfl
    clear_value y
    obtain ⟨yr, u⟩ := y
    intro x
    have hwrite : u.writeVa m.ctx (va + 16 * k)
        ((leBytes 8 (row * 2 ^ 32)).map (·, false) ++ (leBytes 8 (wbPending c)).map (·, false)) (m.reader u) = x := rfl
    clear_value x
    obtain ⟨xr, z⟩ := x
    intro hl he hbad hop hy hmatch hfree hx
    cases hy
    cases hx
    have hl' : (s.work.readVa m.ctx (m.listVa + 8 * m.done) 8 (m.reader s.work)).1 = .ok ((leBytes 8 e).map (·, false)) :=
      (congrArg Prod.fst hread).trans hl
    have hentry := listEntry_eq hm hnone hon hl' he
    rw [hread] at hentry
    refine runs_of_work rfl (migrate_claims hentry hbad hop hrow hva hbucket hmatch ?_ hwrite)
    exact hfree
  · intro m e es hm he hcopy htime x
    have hland := migrateRowLanded_arrived (es := es) hm he hcopy htime (Prod.eta x).symm
    clear_value x
    constructor
    · intro hclean
      rw [hclean, if_neg Bool.false_ne_true] at hland
      exact runs_of_work rfl hland
    · intro hpoison
      rw [hpoison, if_pos rfl] at hland
      exact runs_of_work rfl hland
  · intro m hm hcopy
    exact runs_of_work rfl (migrateAttemptTimeout_copying hm hcopy)

/-! ### TABLE_PAUSE (R179, R184) -/

/-- The word of TABLE_PAUSE has no bits but the two it stores. -/
theorem pauseWord_bits (paused versioned : Bool) :
    bitOf (atBit (b2n paused) 31 ||| atBit (b2n versioned) 30) 31 = paused
      ∧ bitOf (atBit (b2n paused) 31 ||| atBit (b2n versioned) 30) 30 = versioned
      ∧ (atBit (b2n paused) 31 ||| atBit (b2n versioned) 30) &&& 0xC0000000 = atBit (b2n paused) 31 ||| atBit (b2n versioned) 30 := by
  cases paused <;> cases versioned <;> decide

theorem writeTblCtl_stores {w : Work} {n : Nat} {v : Word} (hsel : w.rf pgEb .ebTblSel 13 0 n < w.rf pgEb .ebTables 30 16 n)
    (hpause : ¬ (bitOf v 31 = true ∧ bitOf (look 0 (w.selSlot n) w.dev.tblCtl) 31 = false
      ∧ (bitOf (look 0 (w.selSlot n) w.dev.tblCtl) 30 = true ∨ bitOf v 30 = true)))
    (hkeep : ¬ (bitOf (look 0 (w.selSlot n) w.dev.tblCtl) 31 = true ∧ bitOf (look 0 (w.selSlot n) w.dev.tblCtl) 30 ≠ bitOf v 30)) :
    w.writeTblCtl n v = .ok (w.upd (fun d => { d with tblCtl := put 0 (w.selSlot n) (v &&& 0xC0000000) d.tblCtl })) := by
  rw [Work.writeTblCtl]
  generalize look 0 (w.selSlot n) w.dev.tblCtl = old at hpause hkeep ⊢
  rw [need_of_true (decide_eq_true hsel), need_of_true, need_of_true]
  · rfl
  · generalize bitOf v 30 = a at hkeep ⊢
    generalize bitOf old 30 = b at hkeep ⊢
    generalize bitOf old 31 = d at hkeep ⊢
    clear hpause hsel
    revert a b d; decide
  · generalize bitOf v 30 = a at *
    generalize bitOf v 31 = e at *
    generalize bitOf old 30 = b at *
    generalize bitOf old 31 = d at *
    clear hkeep hsel
    revert a b d e; decide

theorem writeTblCtl_refused {w : Work} {n : Nat} {v : Word} (hsel : w.rf pgEb .ebTblSel 13 0 n < w.rf pgEb .ebTables 30 16 n)
    (hbad : (bitOf v 31 = true ∧ bitOf (look 0 (w.selSlot n) w.dev.tblCtl) 31 = false
        ∧ (bitOf (look 0 (w.selSlot n) w.dev.tblCtl) 30 = true ∨ bitOf v 30 = true))
      ∨ (bitOf (look 0 (w.selSlot n) w.dev.tblCtl) 31 = true ∧ bitOf (look 0 (w.selSlot n) w.dev.tblCtl) 30 ≠ bitOf v 30)) :
    w.writeTblCtl n v = .error .state := by
  rw [Work.writeTblCtl]
  generalize look 0 (w.selSlot n) w.dev.tblCtl = old at hbad ⊢
  rw [need_of_true (decide_eq_true hsel)]
  rcases hbad with ⟨hset, hclear, hversioned⟩ | ⟨hpaused, hchange⟩
  · rw [need_of_not_true (by rcases hversioned with h | h <;> simp [hset, hclear, h])]
    rfl
  · rw [need_of_true (by simp [hpaused]), need_of_not_true (by simp [hpaused, Ne.symm hchange])]
    rfl

/-- Settles O32: an eviction issues its Deal for a VALID entry and ends otherwise; the pause is stored or refused by R184. -/
theorem rowsAreEvictedAndTablesPaused : Obligations.RowsAreEvictedAndTablesPaused := by
  unfold Obligations.RowsAreEvictedAndTablesPaused
  intro s
  constructor
  · intro c m e b hm hc hnone hon l
    subst hc
    have hread : s.work.readVa m.ctx (m.listVa + 8 * m.done) 8 (m.reader s.work) = l := rfl
    clear_value l
    obtain ⟨lr, v⟩ := l
    generalize hrow : fieldN e 31 0 = row
    intro va
    have hva : bucketVa m.dir (dirBuckets m.dirHdr) row = va := rfl
    clear_value va
    intro x
    have hbucket : v.readBucket m.ctx va (m.reader v) = x := rfl
    clear_value x
    obtain ⟨xr, u⟩ := x
    intro hl he hbad hop hx
    cases hx
    have hl' : (s.work.readVa m.ctx (m.listVa + 8 * m.done) 8 (m.reader s.work)).1 = .ok ((leBytes 8 e).map (·, false)) :=
      (congrArg Prod.fst hread).trans hl
    have hentry := listEntry_eq hm hnone hon hl' he
    rw [hread] at hentry
    have htry := evict_of_entry hentry hbad hop
    rw [hrow] at htry
    refine ⟨fun k a y hmatch => ⟨fun hvalid => ?_, fun hinvalid => ?_⟩, fun hmatch => ?_⟩
    · exact runs_of_work rfl (htry.trans (evictTry_valid hva hbucket hmatch hvalid))
    · refine runs_of_work rfl (htry.trans (evictTry_invalid hva hbucket fun k' a' y' h => ?_))
      cases hmatch.symm.trans h
      exact hinvalid
    · refine runs_of_work rfl (htry.trans (evictTry_invalid hva hbucket fun k' a' y' h => ?_))
      cases hmatch.symm.trans h
  · intro who ctx paused versioned hacc hsel old bad
    obtain ⟨hpaused, hversioned, hmask⟩ := pauseWord_bits paused versioned
    constructor
    · intro hgood
      have heff := writeTblCtl_stores (w := s.work) (n := ctx) (v := atBit (b2n paused) 31 ||| atBit (b2n versioned) 30) hsel
        (by rw [hpaused, hversioned]; exact fun h => hgood (.inl h)) (by rw [hversioned]; exact fun h => hgood (.inr h))
      rw [hmask] at heff
      exact runsTo_of_runs (runs_poke rfl hacc heff) rfl
    · intro hbad
      have heff := writeTblCtl_refused (w := s.work) (n := ctx) (v := atBit (b2n paused) 31 ||| atBit (b2n versioned) 30) hsel
        (by rw [hpaused, hversioned]; exact hbad)
      have hrun := runsTo_of_runs (runs_poke_error (c := .tablePause who ctx paused versioned) rfl hacc heff) rfl
      rwa [reject_dev, rejWord_pageOffset] at hrun

end Sys2Proof
end

section
/-! SUPPORT. Steps of the execute engines: the dispatcher, the compressor's tiles, and the Porter's descriptors (R72, R195, R234, R237, R250,
R273). -/

namespace Sys2Proof

open Machine

/-! ### The dispatcher (R72) -/

theorem dispatch_step {w v y z : Work} {c : Nat} {i : Inst} (hv : (w.startDue c).noteStarving c = v)
    (hfind : (v.dev.dispatchOrder c).find? (fun i => (v.instStep i).isSome && !v.heldByStall i) = some i)
    (hy : (v.passTo (v.dev.wokenAt i.iid)).stepBeat c = y) (hstep : y.instStep i = some z) : dispatchWork c w = z := by
  subst hv hy
  rw [dispatchWork]
  rw [hfind]
  dsimp only
  rw [hstep]
  rfl

/-- A finished tile leaves the epilogue before any step (R237). -/
theorem instStep_tile {w : Work} {i : Inst} {t : Task} {o : TileOut} {rest : List TileOut} (ht : i.task? w.dev = some t)
    (htiles : i.outTiles = o :: rest) (hroom : (w.cluster i.cluster).tiles.length < 4) :
    w.instStep i = some ((w.setCluster i.cluster (fun cl => { cl with tiles := cl.tiles ++ [o] })).setInst i.iid
      (fun i => { i with outTiles := rest })) := by
  rw [Work.instStep, ht]
  dsimp -zeta only
  rw [if_pos (by simp [htiles]), Work.releaseTile, htiles]
  dsimp -zeta only
  rw [if_neg (by omega)]

/-- A running one steps in the engine of its kind. -/
theorem instStep_running {w : Work} {i : Inst} {t : Task} (ht : i.task? w.dev = some t) (htiles : i.outTiles = [])
    (hstop : i.stopOrdered = false) (hvoid : i.voided = false) (hstart : i.started = true ∨ i.isLane = true) :
    (t.kind = some .gather ∨ t.kind = some .embedBag → w.pageOn ⟨.ve, i.cluster⟩ = true → w.instStep i = w.gatherStep i t)
    ∧ (t.kind = some .transform → w.pageOn ⟨.ta, i.cluster⟩ = true → w.instStep i = w.transformStep i t)
    ∧ (t.kind = some .vector → w.pageOn ⟨.ve, i.cluster⟩ = true → w.instStep i = w.vectorStep i t)
    ∧ (t.kind = some .matchT → w.pageOn ⟨.sp, i.cluster⟩ = true → w.instStep i = w.matchStep i t) := by
  rw [Work.instStep, ht]
  dsimp -zeta only
  rw [if_neg (by simp [htiles]), if_neg (by rcases hstart with h | h <;> simp [hstop, hvoid, h])]
  refine ⟨fun hkind hpage => ?_, fun hkind hpage => ?_, fun hkind hpage => ?_, fun hkind hpage => ?_⟩
  · rcases hkind with h | h <;> rw [h] <;> exact if_pos hpage
  all_goals
    rw [hkind]
    exact if_pos hpage

/-! ### TRANSFORM (R195, R200, R251) -/

section transform

variable {w : Work} {i : Inst} {t : Task} {st : TStep} (hended : i.ended = false) (hst : i.tstep t.xform = some st)
  (hready : i.tready t.xform st = true) (hfree : (i.merge && st.np == 0) = false ∨ w.matcherFree i = true)

include hended hst hready hfree

theorem transformStep_stop {va : Nat} (hpolicy : i.stopPolicy = true) (hpoison : i.tpoison t t.xform st = some va) :
    w.transformStep i t = some (w.poisonStop i t va) := by
  rw [Work.transformStep]
  rw [hst]
  dsimp -zeta only
  extract_lets -underBinder packs
  rw [if_neg (by rcases hfree with h | h <;> simp [hended, packs, hready, h]), if_pos hpolicy, hpoison]

theorem transformStep_row {z : Nat × Work} {u : Work} (hclean : i.stopPolicy = false ∨ i.tpoison t t.xform st = none)
    (hz : (if st.np = 0 ∧ i.sub = 0 then w.seed else (i.hseed, w)) = z)
    (hu : ((z.2.setInst i.iid (fun i => { i with hseed := z.1, sub := i.sub + 1 })).whenB (i.merge && st.np == 0)
        (fun w => w.holdMatcher i true)).whenB i.merge (fun w => w.setCluster i.cluster (fun cl => { cl with mergeAt := w.dev.beat })) = u) :
    w.transformStep i t = if st.last then (match u.dev.inst? i.iid with
      | some j => some (u.panelEnd j t st)
      | none => some u) else some u := by
  subst hz hu
  rw [Work.transformStep, hst]
  dsimp -zeta only
  extract_lets -underBinder packs
  have hnone : (if i.stopPolicy then i.tpoison t t.xform st else none) = none := by
    rcases hclean with h | h <;> simp [h]
  rw [if_neg (by rcases hfree with h | h <;> simp [hended, packs, hready, h]), hnone] <;> rfl

end transform

/-! ### VECTOR: a step of an element-wise run (R219, R225, R230) -/

theorem nans_silent {w : Work} {i : Inst} (n : Nat) (h : i.nanFault = false) : w.nans i n = (w.count ⟨.ve, i.cluster⟩ 4 n, false) := by
  rw [Work.nans, h, Bool.false_and]

theorem vectorStep_run {w : Work} {i : Inst} {t : Task} (hended : i.ended = false) (hpos : i.pos < t.ops)
    (hscal : t.f 80 8 = 0 ∨ (i.got sScal 0).isSome = true) (hseg : opSegmented (byteAt (t.vop i.pos) 0) = false) :
    w.vectorStep i t = w.vectorRun i t := by
  rw [Work.vectorStep, if_neg (by simp [hended, hpos]),
    if_neg (by rcases hscal with h | h <;> simp_all [Option.isSome_iff_ne_none]), if_neg (by simp [hseg])]

theorem vectorRun_elementwise {w : Work} {i : Inst} {t : Task} {b : List Byte} {len e0 e1 : Nat} {q : List Elem} {r : List Elem × Nat}
    (hb : t.vop i.pos = b) (hlen : i.runLength b i.winCount = len) (hdyn : vopDyn b = false)
    (hwhole : vopWhole b = false) (hnan : i.nanFault = false) (hle : len ≤ opCount b 0) (hne : len ≠ 0)
    (hready : i.stepReady t i.pos i.winCount len i.sub = true) (he0 : i.sub * vopLanes b = e0) (he1 : min len (e0 + vopLanes b) = e1)
    (hclean : i.stopPolicy = false ∨ (i.srcPoison t i.pos i.winCount len e0 e1 = none ∧ i.dstPoison t i.pos i.winCount len e0 e1 = none))
    (hq : i.operand t i.pos 1 i.winCount len = q)
    (hr : elemStep b (((i.operand t i.pos 0 i.winCount len).drop e0).take (e1 - e0))
        ((List.range (e1 - e0)).map (fun k => q.getD ((e0 + k) / opGroup b) ⟨.zero, false⟩))
        (((if readsD b then i.operand t i.pos 2 i.winCount len else []).drop e0).take (e1 - e0)) = r) {u : Work}
    (hu : ((w.veStep i (vopLanes b) len (e1 - e0)).count ⟨.ve, i.cluster⟩ 4 r.2).writeRun i t i.pos i.winCount e0 len r.1 = u) :
    w.vectorRun i t = some (if e1 = len then u.runDone i t (i.runs b) (i.winCount + 1)
      else u.setInst i.iid (fun i => { i with sub := i.sub + 1 })) := by
  rw [Work.vectorRun, hb]
  dsimp -zeta only
  rw [hlen]
  rw [if_neg (by simp [hdyn]), if_neg (by omega), if_neg hne, if_neg (by simp [hready])]
  extract_lets -underBinder L a z
  obtain rfl : a = e0 := he0
  obtain rfl : z = e1 := he1
  have hnone : (if i.stopPolicy then (i.srcPoison t i.pos i.winCount len a z).or (i.dstPoison t i.pos i.winCount len a z) else none) = none := by
    rcases hclean with h | ⟨hsrc, hdst⟩ <;> simp [*]
  rw [hnone]
  dsimp -zeta only
  extract_lets -underBinder v next x y d _ _ cut ys
  rw [if_neg (by simp [hwhole])]
  obtain rfl : y = q := hq
  have hr' : elemStep b (cut x) ys (cut d) = r := hr
  rw [hr', nans_silent _ hnan]
  subst hu
  rfl

/-! ### MATCH: a chunk of a list is probed (R250, R251) -/

/-- What a probed chunk leaves of its matcher's state. -/
def Machine.Inst.probed (i : Inst) (m p n z : Nat) (ids found : List Nat) : Inst :=
  { i.took p n with part := some (n + ids.length, z), prev := ids.getLast?, hits := i.hits + found.length, common := (i.common ++ found).take m }

theorem matchProbe_chunk {w : Work} {i : Inst} {t : Task} {p n z : Nat} {l : List PByte} (hlt : n < z)
    (hgot : i.got sNeigh (nItem p n) = some l) (hpolicy : i.stopPolicy = false) :
    w.matchProbe i t p n z = some (((w.setInst i.iid (fun j => j.probed (t.f 98 2) p n z (chunkIds l) (intersect (chunkIds l) i.chunkKeys))).count
      ⟨.sp, i.cluster⟩ 12 (chunkIds l).length).count ⟨.sp, i.cluster⟩ 13 (intersect (chunkIds l) i.chunkKeys).length) := by
  rw [Work.matchProbe, if_neg (by omega), hgot, Option.map_some, Inst.chunkPoison, if_neg (by simp [hpolicy])] <;> rfl

theorem matchNext_probe {w : Work} {i : Inst} {t : Task} {e p n z : Nat} (hbuild : i.building = false) (hkeys : i.chunkKeys ≠ [])
    (hprobe : i.probe = 0) (hpart : i.part = some (n, z)) : w.matchNext i t e (some p) = w.matchProbe i t p n z := by
  rw [Work.matchNext, if_neg (by simp [hbuild])]
  rw [if_pos ⟨hkeys, by simp [hprobe]⟩, hpart]
  rfl

theorem matchStep_next {w v : Work} {i j : Inst} {t : Task} {e : Nat} {p : Option Nat} (hended : i.ended = false) (hpos : i.lo + i.pos < i.hi)
    (hfree : w.matcherFree i = true) (hids : (i.matchIds t).map (fun x => x.any (fun q => q.2.isNone)) = some false)
    (hlists : i.matchLists t = some (e, p)) (hnext : w.matchNext i t e p = some v) (hj : v.dev.inst? i.iid = some j) (hjpos : j.pos = i.pos)
    (hjstop : j.stopOrdered = false) : w.matchStep i t = some (v.holdMatcher i true) := by
  rw [Work.matchStep, if_neg (by simp [hended, hfree]; omega)]
  obtain ⟨ids, hmatch, hany⟩ := Option.map_eq_some_iff.mp hids
  rw [hmatch]
  dsimp -zeta only
  rw [if_neg (by simp [hany]), hlists]
  dsimp -zeta only
  rw [hnext, Option.map_some, hj]
  dsimp -zeta only
  rw [if_pos ⟨hjpos, hjstop⟩]

/-! ### GATHER and EMBED_BAG: a group of landed rows is pooled -/

theorem gatherStep_group {w : Work} {i : Inst} {t : Task} {os : List Occ} {last : Bool} (hended : i.ended = false)
    (hscatter : t.gather.scatter = none) (hhub : i.isLane = true ∨ i.hubReady t w.self = none) (hgroup : i.poolNext t w.self = .group os last) :
    w.gatherStep i t = some (w.poolGroup i t os last) := by
  have hnone : (if i.isLane then none else i.hubReady t w.self) = none := by
    rcases hhub with h | h <;> simp [h]
  rw [Work.gatherStep, if_neg (by simp [hended]), if_neg (by simp [hscatter]), hnone]
  dsimp -zeta only
  rw [hgroup]

/-! ### TILE_WRITE (R237) -/

theorem tileWrite_result {w : Work} {c : Nat} {o : TileOut} {rest : List TileOut} {x : Except Nat Unit × Work}
    (htiles : (w.cluster c).tiles = o :: rest)
    (hx : (w.setCluster c (fun cl => { cl with tiles := rest })).writeVa o.ctx o.va o.data ⟨some o.ctx, w.dev.codeOf o.gid o.ti, c⟩ = x) :
    (x.1 = .ok () → tileWriteWork c w = (((x.2.poisonWrote o.gid (poisonGranules o.va o.data)).count ⟨.sp, c⟩
        (if o.dense then 1 else 0)).count ⟨.sp, c⟩ 2 o.data.length).count ⟨.ta, c⟩ 8 (b2n o.approx))
    ∧ (∀ e : Nat, x.1 = .error e → tileWriteWork c w = x.2.failTask o.gid o.ti ⟨.ta, c⟩ .xlate c (leBytes 8 e)) := by
  obtain ⟨a, v⟩ := x
  constructor
  · intro ha
    cases ha
    rw [tileWriteWork, htiles]
    dsimp -zeta only
    extract_lets -underBinder u
    have hu : u.writeVa o.ctx o.va o.data ⟨some o.ctx, u.dev.codeOf o.gid o.ti, c⟩ = (.ok (), v) := hx
    rw [hu]
  · intro e ha
    cases ha
    rw [tileWriteWork, htiles]
    dsimp -zeta only
    extract_lets -underBinder u
    have hu : u.writeVa o.ctx o.va o.data ⟨some o.ctx, u.dev.codeOf o.gid o.ti, c⟩ = (.error e, v) := hx
    rw [hu]

/-! ### COPY_DESCRIPTOR_READ (R272, R273) -/

section copy

variable {w : Work} {c k : Nat} {i : Inst} {t : Task} (hi : w.dev.instIn? c k = some i) (ht : i.task? w.dev = some t)
  (hkind : t.kind = some .copy) (hlist : t.f 72 1 = 0) (hstart : i.started = true) (hstop : i.stopOrdered = false) (hended : i.ended = false)
  (hpage : w.pageOn ⟨.pt, c⟩ = true) (hpos : i.lo + i.pos < i.hi)

include hi ht hkind hlist hstart hstop hended hpage hpos

theorem copyDescriptorRead_going (hdesc : i.desc ≠ []) :
    copyDescriptorReadWork c k w = (w.passTo (w.dev.wokenAt i.iid)).copyNext i t := by
  rw [copyDescriptorReadWork, hi]
  dsimp -zeta only
  rw [ht]
  dsimp -zeta only
  rw [if_neg (by simp [hkind, hlist, hstart, hstop, hended, hpage, hpos])]
  exact if_pos hdesc

theorem copyDescriptorRead_fresh {v u : Work} {va : Nat} {b : List PByte} (hdesc : i.desc = []) (hva : t.f 64 8 + 32 * (i.lo + i.pos) = va)
    (hv : w.passTo (w.dev.wokenAt i.iid) = v) (hread : v.readVa (v.dev.ctxOf i.gid) va 32 (i.reader v.dev) = (.ok b, u)) :
    copyDescriptorReadWork c k w = if b.any (·.2) || copyBad b
      then (u.poisonRead i.gid (poisonGranules va b)).failInst i ⟨.pt, c⟩ .copyRange (leBytes 8 va)
      else ((u.poisonRead i.gid (poisonGranules va b)).setInst i.iid
        (fun i => { i with desc := b, row := 0, off := 0 })).copyNext { i with desc := b, row := 0, off := 0 } t := by
  subst hv hva
  rw [copyDescriptorReadWork, hi]
  dsimp -zeta only
  rw [ht]
  dsimp -zeta only
  rw [if_neg (by simp [hkind, hlist, hstart, hstop, hended, hpage, hpos])]
  rw [if_neg (not_not_intro hdesc)]
  dsimp only
  rw [hread]

end copy

/-- A descriptor of one row that the reservation holds: its read is on its way, with the row as it stood. -/
theorem copyNext_oneRow {w v : Work} {i : Inst} {t : Task} {d : CopyDesc} {l : List PByte} (hd : copyOf i.desc = d) (hzero : d.zero = false)
    (hrow : i.row = 0) (hoff : i.off = 0) (htags : w.dev.tags i.cluster < 2048) (hfits : d.len ≤ t.landing * 1024)
    (hnone : w.dev.porterBytes i.iid = 0) (hread : w.readVa (w.dev.ctxOf i.gid) d.src d.len (i.reader w.dev) = (.ok l, v)) :
    w.copyNext i t = (((v.count ⟨.pt, i.cluster⟩ 1 (portCharge true d.src d.len)).count ⟨.pt, i.cluster⟩ 3
      (v.hostBytes (w.dev.ctxOf i.gid) d.src d.len false (i.reader w.dev))).addFetch i 2 (.copy i.pos 0 d.dst true true) false
      [(d.src, d.len)] [(d.src, d.len)] l none).rowIssued i.iid d := by
  rw [Work.copyNext, hd]
  rw [if_neg (by simp [hzero])]
  simp only [hrow, hoff, Nat.zero_mul, Nat.add_zero, Nat.sub_zero, Nat.min_eq_left hfits, ite_self]
  rw [if_neg (by simp [hnone]; omega)]
  simp only [Nat.zero_add, Nat.le_refl, decide_true, if_true]
  rw [hread]

theorem addFetch_entry (w : Work) (i : Inst) (unit : Nat) (dest : Dest) (phys : Bool) (pieces span : List (Nat × Nat)) (copy : List PByte) :
    ∃ f : Fetch, (w.addFetch i unit dest phys pieces span copy none).dev.fetches = w.dev.fetches ++ [f]
      ∧ f.copy = copy ∧ f.pieces = pieces ∧ f.dest = dest ∧ f.iid = i.iid ∧ f.unit = unit :=
  ⟨_, rfl, rfl, rfl, rfl, rfl, rfl⟩

/-- Settles O33: the dispatcher's step in each engine, the compressor's oldest tile, and the Porter's next descriptor. -/
theorem enginesTakeSteps : Obligations.EnginesTakeSteps := by
  unfold Obligations.EnginesTakeSteps
  intro s c
  refine ⟨?_, ?_, ?_, ?_⟩
  · intro i t v y hfind ht hc
    subst hc
    have hrun : ∀ {z : Work}, y.instStep i = some z → Runs (.dispatch i.cluster) s z := fun hstep =>
      runs_of_work rfl (dispatch_step rfl hfind rfl hstep)
    clear_value y
    refine ⟨fun o rest htiles hroom => hrun (instStep_tile ht htiles hroom), fun htiles hstop hvoid hstart hended => ?_⟩
    obtain ⟨hgather, htransform, hvector, hmatch⟩ := instStep_running ht htiles hstop hvoid hstart
    refine ⟨?_, ?_, ?_, ?_⟩
    · intro st hkind hpage hst hready hfree
      refine ⟨fun va hpolicy hpoison => ?_, fun hclean => ?_⟩
      · exact hrun ((htransform hkind hpage).trans (transformStep_stop hended hst hready hfree hpolicy hpoison))
      · intro z u₀ u
        have hrow := (htransform hkind hpage).trans (transformStep_row hended hst hready hfree hclean (z := z) (u := u) rfl rfl)
        clear_value u
        refine ⟨fun hlast => ?_, fun j hlast hj => ?_⟩
        · rw [hlast, if_neg Bool.false_ne_true] at hrow
          exact hrun hrow
        · rw [hlast, if_pos rfl, hj] at hrow
          exact hrun hrow
    · intro hkind hpage hpos hscal b n len hseg hdyn hwhole hnan hle hne hready e0 e1 hclean cut q r u
      exact hrun ((hvector hkind hpage).trans ((vectorStep_run hended hpos hscal hseg).trans
        (vectorRun_elementwise rfl rfl hdyn hwhole hnan hle hne hready rfl rfl hclean rfl rfl rfl)))
    · intro e p n z l hkind hpage hfree hpos hids hlists hbuild hkeys hprobe hpart hlt hgot hpolicy hi found u
      have hnext := (matchNext_probe (w := y) (e := e) hbuild hkeys hprobe hpart).trans (matchProbe_chunk (t := t) hlt hgot hpolicy)
      refine hrun ((hmatch hkind hpage).trans (matchStep_next hended hpos hfree hids hlists hnext (j := i.probed (t.f 98 2) p n z (chunkIds l) found)
        ?_ rfl hstop))
      rw [Dev.inst?, Work.count_insts, Work.count_insts]
      exact inst?_setInst (fun _ => rfl) hi
    · intro os last hkind hpage hscatter hhub hgroup
      exact hrun ((hgather hkind hpage).trans (gatherStep_group hended hscatter hhub hgroup))
  · intro o rest htiles x
    obtain ⟨hok, herr⟩ := tileWrite_result htiles (x := x) rfl
    exact ⟨fun h => runs_of_work rfl (hok h), fun e h => runs_of_work rfl (herr e h)⟩
  · intro k i t w hi ht hkind hlist hstart hstop hended hpage hpos v x
    refine ⟨fun hdesc => ?_, fun b hdesc hx => ?_⟩
    · exact runs_of_work (f := fun w => copyDescriptorReadWork c k (w.stepBeat c)) rfl
        (copyDescriptorRead_going hi ht hkind hlist hstart hstop hended hpage hpos hdesc)
    · have hread : v.readVa (v.dev.ctxOf i.gid) (t.f 64 8 + 32 * (i.lo + i.pos)) 32 (i.reader v.dev) = x := rfl
      clear_value x
      obtain ⟨a, x⟩ := x
      cases hx
      have hfresh := copyDescriptorRead_fresh hi ht hkind hlist hstart hstop hended hpage hpos hdesc rfl rfl hread
      intro u
      refine ⟨fun hbad => ?_, fun hgood => ?_⟩
      · rw [hbad, if_pos rfl] at hfresh
        exact runs_of_work (f := fun w => copyDescriptorReadWork c k (w.stepBeat c)) rfl hfresh
      · rw [hgood, if_neg Bool.false_ne_true] at hfresh
        exact runs_of_work (f := fun w => copyDescriptorReadWork c k (w.stepBeat c)) rfl hfresh
  · intro w i t hzero hrow hoff htags hrows hfits hnone d x l hx
    have hread : w.readVa (w.dev.ctxOf i.gid) d.src d.len (i.reader w.dev) = x := rfl
    clear_value x
    obtain ⟨a, v⟩ := x
    cases hx
    rw [copyNext_oneRow rfl hzero hrow hoff htags hfits hnone hread]
    obtain ⟨f, hfetches, hf⟩ := addFetch_entry
      ((v.count ⟨.pt, i.cluster⟩ 1 (portCharge true d.src d.len)).count ⟨.pt, i.cluster⟩ 3
        (v.hostBytes (w.dev.ctxOf i.gid) d.src d.len false (i.reader w.dev))) i 2 (.copy i.pos 0 d.dst true true) false
      [(d.src, d.len)] [(d.src, d.len)] l
    rw [Work.count_fetches, Work.count_fetches] at hfetches
    exact ⟨f, hfetches, hf⟩

end Sys2Proof
end

section
/-! SUPPORT. The registers of the hub's pages that a read of memory leaves: an error that it meets is recorded on the page of a memory unit,
which stands above them (R345, R349, R398, R399), and a counter that wraps in SK_OVF_SRC (R488). -/

namespace Sys2Proof

open Machine

/-- `v` holds the same registers as `w` below the pages of the memory units, but for SK_OVF_SRC. -/
structure HubKept (w v : Work) : Prop where
  kept : ∀ (k : Nat) (d : Word), k < 0x100000 → k ≠ regOff pgSk .skOvfSrc 0 → look d k v.dev.regs = look d k w.dev.regs

namespace HubKept

theorem refl (w : Work) : HubKept w w := ⟨fun _ _ _ _ => rfl⟩

theorem trans {w v x : Work} (h : HubKept w v) (h' : HubKept v x) : HubKept w x :=
  ⟨fun k d hk hne => (h'.kept k d hk hne).trans (h.kept k d hk hne)⟩

theorem of_regs {w v : Work} (h : v.dev.regs = w.dev.regs) : HubKept w v := ⟨fun k d _ _ => by rw [h]⟩

theorem whenB {w : Work} {c : Bool} {f : Work → Work} (h : ∀ w, HubKept w (f w)) : HubKept w (w.whenB c f) := by
  cases c
  · exact refl w
  · exact h w

theorem each {α : Type} {f : α → Work → Work} (h : ∀ x w, HubKept w (f x w)) (l : List α) (w : Work) : HubKept w (w.each l f) := by
  induction l generalizing w with
  | nil => exact refl w
  | cons x t ih => exact (h x w).trans (ih (f x w))

theorem foldl {α γ : Type} {f : γ × Work → α → γ × Work} (h : ∀ acc x, HubKept acc.2 (f acc x).2) (l : List α) (acc : γ × Work) :
    HubKept acc.2 (l.foldl f acc).2 := by
  induction l generalizing acc with
  | nil => exact refl _
  | cons x t ih => exact (h acc x).trans (ih _)

/-- A register of a page above the hub's. -/
theorem setReg {p : Page} {id : RegId} {i : Nat} (w : Work) (x : Word) (h : 0x100000 ≤ regOff p id i) : HubKept w (w.setReg p id x i) :=
  ⟨fun _ _ hk _ => look_put_other _ _ _ (by omega) _⟩

theorem ovfSrc (w : Work) (x : Word) : HubKept w (w.setReg pgSk .skOvfSrc x) := ⟨fun _ _ _ hne => look_put_other _ _ _ hne _⟩

theorem bump (w : Work) (p : Page) (k n : Nat) : HubKept w (w.bump p k n).1 := by
  rw [Work.bump]
  split
  · exact refl w
  · exact of_regs rfl

theorem msixRaw (w : Work) (fn vec : Nat) : HubKept w (w.msixRaw fn vec).1 := by
  rw [Work.msixRaw]
  split
  · exact refl w
  · split <;> exact of_regs rfl

theorem wrapped (w : Work) (key : Nat) : HubKept w (w.wrapped key) := by
  rw [Work.wrapped]
  split
  · dsimp only
    split
    · exact ((ovfSrc ..).trans (msixRaw ..)).trans (bump ..)
    · exact (ovfSrc ..).trans (msixRaw ..)
  · exact refl w

theorem count (w : Work) (p : Page) (k n : Nat) : HubKept w (w.count p k n) := by
  rw [Work.count]
  dsimp only
  split
  · exact (bump ..).trans (wrapped ..)
  · exact bump ..

theorem message (w : Work) (fn vec : Nat) : HubKept w (w.message fn vec) := by
  rw [Work.message]
  dsimp only
  split
  · exact (msixRaw ..).trans (count ..)
  · exact msixRaw ..

theorem coreInt (w : Work) (n s : Nat) : HubKept w (w.coreInt n s) := by
  rw [Work.coreInt]
  dsimp only
  split
  · exact (of_regs (w := w) (v := w.setCore n _) rfl).trans (count ..)
  · exact (of_regs (w := w) (v := w.setCore n _) rfl).trans (count ..)
  · exact of_regs rfl

theorem trigger (w : Work) (source : Nat) : HubKept w (w.trigger source) := by
  rw [Work.trigger]
  split
  · exact count ..
  · split
    · exact count ..
    · exact of_regs rfl

theorem errMessages (w : Work) (sev : Nat) (ctx : Option Nat) : HubKept w (w.errMessages sev ctx) := by
  unfold Work.errMessages
  dsimp only
  split
  · exact (whenB fun w => message w ..).trans (whenB fun w => coreInt w ..)
  · exact ((whenB fun w => message w ..).trans (whenB fun w => coreInt w ..)).trans (whenB fun w => message w ..)

/-- An error on a page above the hub's. -/
theorem raise (w : Work) {p : Page} (e : Err) (a : ErrArgs) (h : ∀ id, 0x100000 ≤ regOff p id 0) : HubKept w (w.raise p e a) := by
  rw [Work.raise]
  split
  · exact refl w
  · dsimp only
    refine trans ?_ (whenB fun w => trigger w ..)
    refine trans ?_ (whenB fun w => errMessages w ..)
    split
    · exact ((setReg w _ (h _)).trans (count ..)).trans (of_regs rfl)
    · exact ((setReg w _ (h _)).trans (count ..)).trans (count ..)

end HubKept

/-! ### Reads of memory -/

/-- Every register of a memory unit's page stands above the hub's pages. -/
theorem memPage_above {p : Page} (hp : p.block = .hm ∨ p.block = .dd ∨ p.block = .cf) (id : RegId) (i : Nat) : 0x100000 ≤ regOff p id i := by
  have hbase : 0x100000 ≤ p.base := by
    rcases hp with h | h | h <;> rw [Page.base, h] <;> dsimp only <;> omega
  rw [regOff]
  split <;> omega

/-- What stands behind a physical address. -/
theorem phys_cell_block {w : Work} {a key : Nat} {p : Page} (h : w.phys a = .cell key p) : p.block = .hm ∨ p.block = .dd ∨ p.block = .cf := by
  unfold Work.phys at h
  extract_lets at h
  repeat' split at h
  all_goals simp only [PhysAt.cell.injEq, reduceCtorEq] at h
  all_goals (obtain ⟨-, rfl⟩ := h; simp)

section memory

variable {p : Page} (hp : p.block = .hm ∨ p.block = .dd ∨ p.block = .cf)

include hp

theorem failMem_hubKept (w : Work) : HubKept w (w.failMem p) :=
  ((HubKept.setReg w _ (memPage_above hp ..)).trans (.of_regs (v := (w.setRf p .hmStat 28 28 1).upd (fun d => { d with
    broken := d.broken ++ [p] })) rfl)).trans (.raise _ _ _ fun id => memPage_above hp id 0)

theorem noteUe_hubKept (w : Work) : HubKept w (w.noteUe p) := by
  unfold Work.noteUe
  extract_lets l v
  split
  · exact (HubKept.of_regs (w := w) (v := v) rfl).trans (failMem_hubKept hp v)
  · exact .of_regs rfl

theorem raiseUe_hubKept (w : Work) (key : Nat) (r : Reader) : HubKept w (w.raiseUe p key r) :=
  ((((HubKept.setReg w _ (memPage_above hp ..)).trans (.setReg _ _ (memPage_above hp ..))).trans (.count ..)).trans
    (.raise _ _ _ fun id => memPage_above hp id 0)).trans (noteUe_hubKept hp _)

theorem readCells_hubKept (w : Work) (key n : Nat) (r : Reader) : HubKept w (w.readCells p key n r).2 := by
  rw [Work.readCells]
  dsimp only
  split
  · exact .refl w
  · split
    · split
      · exact raiseUe_hubKept hp ..
      · exact ((HubKept.count ..).trans (.raise _ _ _ fun id => memPage_above hp id 0)).trans (.of_regs rfl)
    · exact .refl w

end memory

theorem charge_hubKept (w : Work) (k : Nat) (ps : List (Nat × Nat)) : HubKept w (w.charge k ps) := by
  refine HubKept.trans (v := w.chargeGranules k ps) (.each (fun (lo, len) w => ?_) _ w) (.each (fun (lo, len) w => ?_) _ _) <;> dsimp only <;> split
  · exact .whenB fun w => .count w ..
  · exact .refl w
  · exact .whenB fun w => .count w ..
  · exact .refl w

theorem readPart_hubKept (w : Work) (a n : Nat) (r : Reader) : HubKept w (w.readPart a n r).2 := by
  refine HubKept.foldl (fun (l, w) (lo, len) => ?_) _ ([], w)
  dsimp only
  split
  · next h => exact readCells_hubKept (phys_cell_block h) ..
  · exact .refl w

theorem readHost_hubKept (w : Work) (a n : Nat) : HubKept w (w.readHost a n).2 := by
  rw [Work.readHost]
  split
  · exact .refl w
  · exact .whenB fun w => .count w ..

theorem entryNow_hubKept (w : Work) (a : Nat) (r : Reader) : HubKept w (w.entryNow a r).2 := by
  rw [Work.entryNow]
  split
  · next h =>
    dsimp only
    split <;> exact readCells_hubKept (phys_cell_block h) ..
  · exact .refl w

theorem cachedEntry_hubKept (w : Work) (held : List Nat) {now : Work → Option Nat × Work} (h : ∀ w, HubKept w (now w).2) :
    HubKept w (w.cachedEntry held now).2 := by
  rw [Work.cachedEntry]
  dsimp only
  split
  · exact h w
  · split
    · exact .of_regs rfl
    · exact (HubKept.of_regs (w := w) (v := w.draw.2) rfl).trans (h _)

theorem readEntry_hubKept (w : Work) (ctx a : Nat) (r : Reader) : HubKept w (w.readEntry ctx a r).2 := by
  have h := cachedEntry_hubKept w (look [] ((ctx * 2 ^ 32 + r.who) * 2 ^ 48 + a) w.dev.xheld) fun w => entryNow_hubKept w a r
  unfold Work.readEntry
  extract_lets key held
  change HubKept w (w.cachedEntry held _).2 at h
  generalize w.cachedEntry held _ = x at h ⊢
  obtain ⟨⟨v, isNew⟩, x⟩ := x
  dsimp only at h ⊢
  refine h.trans (HubKept.whenB ?_)
  intro w
  exact .of_regs rfl

theorem translate_hubKept (w : Work) (ctx va : Nat) (write : Bool) (r : Reader) : HubKept w (w.translate ctx va write r).2 := by
  rw [Work.translate]
  dsimp only
  split
  · exact .refl w
  · have h1 := readEntry_hubKept w ctx (fld (w.reg pgTt .ttXlateLo ctx) 31 17 * 2 ^ 17 + w.rf pgTt .ttXlateHi 15 0 ctx * 2 ^ 32
      + va / 2 ^ 30 * 8) r
    generalize w.readEntry ctx _ r = e1 at h1 ⊢
    obtain ⟨e1, v⟩ := e1
    dsimp only at h1 ⊢
    split
    · exact h1
    · split
      · exact h1
      · split
        · split <;> exact h1
        · split
          · exact h1
          · rename_i e _ _ _
            refine h1.trans ?_
            have h2 := readEntry_hubKept v ctx (e.addr + va / 2 ^ 21 % 512 * 8) r
            generalize v.readEntry ctx (e.addr + va / 2 ^ 21 % 512 * 8) r = e2 at h2 ⊢
            obtain ⟨e2, x⟩ := e2
            dsimp only at h2 ⊢
            split
            · exact h2
            · split <;> exact h2

theorem translateRange_hubKept (w : Work) (ctx va n : Nat) (write : Bool) (r : Reader) :
    HubKept w (w.translateRange ctx va n write r).2 := by
  apply HubKept.foldl (acc := (Except.ok [], w))
  rintro ⟨_ | l, w⟩ ⟨lo, len⟩
  · exact .refl w
  · have h := translate_hubKept w ctx lo write r
    dsimp only
    generalize w.translate ctx lo write r = t at h ⊢
    obtain ⟨_ | (a | a), v⟩ := t
    · exact h
    · dsimp only
      split <;> exact h
    · exact h

theorem readTargets_hubKept (w : Work) (ps : List (Target × Nat × Nat)) (r : Reader) : HubKept w (w.readTargets ps r).2 := by
  apply HubKept.foldl (acc := (Except.ok [], w))
  rintro ⟨_ | l, w⟩ ⟨t, _, len⟩
  · exact .refl w
  · cases t with
    | dev a => exact readPart_hubKept w a len r
    | host a =>
      have h := readHost_hubKept w a len
      dsimp only
      generalize w.readHost a len = x at h ⊢
      obtain ⟨_ | l, v⟩ := x <;> exact h

theorem readVa_hubKept (w : Work) (ctx va n : Nat) (r : Reader) : HubKept w (w.readVa ctx va n r).2 := by
  have h := translateRange_hubKept w ctx va n false r
  rw [Work.readVa]
  generalize w.translateRange ctx va n false r = x at h ⊢
  obtain ⟨_ | ps, v⟩ := x
  · exact h
  · exact (h.trans (charge_hubKept ..)).trans (readTargets_hubKept ..)

/-! ### Object IDs (R281 to R283) -/

theorem objEntry_hubKept (w : Work) (ctx id : Nat) : HubKept w (w.objEntry ctx id).2 := by
  have hcached := @cachedEntry_hubKept
  have hread := readVa_hubKept
  unfold Work.objEntry
  obtain ⟨cached, hdef⟩ : ∃ f, @Work.cachedEntry = f := ⟨_, rfl⟩
  obtain ⟨readVa, hdef'⟩ : ∃ f, @Work.readVa = f := ⟨_, rfl⟩
  rw [hdef] at hcached ⊢
  rw [hdef'] at hread ⊢
  extract_lets -underBinder hi lo base va held
  split
  · exact .refl w
  · generalize hx : cached w held _ = x
    have h : HubKept w x.2 := by
      rw [← hx]
      refine hcached w held fun w => ?_
      have hr := hread w ctx va 8 ⟨some ctx, 0xFFFFFFFF, 0xFFFFFFFF⟩
      generalize readVa w ctx va 8 _ = y at hr ⊢
      obtain ⟨_ | l, v⟩ := y <;> exact hr
    clear hx
    obtain ⟨⟨v, isNew⟩, x⟩ := x
    dsimp only at h ⊢
    refine h.trans (HubKept.whenB ?_)
    intro w
    exact .of_regs rfl

theorem object_hubKept (w : Work) (ctx id : Nat) : HubKept w (w.object ctx id).2 := by
  have h := objEntry_hubKept w ctx id
  rw [Work.object]
  generalize w.objEntry ctx id = x at h ⊢
  obtain ⟨_ | e, v⟩ := x
  · exact h
  · dsimp only
    repeat' split
    all_goals exact h

end Sys2Proof
end

section
/-! SUPPORT. The synchronisation store: operation slots and the arithmetic of its entries (R283 to R290, R308). -/

namespace Sys2Proof

open Machine

/-! ### The operation that a slot starts (R308) -/

/-- The commands of the operation slots, by their operation. -/
def slotCommands (who : Agent) (k : Nat) (fence : Bool) : List (Nat × Instr) :=
  [(1, .opAdd who k fence), (2, .opTake who k fence), (3, .opInit who k), (4, .opRead who k), (5, .opWait who k), (6, .opUnwait who k)]

theorem slotCommands_op {who : Agent} {k op : Nat} {fence : Bool} {c : Instr} (h : (op, c) ∈ slotCommands who k fence) : 1 ≤ op ∧ op ≤ 6 := by
  simp only [slotCommands, List.mem_cons, List.not_mem_nil, or_false, Prod.mk.injEq] at h
  omega

theorem exec_slotCommand {who : Agent} {k op : Nat} {fence : Bool} {c : Instr} (h : (op, c) ∈ slotCommands who k fence) (s : State) :
    exec c s = s.run (fun w => w.poke who (at_ pgSy .syOpCtl k) (atBit (b2n (fence && decide (op ≤ 2))) 4 ||| atBit op 0)) := by
  simp only [slotCommands, List.mem_cons, List.not_mem_nil, or_false, Prod.mk.injEq] at h
  rcases h with ⟨rfl, rfl⟩ | ⟨rfl, rfl⟩ | ⟨rfl, rfl⟩ | ⟨rfl, rfl⟩ | ⟨rfl, rfl⟩ | ⟨rfl, rfl⟩ <;> cases fence <;> rfl

theorem slotWord_fields {op : Nat} (fence : Bool) (h : op ≤ 6) :
    fld (atBit (b2n fence) 4 ||| atBit op 0) 3 0 = op ∧ bitOf (atBit (b2n fence) 4 ||| atBit op 0) 4 = fence := by
  match op, h with
  | 0, _ | 1, _ | 2, _ | 3, _ | 4, _ | 5, _ | 6, _ => cases fence <;> decide

theorem runs_slotCommand {s : State} {who : Agent} {k op : Nat} {fence : Bool} {c : Instr} {x : Work} (hmem : (op, c) ∈ slotCommands who k fence)
    (hacc : Accepted s who pgSy .syOpCtl k (atBit (b2n (fence && decide (op ≤ 2))) 4 ||| atBit op 0))
    (hop : s.work.syOp k op (Agent.thread who) (fence && decide (op ≤ 2)) = .ok x) : Runs c s x := by
  obtain ⟨hfld, hbit⟩ := slotWord_fields (fence && decide (op ≤ 2)) (slotCommands_op hmem).2
  have heff : s.work.writeEffect pgSy (regOf pgSy .syOpCtl) k who (atBit (b2n (fence && decide (op ≤ 2))) 4 ||| atBit op 0) false = .ok x := by
    rw [← hop]
    exact (congrArg (fun a => s.work.syOp k a (Agent.thread who) _) hfld).trans (congrArg (fun b => s.work.syOp k op (Agent.thread who) b) hbit)
  exact runs_poke (exec_slotCommand hmem s) hacc heff

/-- The view in which a slot's operation looks its object up: the slot has taken its thread. -/
def opView (w : Work) (k op thread : Nat) : Work :=
  if op = 5 then w else w.setSySlot k (fun x => { x with thread := if x.waiting then x.thread else thread })

theorem opView_syOpArg (w : Work) (k op thread : Nat) : (opView w k op thread).reg pgSy .syOpArg k = w.reg pgSy .syOpArg k := by
  rw [opView]
  split <;> rfl

/-- Where an operation of an idle slot goes: to the entry, to an error, or to the object's device. -/
theorem syOp_result {w v : Work} {k op thread ctx id n : Nat} {fence : Bool} {x : Obj × Work}
    (hctx : (if k < 32 then k else fld (w.reg pgSy .syOpObj k) 28 24) = ctx) (hid : fld (w.reg pgSy .syOpObj k) 19 0 = id)
    (hn : fld (w.reg pgSy .syOpArg k) 15 0 = n) (hop : 1 ≤ op ∧ op ≤ 6) (hcell : isCellId id = false) (hcount : op ≤ 2 → n ≠ 0)
    (hidle : (w.sySlot k).busy = false) (hx : (opView w k op thread).object ctx id = x) :
    (∀ p own, x = (.here p own, v) → w.syOp k op thread fence = .ok (v.syLocal k op ctx id p thread))
    ∧ (x = (.bad, v) → w.syOp k op thread fence
        = .ok ((v.raise pgSy .syncXlate ⟨1, some ctx, id, codeSlot k, []⟩).syEnd k 2 Err.syncXlate.code none))
    ∧ (∀ d rctx rid, x = (.remote d rctx rid, v) →
        (op = 6 → w.syOp k op thread fence = .ok ((v.syUnwait k).syEnd k 1 0 none))
        ∧ (op ∈ [3, 4, 5] → w.syOp k op thread fence = .ok (v.syEnd k 4 Rej.range.code none))
        ∧ (op ≤ 2 → (∀ q, v.reach d none = .ok q →
            w.syOp k op thread fence = .ok ((v.sendSignal q rctx d rid op n fence []).syEnd k 1 0 none))
          ∧ (∀ e, v.reach d none = .error e → w.syOp k op thread fence = .ok (v.syEnd k 2 Err.linkLost.code none)))) := by
  subst hctx hid hn
  rw [opView] at hx
  rw [Work.syOp]
  rw [if_neg (by omega), if_neg (by simp [hcell]), if_neg (by omega), if_neg (by simp [hidle])]
  dsimp only
  rw [hx]
  clear hx
  refine ⟨?_, ?_, ?_⟩
  · rintro p own rfl
    rfl
  · rintro rfl
    rfl
  · rintro d rctx rid rfl
    dsimp only
    refine ⟨fun h => if_pos h, fun h => ?_, fun h => ?_⟩
    · simp only [List.mem_cons, List.not_mem_nil, or_false] at h
      rw [if_neg (by omega), if_pos (by omega)]
    · rw [if_neg (by omega), if_neg (by omega)]
      exact ⟨fun q hq => by rw [hq], fun e he => by rw [he]⟩

/-! ### An operation on an entry of this device (R285, R286) -/

/-- A wait within reach of the entry's VALUE is registered without an error (R286). -/
theorem registerWait_inReach {w : Work} {p ctx id : Nat} {target : Word} {who : Waiter}
    (h : serialDiff target.toNat (w.syEnt p).value.toNat ≤ (w.syEnt p).reachLimit) :
    w.registerWait p ctx id target who = (false, (w.registerWait p ctx id target who).2) := by
  have hnever : decide (((w.syEnt p).reachLimit : Int) < serialDiff target.toNat (w.syEnt p).value.toNat) = false :=
    decide_eq_false (by omega)
  simp only [Work.registerWait, hnever]
  rfl

/-- What each operation does to an entry `e`: an unused entry refuses all but INIT. -/
theorem syLocal_cases (w : Work) (k ctx id p thread : Nat) {e : SyEnt} {arg : Word} (he : w.syEnt p = e) (harg : w.reg pgSy .syOpArg k = arg) :
    (∀ op, e.kind = 0 → op ≠ 3 → w.syLocal k op ctx id p thread
      = (w.raise pgSy .syncXlate ⟨1, some ctx, id, codeSlot k, []⟩).syEnd k 2 Err.syncXlate.code none)
    ∧ (e.kind ≠ 0 → w.syLocal k 1 ctx id p thread
      = (w.applyRes p ctx id (codeSlot k) (e.add (fld arg 15 0))).syDone k p (e.add (fld arg 15 0)))
    ∧ (e.kind ≠ 0 → w.syLocal k 2 ctx id p thread
      = (w.applyRes p ctx id (codeSlot k) (e.take (fld arg 15 0))).syDone k p (e.take (fld arg 15 0)))
    ∧ (w.dev.sync.waits.any (fun x => x.phys == p) = false → initOk (w.reg pgSy .syOpInit k) (w.reg pgSy .syOpMask k) arg = true →
      ∀ n, n = (⟨arg, if fld (w.reg pgSy .syOpInit k) 31 30 = 1 ∧ bitOf (w.reg pgSy .syOpInit k) 29 = true then arg else 0,
        w.reg pgSy .syOpInit k, w.reg pgSy .syOpMask k⟩ : SyEnt) →
      w.syLocal k 3 ctx id p thread = ((w.setEnt p n).count pgSy 0).syEnd k 1 0 (some n))
    ∧ (e.kind ≠ 0 → w.syLocal k 4 ctx id p thread
      = ((w.count pgSy 0).syEnd k 1 0 (some e)).setSySlot k (fun x => { x with aux := e.aux }))
    ∧ (e.kind ≠ 0 → serialDiff arg.toNat e.value.toNat ≤ e.reachLimit → w.syLocal k 5 ctx id p thread
      = (((w.syUnwait k).setSySlot k (fun x => { x with waiting := true, outcome := 1, code := 0, value := e.value, thread := thread })).registerWait
          p ctx id arg (.slot k)).2)
    ∧ (e.kind ≠ 0 → w.syLocal k 6 ctx id p thread = (w.syUnwait k).syEnd k 1 0 none) := by
  have hdef : @Work.syLocal = @Work.syLocal := rfl
  conv at hdef => rhs; delta Work.syLocal
  rw [hdef]
  dsimp -zeta -iota -proj only
  rw [he, harg]
  clear hdef
  refine ⟨fun op hkind hop => ?_, fun hkind => ?_, fun hkind => ?_, fun hfree hok n hn => ?_, fun hkind => ?_, fun hkind hreach => ?_,
    fun hkind => ?_⟩ <;> extract_lets -underBinder a e' code
  · exact if_pos ⟨hkind, hop⟩
  · exact if_neg fun h => hkind h.1
  · exact if_neg fun h => hkind h.1
  · rw [if_neg fun h => h.2 rfl]
    change (if w.dev.sync.waits.any (fun x => x.phys == p) then _ else if initOk (w.reg pgSy .syOpInit k) (w.reg pgSy .syOpMask k) a = false then _
      else _) = _
    rw [if_neg (by simp [hfree]), if_neg (by simp [a, hok]), hn]
    simp only [Bool.and_eq_true, beq_iff_eq, a]
  · exact if_neg fun h => hkind h.1
  · rw [if_neg fun h => hkind h.1]
    have hwait := registerWait_inReach (w := (w.syUnwait k).setSySlot k (fun x => { x with
      waiting := true, outcome := 1, code := 0, value := e.value, thread := thread })) (p := p) (ctx := ctx) (id := id) (target := a)
      (who := .slot k) (by rw [← he] at hreach; exact hreach)
    obtain ⟨register, hregister⟩ : ∃ f, @Work.registerWait = f := ⟨_, rfl⟩
    rw [hregister] at hwait ⊢
    exact (congrArg (fun x : Bool × Work => if x.1 = true then x.2.syEnd k 2 Err.tallyRange.code none else x.2) hwait).trans
      (if_neg Bool.false_ne_true)
  · exact if_neg fun h => hkind h.1

/-- A slot whose control register is found is one of the 40. -/
theorem slot_lt_of_accepted {s : State} {who : Agent} {k : Nat} {v : Word} (h : Accepted s who pgSy .syOpCtl k v) : k < 40 := by
  have hreg := h.reg
  rw [findReg, Option.map_eq_some_iff] at hreg
  obtain ⟨r, hfind, heq⟩ := hreg
  obtain ⟨hr, hk⟩ := Prod.mk.inj heq
  have hat := List.find?_some hfind
  rw [hr, show (regOf pgSy .syOpCtl).off = 0x408 from rfl, show (regOf pgSy .syOpCtl).stride = 0x40 from rfl,
    show (regOf pgSy .syOpCtl).count = 40 from rfl] at hat
  rw [hr, show (regOf pgSy .syOpCtl).off = 0x408 from rfl, show (regOf pgSy .syOpCtl).stride = 0x40 from rfl] at hk
  simp only [Bool.and_eq_true, decide_eq_true_eq] at hat
  omega

/-- Looking an object up leaves a slot's argument. -/
theorem object_syOpArg (w : Work) (ctx id : Nat) {k : Nat} (hk : k < 40) :
    (w.object ctx id).2.reg pgSy .syOpArg k = w.reg pgSy .syOpArg k := by
  have hoff : regOff pgSy .syOpArg k = 0x8404 + 0x40 * k := rfl
  have hovf : regOff pgSk .skOvfSrc 0 < 0x8000 := by decide
  rw [Work.reg, Work.reg, (object_hubKept w ctx id).kept _ _ (by omega) (by omega)]
  rfl

/-- Settles O34: the write starts the operation, which ends on the entry, with an error, or at the object's device. -/
theorem slotOperationsOnObjects : Obligations.SlotOperationsOnObjects := by
  unfold Obligations.SlotOperationsOnObjects
  intro s who k op fence own p c hmem hacc obj ctx hcell hcount hidle y w
  have hop := slotCommands_op (who := who) (k := k) (fence := fence) hmem
  have hrun : ∀ {x : Work}, s.work.syOp k op (Agent.thread who) (fence && decide (op ≤ 2)) = .ok x → Runs c s x := runs_slotCommand hmem hacc
  obtain ⟨hhere, hbad, hremote⟩ := syOp_result (v := w) (fence := fence && decide (op ≤ 2)) (thread := Agent.thread who)
    (x := y) rfl rfl rfl hop hcell hcount hidle rfl
  have hy : ∀ {a}, y.1 = a → y = (a, w) := fun h => Prod.ext h rfl
  refine ⟨fun hp => ?_, fun hb => hrun (hbad (hy hb)), fun d rctx rid hr => ?_⟩
  · have hlocal := hhere p own (hy hp)
    obtain ⟨hunused, hadd, htake, hinit, hread, hwait, hunwait⟩ := syLocal_cases w k ctx (fld obj 19 0) p (Agent.thread who) rfl rfl
    intro e arg
    refine ⟨fun h hk => ?_, fun h hk => ?_, fun h hfree hok => ?_, fun h hk => ?_, fun h hk hreach => ?_, fun h hk => ?_, fun hk h => ?_⟩
    · subst h
      exact hrun (hlocal.trans (congrArg Except.ok (hadd hk)))
    · subst h
      exact hrun (hlocal.trans (congrArg Except.ok (htake hk)))
    · subst h
      intro n
      exact hrun (hlocal.trans (congrArg Except.ok (hinit hfree hok n rfl)))
    · subst h
      exact hrun (hlocal.trans (congrArg Except.ok (hread hk)))
    · subst h
      exact hrun (hlocal.trans (congrArg Except.ok (hwait hk hreach)))
    · subst h
      exact hrun (hlocal.trans (congrArg Except.ok (hunwait hk)))
    · exact hrun (hlocal.trans (congrArg Except.ok (hunused op hk h)))
  · obtain ⟨hunwait, hrange, hsend⟩ := hremote d rctx rid (hy hr)
    refine ⟨fun h => hrun (hunwait h), fun h => hrun (hrange h), fun h => ⟨fun q hq => ?_, fun e he => hrun ((hsend h).2 e he)⟩⟩
    have harg : w.reg pgSy .syOpArg k = s.work.reg pgSy .syOpArg k :=
      (object_syOpArg _ ctx _ (slot_lt_of_accepted hacc)).trans (opView_syOpArg s.work k op (Agent.thread who))
    have hsent := (hsend h).1 q hq
    rw [decide_eq_true h, Bool.and_true] at hsent hrun
    rw [harg]
    exact hrun hsent

end Sys2Proof
end

section
/-! SUPPORT. The arithmetic of the store's entries (R286, R288, R289). -/

namespace Sys2Proof

open Machine

section

variable {e : SyEnt} (n : Nat)

/-- A Tally gains n, unless it is a ring and would lead AUX by more than its limit. -/
theorem add_tally (hkind : e.kind = 1) : e.add n
    = if e.ring ∧ (e.limit : Int) < serialDiff (e.value + BitVec.ofNat 32 n).toNat e.aux.toNat then .err .tallyOverrun
      else .ok { e with value := e.value + BitVec.ofNat 32 n } false := by
  rw [SyEnt.add, hkind]
  rfl

theorem add_bell (hkind : e.kind = 2) : e.add n
    = if e.limit < fld e.aux 15 0 + n then .err .bellOverrun
      else if fld e.aux 15 0 + n = e.limit then .ok { e with value := e.value + 1, aux := 0 } true
      else .ok { e with aux := atBit (fld e.aux 15 0 + n) 0 } false := by
  rw [SyEnt.add, hkind]
  rfl

theorem add_masked (hkind : e.kind = 3) : e.add n
    = if n = 0 ∨ 32 < n ∨ bitOf e.mask (n - 1) = false ∨ bitOf e.aux (n - 1) then .err .bellOverrun
      else if e.aux ||| atBit 1 (n - 1) = e.mask then .ok { e with value := e.value + 1, aux := 0 } true
      else .ok { e with aux := e.aux ||| atBit 1 (n - 1) } false := by
  rw [SyEnt.add, hkind]
  rfl

theorem take_ring (hkind : e.kind = 1) (hring : e.ring = true) : e.take n
    = if serialDiff e.value.toNat e.aux.toNat < (n : Int) then .err .tallyUnderrun
      else .ok { e with aux := e.aux + BitVec.ofNat 32 n } false := by
  rw [SyEnt.take, if_neg (by omega), if_neg (by simp [hkind, hring])]

end

/-- An error that is raised leaves the store. -/
theorem applyRes_err_store (w : Work) (p ctx id sender : Nat) (x : Err) :
    (w.applyRes p ctx id sender (.err x)).dev.sync.store = w.dev.sync.store :=
  congrArg (·.store) (Accessed.sync (.raise w pgSy x _))

/-- Settles O35: each kind's equation, at the conditions that the statement names. -/
theorem objectArithmetic : Obligations.ObjectArithmetic := by
  unfold Obligations.ObjectArithmetic
  intro e n
  refine ⟨fun hkind hring => ?_, fun hkind hring => ⟨fun h => ?_, fun h => ?_, fun h => ?_, fun h => ?_⟩,
    fun hkind => ⟨fun h => ?_, fun h => ?_, fun h => ?_⟩, fun hkind hlo hhi hmask haux => ⟨fun h => ?_, fun h => ?_⟩, fun hkind h => ?_,
    fun hused h => ?_, applyRes_err_store⟩
  · rw [add_tally n hkind, if_neg (by simp [hring])]
  · rw [add_tally n hkind, if_neg (by omega)]
  · rw [add_tally n hkind, if_pos ⟨hring, h⟩]
  · rw [take_ring n hkind hring, if_neg (by omega)]
  · rw [take_ring n hkind hring, if_pos h]
  · rw [add_bell n hkind, if_neg (by omega), if_neg (by omega)]
  · rw [add_bell n hkind, if_neg (by omega), if_pos h]
  · rw [add_bell n hkind, if_pos h]
  · rw [add_masked n hkind, if_neg (by simp [hmask, haux]; omega), if_pos h]
  · rw [add_masked n hkind, if_neg (by simp [hmask, haux]; omega), if_neg h]
  · rw [add_masked n hkind, if_pos h]
  · rw [SyEnt.take, if_neg hused, if_pos h]

end Sys2Proof
end

section
/-! SUPPORT. Tasks that wait on an object and signal one (R290, R298, R301). -/

namespace Sys2Proof

open Machine

/-! ### TASK_WAIT_REGISTER (R298) -/

/-- A task whose object does not lead to an entry of this device fails. -/
def waitRefused (v : Work) (r : TaskRef) (g : Graph) (t : Task) (code : Nat) : Work :=
  (v.raise pgSy .syncXlate ⟨2, some g.ctx, t.waitObj, code, []⟩).failOnly r.gid r.task Err.syncXlate.code

section register

variable {w v : Work} {r : TaskRef} {g : Graph} {t : Task} {o : Obj} (hg : w.dev.graph? r.gid = some g) (ht : g.task? r.task = some t)
  (hstate : t.state = .waiting) (hwaits : t.waitsObject = true) (hnew : t.waitRegistered = false) (hunmet : t.waitMet = false)
  (hedges : w.dev.edgesMet g r.task = true) (hobj : w.object g.ctx t.waitObj = (o, v))

include hg ht hstate hwaits hnew hunmet hedges hobj

theorem taskWaitRegister_used {p : Nat} {own : Bool} (ho : o = .here p own) (hused : (v.syEnt p).kind ≠ 0) : taskWaitRegisterWork r w
    = ((v.setTask r.gid r.task (fun t => { t with waitRegistered := true, waitPhys := p })).registerWait p g.ctx t.waitObj
        (BitVec.ofNat 32 t.waitValue) (.task r.gid r.task)).2 := by
  subst ho
  rw [taskWaitRegisterWork, hg]
  dsimp -zeta only
  rw [ht]
  dsimp -zeta only
  rw [if_neg (by simp [hstate, hwaits, hnew, hunmet, hedges])]
  extract_lets -underBinder ctx code bad
  rw [hobj]
  exact if_neg hused

theorem taskWaitRegister_refused (ho : ∀ p own, o = .here p own → (v.syEnt p).kind = 0) :
    taskWaitRegisterWork r w = waitRefused v r g t (w.dev.codeOf r.gid r.task) := by
  rw [taskWaitRegisterWork, hg]
  dsimp -zeta only
  rw [ht]
  dsimp -zeta only
  rw [if_neg (by simp [hstate, hwaits, hnew, hunmet, hedges])]
  extract_lets -underBinder ctx code bad
  rw [hobj]
  cases o with
  | here p own => exact if_pos (ho p own rfl)
  | bad => rfl
  | remote d rctx rid => rfl

end register

/-! ### TASK_SIGNAL (R290) -/

/-- The view in which a task's signal looks its object up. -/
def signalView (w : Work) (r : TaskRef) (b : Nat) : Work := (w.passTo b).setTask r.gid r.task (fun t => { t with signalDue := none })

theorem anyGraph?_setGraph {w : Work} {gid : Nat} {f : Graph → Graph} (h : ∀ g, (f g).gid = g.gid) :
    (w.setGraph gid f).dev.anyGraph? gid = (w.dev.anyGraph? gid).map f := by
  have hf : ∀ l : List Graph, (updFirst (fun g => g.gid == gid) f l).find? (fun g => g.gid == gid)
      = (l.find? (fun g => g.gid == gid)).map f := fun l => find?_updFirst (fun g hg => by simpa [h] using hg) l
  rw [Dev.anyGraph?, Dev.anyGraph?, Work.setGraph, Work.upd_dev, List.find?_append, List.find?_append, hf, hf]
  cases w.dev.graphs.find? (fun g => g.gid == gid) <;> rfl

theorem anyGraph?_passTo (w : Work) (b gid : Nat) : (w.passTo b).dev.anyGraph? gid = w.dev.anyGraph? gid := by
  rw [Dev.anyGraph?, Work.passTo, Work.pass_eq]
  rfl

/-- It names the same context and task as before. -/
theorem signalView_names (w : Work) (r : TaskRef) (b : Nat) :
    (signalView w r b).dev.ctxOf r.gid = w.dev.ctxOf r.gid ∧ (signalView w r b).dev.codeOf r.gid r.task = w.dev.codeOf r.gid r.task := by
  have hg : (signalView w r b).dev.anyGraph? r.gid = (w.dev.anyGraph? r.gid).map (fun g => { g with
      tasks := updAt (fun t => { t with signalDue := none }) r.task g.tasks }) := by
    rw [← anyGraph?_passTo w b]
    exact anyGraph?_setGraph fun _ => rfl
  rw [Dev.ctxOf, Dev.ctxOf, Dev.codeOf, Dev.codeOf, hg]
  cases w.dev.anyGraph? r.gid <;> exact ⟨rfl, rfl⟩

theorem taskSignal_result {w v : Work} {r : TaskRef} {t : Task} {b ctx code : Nat} {x : Obj × Work} (ht : w.dev.anyTask? r.gid r.task = some t)
    (hdue : t.signalDue = some b) (hctx : (signalView w r b).dev.ctxOf r.gid = ctx) (hcode : (signalView w r b).dev.codeOf r.gid r.task = code)
    (hx : (signalView w r b).object ctx t.signalObj = x) :
    (∀ p own, x = (.here p own, v) → taskSignalWork r w = v.applyRes p ctx t.signalObj code ((v.syEnt p).add t.signalAdd))
    ∧ (x = (.bad, v) → taskSignalWork r w = v.raise pgSy .syncXlate ⟨1, some ctx, t.signalObj, code, []⟩)
    ∧ (∀ d rctx rid, x = (.remote d rctx rid, v) →
      (∀ p, v.reach d none = .ok p → taskSignalWork r w = v.sendSignal p rctx d rid 1 t.signalAdd true [])
      ∧ (∀ n, v.reach d none = .error n →
        taskSignalWork r w = v.raise pgEx .linkLost ⟨2, some ctx, code, codeNone, leBytes 1 n⟩)) := by
  subst hctx hcode
  rw [signalView] at hx
  rw [taskSignalWork, ht]
  dsimp only
  rw [hdue]
  dsimp only
  rw [hx]
  clear hx
  refine ⟨?_, ?_, ?_⟩
  · rintro p own rfl
    rfl
  · rintro rfl
    rfl
  · rintro d rctx rid rfl
    dsimp only
    exact ⟨fun p hp => by rw [hp], fun n hn => by rw [hn] <;> rfl⟩

/-- Settles O36: the wait is registered or refused by where its object leads, and so is the signal applied, refused or sent. -/
theorem tasksWaitAndSignal : Obligations.TasksWaitAndSignal := by
  unfold Obligations.TasksWaitAndSignal
  intro s r
  constructor
  · intro g t hg ht hstate hwaits hnew hunmet hedges x refused
    have hx : s.work.object g.ctx t.waitObj = x := rfl
    clear_value x
    obtain ⟨o, v⟩ := x
    refine ⟨fun p own ho => ⟨fun hused => ?_, fun hunused => ?_⟩, fun ho => ?_⟩
    · exact runs_of_work rfl (taskWaitRegister_used hg ht hstate hwaits hnew hunmet hedges hx ho hused)
    · refine runs_of_work rfl (taskWaitRegister_refused hg ht hstate hwaits hnew hunmet hedges hx fun q own' hq => ?_)
      cases ho.symm.trans hq
      exact hunused
    · exact runs_of_work rfl (taskWaitRegister_refused hg ht hstate hwaits hnew hunmet hedges hx fun q own' hq => absurd hq (ho q own'))
  · intro t b ht hdue ctx code x
    obtain ⟨hctx, hcode⟩ := signalView_names s.work r b
    have hx : (signalView s.work r b).object ctx t.signalObj = x := rfl
    clear_value x
    obtain ⟨o, v⟩ := x
    obtain ⟨hhere, hbad, hremote⟩ := taskSignal_result (v := v) ht hdue hctx hcode hx
    refine ⟨fun p own ho => ?_, fun ho => ?_, fun d rctx rid ho => ?_⟩
    · exact runs_of_work rfl (hhere p own (by rw [← ho]))
    · exact runs_of_work rfl (hbad (by rw [← ho]))
    · obtain ⟨hsent, hlost⟩ := hremote d rctx rid (by rw [← ho])
      exact ⟨fun p hp => runs_of_work rfl (hsent p hp), fun n hn => runs_of_work rfl (hlost n hn)⟩

end Sys2Proof
end

section
/-! SUPPORT. Cells: adds, and the waits that they satisfy (R291, R296, R297, R312). -/

namespace Sys2Proof

open Machine

/-! ### SY_CELL_ADD (R312) -/

theorem cellWord_fields {k n : Nat} (hk : k ≤ 47) (hn : n < 65536) :
    fld (atBit k 16 ||| atBit n 0) 21 16 = k ∧ fld (atBit k 16 ||| atBit n 0) 15 0 = n := by
  have hword : (atBit k 16 ||| atBit n 0).toNat = k * 2 ^ 16 + n := by
    rw [toNat_or_of_apart 16 (by rw [toNat_atBit]; omega) (by rw [toNat_atBit]; omega), toNat_atBit, toNat_atBit]
    omega
  rw [fld_eq, fld_eq, hword]
  omega

theorem writeCellAdd_adds {w : Work} {c k n : Nat} (hk : k ≤ 47) (hpos : 0 < n) (hn : n < 65536) (hopen : w.cellsShut c = false) :
    w.writeCellAdd c (atBit k 16 ||| atBit n 0) = .ok (w.cellAdd c k n) := by
  obtain ⟨hcell, hadd⟩ := cellWord_fields hk hn
  rw [Work.writeCellAdd, hcell, hadd, need_of_true (by simp [hk]; omega), need_of_true (by simp [hopen])]
  rfl

/-! ### CELL_ADD_LAND (R296) -/

/-- The first of equal elements is the one dropped. -/
theorem cellDrop1_append {l₁ l₂ : List CellAdd} {a : CellAdd} (h : a ∉ l₁) : cellAddLandWork.drop1 a (l₁ ++ a :: l₂) = l₁ ++ l₂ := by
  induction l₁ with
  | nil => exact if_pos rfl
  | cons x t ih =>
    rw [List.mem_cons, not_or] at h
    rw [List.cons_append, cellAddLandWork.drop1, if_neg (Ne.symm h.1), ih h.2]
    rfl

theorem cellAddLand_first {w : Work} {l₁ l₂ : List CellAdd} {a : CellAdd} (hadds : w.dev.sync.adds = l₁ ++ a :: l₂)
    (hbefore : ∀ x ∈ l₁, a.due < x.due) (hafter : ∀ x ∈ l₂, a.due ≤ x.due) {v : Work}
    (hv : (w.passTo a.due).updSync (fun y => { y with adds := l₁ ++ l₂ }) = v) :
    cellAddLandWork w = if (v.pitchAt a.cluster).isNone then v else v.cellAdd a.cluster a.cell a.n := by
  have hnot : a ∉ l₁ := fun h => absurd (hbefore a h) (by omega)
  subst hv
  rw [cellAddLandWork, hadds]
  rw [foldl_keeps_best (fun _ => rfl) (fun y x => ite_cases ..) (fun y hy => if_pos (hbefore y hy))
    (fun x hx => if_neg (by have := hafter x hx; omega))]
  dsimp -zeta only
  extract_lets -underBinder v
  have hv : v = (w.passTo a.due).updSync (fun y => { y with adds := l₁ ++ l₂ }) := by
    have hpassed : (w.passTo a.due).dev.sync.adds = l₁ ++ a :: l₂ := by
      rw [Work.passTo, Work.pass_eq]
      exact hadds
    rw [← cellDrop1_append hnot, ← hpassed]
    rfl
  rw [hv]

/-! ### Waits on a cell (R296, R297) -/

theorem whenB_sync {w : Work} {c : Bool} {f : Work → Work} (h : ∀ w, (f w).dev.sync = w.dev.sync) : (w.whenB c f).dev.sync = w.dev.sync := by
  cases c
  · rfl
  · exact h w

/-- The layout that a slotted one takes is in its own record, its cluster's and the counters. -/
theorem chooseLayout_sync (w : Work) (i : Inst) (t : Task) (starts : Bool) : (w.chooseLayout i t starts).dev.sync = w.dev.sync := by
  unfold Work.chooseLayout
  split
  · rfl
  · extract_lets x c pr cap may m l v code u
    have hv : v.dev.sync = w.dev.sync := whenB_sync fun w => Work.count_sync ..
    have hu : u.dev.sync = v.dev.sync := whenB_sync fun _ => rfl
    exact hu.trans hv

/-- A start leaves the store and the cells, but for a table that an EMBED_BAG reads. -/
theorem startInst_sync {w : Work} {iid : Nat}
    (hkind : ∀ (i : Inst) (t : Task), w.dev.inst? iid = some i → i.task? w.dev = some t → t.kind ≠ some .embedBag) :
    (w.startInst iid).dev.sync = w.dev.sync := by
  unfold Work.startInst
  split
  · rfl
  · next i hi =>
    split
    · rfl
    · next t ht =>
      split
      · rfl
      · split
        · rfl
        · extract_lets ctx w₁ w₂ w₃ w₄
          rw [if_neg (hkind i t hi ht)]
          have h₃ : w₃.dev.sync = w.dev.sync := whenB_sync (w := w₂) fun w => Work.count_sync ..
          exact (chooseLayout_sync ..).trans h₃

/-- A wait on a cell that its value has reached, and that is not yet satisfied. -/
def CellDue (w : Work) (c k : Nat) (x : CellWait) : Prop :=
  x.cluster = c ∧ x.cell = k ∧ x.wakeAt = none ∧ x.never = false ∧ 0 ≤ serialDiff (w.reg ⟨.sy, c⟩ .syCell k).toNat x.target.toNat

theorem cellDue_iff {w : Work} {c k : Nat} {x : CellWait} :
    (x.cluster == c && x.cell == k && x.wakeAt.isNone && !x.never
      && decide (0 ≤ serialDiff (w.reg ⟨.sy, c⟩ .syCell k).toNat x.target.toNat)) = true ↔ CellDue w c k x := by
  simp [CellDue, and_assoc]

theorem testCell_none {w : Work} {c k : Nat} (h : ∀ x ∈ w.dev.sync.cellWaits, ¬ CellDue w c k x) : w.testCell c k = w := by
  have hnil : w.dev.sync.cellWaits.filter (fun x => x.cluster == c && x.cell == k && x.wakeAt.isNone && !x.never
      && decide (0 ≤ serialDiff (w.reg ⟨.sy, c⟩ .syCell k).toNat x.target.toNat)) = [] :=
    List.filter_eq_nil_iff.mpr fun x hx hdue => h x hx (cellDue_iff.mp hdue)
  rw [Work.testCell, hnil, Work.each_nil]
  have hmap : ∀ l : List CellWait, l.map (fun x => if ([] : List CellWait).contains x then
      { x with wakeAt := some (w.dev.beat + if w.cellWs c k / 128 = 1 then 1 else 2) } else x) = l := fun l =>
    (List.map_congr_left fun _ _ => rfl).trans (List.map_id l)
  rw [Work.updSync, Work.upd]
  simp only [hmap]

theorem testCell_one {w : Work} {c k : Nat} {x : CellWait} (hwaits : w.dev.sync.cellWaits = [x]) (hdue : CellDue w c k x)
    (hkind : ∀ (i : Inst) (t : Task), w.dev.inst? x.iid = some i → i.task? w.dev = some t → t.kind ≠ some .embedBag) :
    (w.testCell c k).dev.sync.cellWaits = [{ x with wakeAt := some (w.dev.beat + if w.cellWs c k / 128 = 1 then 1 else 2) }] := by
  have hone : w.dev.sync.cellWaits.filter (fun x => x.cluster == c && x.cell == k && x.wakeAt.isNone && !x.never
      && decide (0 ≤ serialDiff (w.reg ⟨.sy, c⟩ .syCell k).toNat x.target.toNat)) = [x] := by
    rw [hwaits]
    exact List.filter_cons_of_pos (cellDue_iff.mpr hdue)
  rw [Work.testCell, hone, Work.each_cons, Work.each_nil, startInst_sync, Work.count_sync]
  · rw [Work.updSync, Work.upd_dev]
    dsimp only
    rw [hwaits]
    simp
  · intro i t hi ht
    rw [Dev.inst?, Work.count_insts] at hi
    rw [Inst.task?, Dev.task?, Dev.graph?, Work.count_graphs] at ht
    exact hkind i t hi ht

/-- Settles O37: an add at a cell's register or on its due beat, and the waits that the value reaches. -/
theorem cellsAreAddedTo : Obligations.CellsAreAddedTo := by
  unfold Obligations.CellsAreAddedTo
  intro s
  refine ⟨fun who c k n hk hpos hn hopen hacc => ?_, fun l₁ l₂ a hadds hbefore hafter => ?_, fun w c k => ?_⟩
  · exact runs_poke (c := .syCellAdd who c k n) rfl hacc (writeCellAdd_adds hk hpos hn hopen)
  · intro w
    have hland := cellAddLand_first hadds hbefore hafter (v := w) rfl
    refine ⟨fun hin => ?_, fun hout => ?_⟩
    · rw [if_neg (by simpa [Option.isSome_iff_ne_none] using hin)] at hland
      exact runs_of_work rfl hland
    · rw [if_pos hout] at hland
      exact runs_of_work rfl hland
  · intro due
    exact ⟨testCell_none, fun x hwaits hdue hkind => testCell_one hwaits hdue hkind⟩

end Sys2Proof
end

section
/-! SUPPORT. Timeouts of waits and of parked signals (R298, R299, R303, R305). -/

namespace Sys2Proof

open Machine

theorem foldl_min_eq {d t : Nat} {ds : List Nat} (hmem : t ∈ d :: ds) (hle : ∀ u ∈ d :: ds, t ≤ u) : ds.foldl min d = t := by
  induction ds generalizing d with
  | nil => simpa using (List.mem_singleton.mp hmem).symm
  | cons x l ih =>
    rw [List.foldl_cons]
    refine ih ?_ fun u hu => ?_
    · have hd := hle d (by simp)
      have hx := hle x (by simp)
      rcases List.mem_cons.mp hmem with rfl | hmem
      · simp [Nat.min_eq_left hx]
      · rcases List.mem_cons.mp hmem with rfl | hmem
        · simp [Nat.min_eq_right hd]
        · exact List.mem_cons_of_mem _ hmem
    · rcases List.mem_cons.mp hu with rfl | hu
      · have hd := hle d (by simp)
        have hx := hle x (by simp)
        omega
      · exact hle u (by simp [hu])

theorem each_each_congr {α β : Type} (f : α → Work → Work) (g : β → Work → Work) {w : Work} {a a' : List α} {b b' : List β} (ha : a = a')
    (hb : b = b') : (w.each a f).each b g = (w.each a' f).each b' g := by
  rw [ha, hb]

/-- The earliest of the timeouts, and all that are over then (R298). -/
theorem syncTimeout_first {w v : Work} {t : Nat} {dues : List Nat} (hoff : w.rb pgSy .syCfg 31 = false)
    (hdues : w.dev.sync.waits.filterMap (fun x => x.dueAt w) ++ w.dev.sync.cellWaits.filterMap (fun x => x.dueAt w) = dues)
    (hmem : t ∈ dues) (hle : ∀ u ∈ dues, t ≤ u) (hv : w.passToTime t = v) :
    syncTimeoutWork w = (v.each (v.dev.sync.waits.filter (fun x => (x.dueAt v).any (fun u => decide (u ≤ v.dev.time))))
        (fun x w => w.reportWait x)).each (v.dev.sync.cellWaits.filter (fun x => (x.dueAt v).any (fun u => decide (u ≤ v.dev.time))))
        (fun x w => w.reportCell x) := by
  subst hv
  rw [syncTimeoutWork, if_neg (by simp [hoff])]
  rw [hdues]
  cases dues with
  | nil => cases hmem
  | cons d ds =>
    dsimp only
    rw [foldl_min_eq hmem hle]
    refine each_each_congr _ _ (List.filter_congr fun x _ => ?_) (List.filter_congr fun x _ => ?_) <;> cases x.dueAt (w.passToTime t) <;> rfl

/-- A tick reports the waits marked at the tick before, and marks the others (R299). -/
theorem watchdogTick_marks {w u v : Work} {t : Nat} (hon : w.rb pgSy .syCfg 31 = true) (hperiod : w.rf pgSy .syCfg 15 0 ≠ 0)
    (ht : max (w.rf pgSy .syCfg 15 0 * 1000) (roundUp (max w.dev.time (w.dev.crier.lastWatch + 1)) (w.rf pgSy .syCfg 15 0 * 1000)) = t)
    (hu : (w.passToTime t).upd (fun d => { d with crier := { d.crier with lastWatch := t } }) = u)
    (hv : (u.each (u.dev.sync.waits.filter (fun x => x.marked && !x.reported)) (fun x w => w.reportWait x)).each
        (u.dev.sync.cellWaits.filter (fun x => x.marked && !x.reported && x.wakeAt.isNone)) (fun x w => w.reportCell x) = v) :
    watchdogTickWork w = v.updSync (fun y => { y with
      waits := y.waits.map (fun x => { x with marked := true }), cellWaits := y.cellWaits.map (fun x => { x with marked := true }) }) := by
  subst hv hu ht
  rw [watchdogTickWork, if_neg fun h => h.elim (fun h => Bool.false_ne_true (h.symm.trans hon)) fun h => absurd h (by omega)]

theorem parkTimeout_oldest {w : Work} {port : Nat} {p : Parked} (hp : w.dev.sync.parked.find? (fun p => p.port == port) = some p) :
    parkTimeoutWork port w = (w.passTo (p.since + w.rf pgSy .syParkTo 15 0 * 250)).discardParked p .signalParkTimeout := by
  rw [parkTimeoutWork, hp]

theorem parkedSignalRelease_met {w : Work} {port : Nat} {p : Parked} (hp : w.releasable port = some p) :
    parkedSignalReleaseWork port w = w.releaseParked p := by
  rw [parkedSignalReleaseWork, hp]

/-- Settles O38: the waits over time on the tick that reports them, and the parked signals. -/
theorem waitsAreReported : Obligations.WaitsAreReported := by
  unfold Obligations.WaitsAreReported
  intro s
  refine ⟨fun hoff => ?_, fun hon hperiod => ?_, fun port p hp => ?_, fun port p hp => ?_⟩
  · intro dues t hmem hle w past
    exact runs_of_work rfl (syncTimeout_first hoff rfl hmem hle rfl)
  · intro P t w v
    exact runs_of_work rfl (watchdogTick_marks hon hperiod rfl rfl rfl)
  · exact runs_of_work rfl (parkTimeout_oldest hp)
  · exact runs_of_work rfl (parkedSignalRelease_met hp)

end Sys2Proof
end

section
/-! SUPPORT. The Crier's periodic events, loads and steering (R315, R319 to R327). -/

namespace Sys2Proof

open Machine

/-! ### Periodic events (R315, R326, R327) -/

theorem crierTick_counting {w : Work} (h : w.dev.counting = true) : crierTickWork w
    = (w.passToTime w.dev.crier.nextTick).crier (fun c => { c with tickNo := c.tickNo + 1, nextTick := c.nextTick + 1000 }) := by
  rw [crierTickWork, if_pos h]

theorem epochOut_counting {w v : Work} (h : w.dev.counting = true) (hout : w.rb pgCr .crCfg 4 = true) (hv : w.freeExpected = v) :
    epochOutWork w = (v.passToTime (ceilDiv v.dev.time v.dev.crier.period * v.dev.crier.period)).pulse 0 := by
  subst hv
  rw [epochOutWork, if_pos ⟨h, hout⟩]

/-- The device at a boundary: the number is one up, the epoch is closed for every hot entry, and the length written is in effect. -/
def atBoundary (w : Work) (n : Word) (len : Nat) : Work :=
  (w.setReg pgCr .crEpochNum (n + 1)).upd (fun d => { d with
    closedEpoch := some n
    crier := { d.crier with epochLen := len, nextEpoch := (w.dev.crier.nextEpoch / len + 1) * len }
    insts := d.insts.map (fun i => i.closeEpoch (((i.task? w.dev).map (fun t => t.gather.noCoalesce)).getD false)) })

theorem epochBoundary_counting {w v : Work} {n : Word} {len : Nat} (h : w.dev.counting = true) (hv : w.passToTime w.dev.crier.nextEpoch = v)
    (hn : v.reg pgCr .crEpochNum = n) (hlen : ((v.setReg pgCr .crEpochNum (n + 1)).reg pgCr .crEpochLen).toNat = len) :
    epochBoundaryWork w = ((atBoundary v n len).each (List.range 8) (fun c w => w.coreInt c 1)).pulseSource 4 := by
  subst hv hn hlen
  rw [epochBoundaryWork, if_pos h]
  rfl

/-- Settles O39: each event is its own equation. -/
theorem timeEventsComeWhenDue : Obligations.TimeEventsComeWhenDue := by
  unfold Obligations.TimeEventsComeWhenDue
  intro s
  refine ⟨fun hcounting => ⟨runs_of_work rfl (crierTick_counting hcounting), fun hout => ?_, ?_⟩, runs_of_work rfl rfl⟩
  · exact runs_of_work rfl (epochOut_counting hcounting hout rfl)
  · exact runs_of_work rfl (epochBoundary_counting hcounting rfl rfl rfl)

/-! ### Loads and steering (R319 to R322) -/

theorem writeEffect_loadCtl {w : Work} {who : Agent} {fe : Bool} (h : w.dev.crier.armed = false) :
    w.writeEffect pgCr (regOf pgCr .crLoadCtl) 0 who 1 fe = .ok w.armLoad := by
  have hneed : need (!w.dev.crier.armed) .state = .ok () := need_of_true (by rw [h]; rfl) _
  change (if bitOf (1 : Word) 0 then (do
      need (!w.dev.crier.armed) .state
      return w.armLoad) else .ok w) = _
  rw [if_pos (by decide), hneed]
  rfl

theorem timeLoad_free {w : Work} (hcounting : w.dev.counting = true) (harmed : w.dev.crier.armed = true) (hsource : w.source = 0) :
    timeLoadWork w = (w.pass 1).loadTime w.loadValue := by
  rw [timeLoadWork, if_pos ⟨harmed, hcounting⟩, if_pos hsource]

theorem timeLoad_rack {w : Work} {e : Nat} (hcounting : w.dev.counting = true) (harmed : w.dev.crier.armed = true)
    (hsource : w.source = 1) (hedge : w.dev.crier.loadEdge = some e) : timeLoadWork w
    = (w.passToTime (roundUp (e + w.rf pgCr .crLock 23 16) 4)).loadTime w.loadValue := by
  rw [timeLoadWork, if_pos ⟨harmed, hcounting⟩, if_neg (by omega), if_pos hsource, hedge]

section EpochEdge

variable {w : Work} {tick : Nat} (hcounting : w.dev.counting = true) (hsource : w.source = 1)
  (hlast : (w.dev.power.inputs.getD 0 .reset).lastEdge = some tick) (hjudged : w.dev.crier.judged ≠ some tick)
include hcounting hsource hlast hjudged

/-- An accepted edge is judged once. -/
theorem edgeAccepted : w.source = 1 ∧ (((w.dev.power.inputs.getD 0 .reset).lastEdge == some tick) && w.dev.crier.judged != some tick) = true
    ∧ w.dev.counting = true :=
  ⟨hsource, by rw [hlast]; simp [hjudged], hcounting⟩

theorem epochEdge_armed (harmed : w.dev.crier.armed = true) : epochEdgeWork tick w
    = (w.crier (fun c => { c with judged := some tick })).crier (fun c => { c with loadEdge := some tick }) := by
  rw [epochEdgeWork, if_pos (edgeAccepted hcounting hsource hlast hjudged), if_pos harmed]

theorem epochEdge_outside {v : Work} {k : Nat} {offset : Int} (harmed : w.dev.crier.armed = false)
    (hv : w.crier (fun c => { c with judged := some tick }) = v)
    (hk : (2 * (tick + w.rf pgCr .crLock 23 16) + w.dev.crier.period) / (2 * w.dev.crier.period) * w.dev.crier.period = k)
    (hoffset : ((tick + w.rf pgCr .crLock 23 16 : Nat) : Int) - k = offset)
    (hout : (w.rf pgCr .crLock 31 24 : Int) < offset.natAbs) : epochEdgeWork tick w = v.count pgCr 6 := by
  subst hv hk hoffset
  rw [epochEdgeWork, if_pos (edgeAccepted hcounting hsource hlast hjudged), if_neg (by simp [harmed])]
  exact if_pos hout

/-- A good edge: the offset, the step where it is 4 ns or more, the runs, and the next expected time. -/
theorem epochEdge_good {x : Work} {k : Nat} {offset : Int} (harmed : w.dev.crier.armed = false)
    (hk : (2 * (tick + w.rf pgCr .crLock 23 16) + w.dev.crier.period) / (2 * w.dev.crier.period) * w.dev.crier.period = k)
    (hoffset : ((tick + w.rf pgCr .crLock 23 16 : Nat) : Int) - k = offset)
    (hx : ((((((w.crier (fun c => { c with judged := some tick })).setRf pgCr .crStatus 15 0 (sat16 offset)).whenB
      (decide (4 ≤ offset.natAbs)) (fun w => w.steer (decide (offset < 0)))).crier
      (fun c => { c with goodRun := c.goodRun + 1, missedRun := 0 })).setRf pgCr .crStatus 27 24 0).setRf pgCr .crStatus 29 29 0) = x)
    (hin : offset.natAbs ≤ w.rf pgCr .crLock 31 24) : epochEdgeWork tick w
      = (x.whenB (decide (w.dev.crier.expected ≤ k)) (fun w => w.nextExpected k)).tryLock := by
  subst hx hk hoffset
  rw [epochEdgeWork, if_pos (edgeAccepted hcounting hsource hlast hjudged), if_neg (by simp [harmed])]
  exact if_neg (Int.not_lt.mpr (Int.ofNat_le.mpr hin))

end EpochEdge

theorem epochMissed_counts {w : Work} (hcounting : w.dev.counting = true) (hsource : w.source = 1) : epochMissedWork w
    = (let w := w.passToTime (w.dev.crier.expected + w.rf pgCr .crLock 31 24)
      let n := w.dev.crier.missedRun + 1
      let v := (((w.crier (fun c => { c with missedRun := n, goodRun := 0 })).setRf pgCr .crStatus 27 24 (min n 15)).setRf pgCr
        .crStatus 29 29 1).count pgCr 7
      let x := (v.whenB (decide (n = 1)) (fun w => w.raise pgCr .epochMissed ⟨1, none, codeNone, codeNone, []⟩)).whenB
        (decide (2 ≤ n)) (fun w => w.setRf pgCr .crStatus 28 28 1)
      (x.whenB (decide (n = 2)) (fun w => w.raise pgCr .timeUnlocked ⟨1, none, codeNone, codeNone, []⟩)).nextExpected 0) := by
  rw [epochMissedWork, if_pos ⟨hsource, hcounting⟩]

theorem refclkLost_once {w : Work} (h : w.dev.crier.refLost = false) : refclkLostWork w
    = (((w.crier (fun c => { c with refLost := true })).setRf pgCr .crStatus 30 30 0).setRf pgCr .crStatus 28 28 1).raise
      pgCr .refclkLost ⟨1, none, codeNone, codeNone, []⟩ := by
  rw [refclkLostWork, if_neg (by simp [h])]

/-- Settles O40: the write of ARM by its effect, and each event of the time base by its own equation. -/
theorem timeBaseIsLoadedAndSteered : Obligations.TimeBaseIsLoadedAndSteered := by
  unfold Obligations.TimeBaseIsLoadedAndSteered
  intro s
  refine ⟨fun who hacc harmed => ?arm, fun hcounting harmed => ⟨fun hsource => ?free, fun e hsource hedge => ?rack⟩,
    fun tick hcounting hsource hlast hjudged harmed => ?kept, fun tick hcounting hsource hlast hjudged harmed => ?judged,
    fun hcounting hsource => ?missed, fun hlost => ?lost⟩
  case arm => exact runs_poke (c := .loadArm who) rfl hacc (writeEffect_loadCtl harmed)
  case free => exact runs_of_work rfl (timeLoad_free hcounting harmed hsource)
  case rack => exact runs_of_work rfl (timeLoad_rack hcounting harmed hsource hedge)
  case kept => exact runs_of_work rfl (epochEdge_armed hcounting hsource hlast hjudged harmed)
  case judged =>
    intro w p at_ k offset
    exact ⟨fun hout => runs_of_work rfl (epochEdge_outside hcounting hsource hlast hjudged harmed rfl rfl rfl hout),
      fun hin => runs_of_work rfl (epochEdge_good hcounting hsource hlast hjudged harmed rfl rfl rfl hin)⟩
  case missed => exact runs_of_work rfl (epochMissed_counts hcounting hsource)
  case lost => exact runs_of_work rfl (refclkLost_once hlost)

end Sys2Proof
end

section
/-! SUPPORT. Timed launches and their ballast (R328, R329, R471). -/

namespace Sys2Proof

open Machine

/-! ### The launch entry and the launch beat -/

section Launch

variable {w : Work} {r : TaskRef} {t : Task} (ht : w.dev.task? r.gid r.task = some t) (hstate : t.state = .released) (htimed : t.timed = true)
include ht hstate

include htimed in
theorem launchEntryTake_free (htaken : t.launchTaken = false) (hkind : t.kind ≠ some .signal) (hroom : w.dev.launchEntries < 512) :
    launchEntryTakeWork r w = (w.setTask r.gid r.task (fun t => { t with launchTaken := true, orderAt := w.dev.beat + 16 })).say
      (.launchOrder r.gid r.task) := by
  rw [launchEntryTakeWork, ht]
  exact if_pos ⟨htimed, hstate, htaken, hkind, hroom⟩

theorem launch_reaches (hin : t.inLaunch = true) : launchWork r w = (w.passToTime t.launchTime).launchTask r t := by
  rw [launchWork, ht]
  exact if_neg (by simp [hin, hstate])

end Launch

/-- A conditional step keeps whatever its step keeps. -/
theorem whenB_keeps {α : Type} {g : Work → α} {c : Bool} {f : Work → Work} (h : ∀ w, g (f w) = g w) (w : Work) : g (w.whenB c f) = g w := by
  cases c with
  | false => rfl
  | true => exact h w

/-- What the launch beat settles before the launch is judged: the plan, the instances that are not ready, and the plan's count. -/
structure LaunchPlan (w : Work) (r : TaskRef) (t : Task) (f : Flatten) (bad : List Inst) (v : Work) : Prop where
  plan : w.flatten t.launchTime = f
  unready : (w.dev.instsOf r.gid r.task).filter (fun i => i.slot.isNone || !decide (t.orderAt ≤ w.dev.beat)) = bad
  counted : w.whenB (decide (f.span ≠ 0) || f.ballast) (fun w =>
    w.whenB (!(w.dev.launchesAt t.launchTime).any (fun (_, _, u) => u.launched)) (fun w => w.count pgPm 3)) = v

section Judge

variable {w v : Work} {r : TaskRef} {t : Task} {f : Flatten} {bad : List Inst} (h : LaunchPlan w r t f bad v)
include h

theorem LaunchPlan.beat : v.dev.beat = w.dev.beat := by
  rw [← h.counted]
  exact whenB_keeps (g := fun w => w.dev.beat) (fun w => whenB_keeps (g := fun w => w.dev.beat) (fun w => w.count_beat _ _ _) w) w

theorem LaunchPlan.instsOf (gid ti : Nat) : v.dev.instsOf gid ti = w.dev.instsOf gid ti := by
  have hinsts : v.dev.insts = w.dev.insts := by
    rw [← h.counted]
    exact whenB_keeps (g := fun w => w.dev.insts) (fun w => whenB_keeps (g := fun w => w.dev.insts) (fun w => w.count_insts _ _ _) w) w
  rw [Dev.instsOf, hinsts, Dev.instsOf]

/-- The counted state judges the instances as the state before it. -/
theorem LaunchPlan.unready' : (v.dev.instsOf r.gid r.task).filter (fun i => i.slot.isNone || !decide (t.orderAt ≤ v.dev.beat)) = bad := by
  rw [h.beat, h.instsOf]
  exact h.unready

/-- Where the conditions under which the launch fails do not hold, the task is launched. -/
theorem launchTask_judged : w.launchTask r t
    = (if (v.unlocked && decide (v.source ≠ 0)) = true ∧ t.lateFail = true then v.launchFails r t.launchTime .timeUnlocked f bad.length codeNone
      else if bad ≠ [] ∧ t.lateFail = true then
        v.launchFails r t.launchTime .launchLate f bad.length ((bad.head?.map (fun i => codeInst 0 i.cluster)).getD codeNone)
      else
        let x := ((v.whenB (v.unlocked && decide (v.source ≠ 0)) (fun w => w.count pgCr 8)).recordLaunch t.launchTime
          (if bad = [] then 1 else 2) f bad.length).count pgCr 0
        let y := (x.whenB (decide (f.span ≠ 0)) (fun w => w.count pgCr 3)).crier (fun c => { c with
          ballasts := c.ballasts.filter (fun b => b.time != t.launchTime) })
        let z := y.each bad (fun i w => w.setInst i.iid (fun i => { i with late := true }))
        (z.setTask r.gid r.task (fun u => { u with
          launched := true, launchBeat := z.dev.beat, span := f.span
          state := if u.kind = some .collective then .active else u.state })).startTask r.gid r.task) := by
  rw [Work.launchTask, h.plan, h.counted, h.unready']

theorem launchTask_unlocked (hunlocked : (v.unlocked && decide (v.source ≠ 0)) = true) (hlate : t.lateFail = true) :
    w.launchTask r t = v.launchFails r t.launchTime .timeUnlocked f bad.length codeNone := by
  rw [launchTask_judged h, if_pos ⟨hunlocked, hlate⟩]

theorem launchTask_unready (hunlocked : (v.unlocked && decide (v.source ≠ 0)) = false) (hlate : t.lateFail = true) (hbad : bad ≠ []) :
    w.launchTask r t = v.launchFails r t.launchTime .launchLate f bad.length
      ((bad.head?.map (fun i => codeInst 0 i.cluster)).getD codeNone) := by
  rw [launchTask_judged h, hunlocked, if_neg fun hc => Bool.false_ne_true hc.1, if_pos ⟨hbad, hlate⟩]

/-- A task that may be late, or whose launch nothing holds back, is launched. -/
theorem launchTask_starts {unlocked : Bool} (hunlocked : (v.unlocked && decide (v.source ≠ 0)) = unlocked)
    (hgo : t.lateFail = false ∨ unlocked = false ∧ bad = []) : w.launchTask r t
    = (let x := ((v.whenB unlocked (fun w => w.count pgCr 8)).recordLaunch t.launchTime (if bad = [] then 1 else 2) f bad.length).count pgCr 0
      let y := (x.whenB (decide (f.span ≠ 0)) (fun w => w.count pgCr 3)).crier (fun c => { c with
        ballasts := c.ballasts.filter (fun b => b.time != t.launchTime) })
      let z := y.each bad (fun i w => w.setInst i.iid (fun i => { i with late := true }))
      (z.setTask r.gid r.task (fun u => { u with
        launched := true, launchBeat := z.dev.beat, span := f.span
        state := if u.kind = some .collective then .active else u.state })).startTask r.gid r.task) := by
  rw [launchTask_judged h, hunlocked, if_neg, if_neg]
  · rintro ⟨hbad, hlate⟩
    rcases hgo with hgo | ⟨-, hgo⟩
    · exact Bool.false_ne_true (hgo.symm.trans hlate)
    · exact hbad hgo
  · rintro ⟨hu, hlate⟩
    rcases hgo with hgo | ⟨hgo, -⟩
    · exact Bool.false_ne_true (hgo.symm.trans hlate)
    · exact Bool.false_ne_true (hgo.symm.trans hu)

end Judge

/-! ### Ballast -/

/-- Of the steps that may come, the first of the earliest is taken. -/
theorem ballastStep_earliest {w : Work} {up : Bool} {l₁ l₂ : List (Nat × Ballast)} {b : Nat} {x : Ballast}
    (hsteps : w.ballastSteps up = l₁ ++ (b, x) :: l₂) (hbefore : ∀ y ∈ l₁, b < y.1) (hafter : ∀ y ∈ l₂, b ≤ y.1) :
    ballastStepWork up w = (w.passTo b).crier (fun c => { c with
      ballasts := c.ballasts.filter (fun y => y.time != x.time) ++ (if x.downs < 16 then [x] else []) }) := by
  rw [ballastStepWork, hsteps, foldl_keeps_best (fun _ => rfl) (fun y x => ite_cases ..) (fun y hy => if_pos (hbefore y hy))
    (fun y hy => if_neg (Nat.not_lt.mpr (hafter y hy)))]

/-- The ballast kept for a launch time, or a new one, is of that time. -/
theorem ballast?_time (d : Dev) (t : Nat) : ((d.ballast? t).getD ⟨t, 0, 0, 0⟩).time = t := by
  rw [Dev.ballast?]
  cases h : d.crier.ballasts.find? (fun b => b.time == t) with
  | none => rfl
  | some b => simpa using List.find?_some h

theorem mem_ballastSteps_up {w : Work} {b : Nat} {x : Ballast} (h : (b, x) ∈ w.ballastSteps true) :
    x.ups ≤ 16 ∧ b + 16 ≤ w.dev.beat + w.beatsTo x.time ∧ w.dev.beat + w.beatsTo x.time ≤ b + 256 ∧ w.dev.beat ≤ b ∧ x.due = b + 16
      ∧ x.time ∈ w.ballastTimes := by
  obtain ⟨t, ht, hstep⟩ := List.mem_filterMap.mp h
  have htime := ballast?_time w.dev t
  generalize (w.dev.ballast? t).getD ⟨t, 0, 0, 0⟩ = y at htime hstep
  simp only at hstep
  split at hstep
  case isTrue => cases hstep
  case isFalse hlim =>
    obtain ⟨rfl, rfl⟩ := Prod.mk.inj (Option.some.inj hstep)
    subst htime
    refine ⟨?_, ?_, ?_, ?_, rfl, ht⟩
    · exact Nat.lt_of_not_le fun hfull => hlim (.inl hfull)
    · change _ ≤ w.dev.beat + w.beatsTo y.time
      omega
    · change w.dev.beat + w.beatsTo y.time ≤ _
      omega
    · omega

theorem mem_ballastSteps_down {w : Work} {b : Nat} {x : Ballast} (h : (b, x) ∈ w.ballastSteps false) :
    w.dev.beat ≤ b ∧ x.due = b + 16 ∧ x.time ∉ w.ballastTimes
      ∧ ∃ y ∈ w.dev.crier.ballasts, y.time = x.time ∧ y.ups = x.ups ∧ x.downs = y.downs + 1 := by
  obtain ⟨y, hy, hstep⟩ := List.mem_map.mp h
  obtain ⟨hmem, hoff⟩ := List.mem_filter.mp hy
  obtain ⟨rfl, rfl⟩ := Prod.mk.inj hstep
  refine ⟨?_, rfl, by simpa using hoff, y, hmem, rfl, rfl, rfl⟩
  split <;> omega

/-- Settles O41: the launch is judged against its plan, and ballast steps are read off the list of those that may come. -/
theorem launchesKeepTheirBeat : Obligations.LaunchesKeepTheirBeat := by
  unfold Obligations.LaunchesKeepTheirBeat
  intro s
  refine ⟨fun r t ht hstate htimed => ⟨fun htaken hkind hroom => ?take, fun hin => ?launch⟩, fun up l₁ l₂ b x hsteps hbefore hafter => ?step,
    fun b x h => mem_ballastSteps_up h, fun b x h => mem_ballastSteps_down h⟩
  case take => exact runs_of_work rfl (launchEntryTake_free ht hstate htimed htaken hkind hroom)
  case step => exact runs_of_work rfl (ballastStep_earliest hsteps hbefore hafter)
  case launch =>
    intro w f all bad v unlocked
    have hreach := launch_reaches (w := s.work) ht hstate hin
    have hplan : LaunchPlan w r t f bad v := ⟨rfl, rfl, rfl⟩
    refine ⟨fun hu hlate => ?_, fun hu hlate hbad => ?_, fun hgo => ?_⟩
    · exact runs_of_work rfl (hreach.trans (launchTask_unlocked hplan hu hlate))
    · exact runs_of_work rfl (hreach.trans (launchTask_unready hplan hu hlate hbad))
    · exact runs_of_work rfl (hreach.trans (launchTask_starts hplan rfl hgo))

end Sys2Proof
end

section
/-! SUPPORT. The scrubber and the failure of a memory unit (R345 to R349). -/

namespace Sys2Proof

open Machine

theorem unitKey_count (w : Work) (block : Bool) (unit offset : Nat) (p : Page) (k n : Nat) :
    (w.count p k n).unitKey block unit offset = w.unitKey block unit offset := by
  rw [Work.unitKey, Work.unitKey, Work.count_variant]

/-- What scrubbing reads of a granule of a unit that exists, is enabled and has not failed: the read is counted, and what it meets
decides. -/
structure Scrubs (w : Work) (block : Bool) (unit offset : Nat) (v : Work) (g : Nat) : Prop where
  present : w.hasMem block unit = true
  good : w.memFailed (memPage block unit) = false
  on : w.rb (memPage block unit) .hmScrub 31 = true
  inside : offset < (w.reg (memPage block unit) .hmCap).toNat * 4096
  counted : w.count (memPage block unit) 3 = v
  granule : w.unitKey block unit offset / 64 = g

section Scrub

variable {w v : Work} {block : Bool} {unit offset g : Nat} (h : Scrubs w block unit offset v g)
include h

theorem scrub_reads (e : Option CellError) : scrubWork block unit offset e w
    = (if (match e with
        | some (.uncorrectable _) => true
        | _ => v.deadAt g) = true then
        (v.raiseUe (memPage block unit) (w.unitKey block unit offset) {}).emit [.dead g false, .poison false g true]
      else match e with
        | some (.corrected _) => v.correctedError (memPage block unit)
        | _ => v) := by
  obtain ⟨hpresent, hgood, hon, hinside, rfl, rfl⟩ := h
  rw [scrubWork, if_neg (by simp [hpresent, hgood, hon, hinside])]
  simp only [unitKey_count] <;> rfl

theorem scrub_clean (hdead : v.deadAt g = false) : scrubWork block unit offset none w = v := by
  rw [scrub_reads h]
  exact if_neg fun hd => Bool.false_ne_true (hdead.symm.trans hd)

theorem scrub_corrected (k : Nat) (hdead : v.deadAt g = false) : scrubWork block unit offset (some (.corrected k)) w
    = v.correctedError (memPage block unit) := by
  rw [scrub_reads h]
  exact if_neg fun hd => Bool.false_ne_true (hdead.symm.trans hd)

theorem scrub_uncorrectable {e : Option CellError} (hdead : v.deadAt g = true ∨ ∃ k, e = some (.uncorrectable k)) :
    scrubWork block unit offset e w
      = (v.raiseUe (memPage block unit) (w.unitKey block unit offset) {}).emit [.dead g false, .poison false g true] := by
  rw [scrub_reads h]
  refine if_pos ?_
  rcases hdead with hdead | ⟨k, rfl⟩
  · split
    · rfl
    · exact hdead
  · rfl

end Scrub

theorem memFailed_fails {w : Work} {block : Bool} {unit : Nat} (hpresent : w.hasMem block unit = true)
    (hgood : w.memFailed (memPage block unit) = false) : memFailedWork block unit w = w.failMem (memPage block unit) := by
  rw [memFailedWork, if_neg (by simp [hpresent, hgood])]

/-- A granule is noted; the 256th fails the unit. -/
theorem noteUe_eq (w : Work) (p : Page) : w.noteUe p
    = if 255 ≤ (w.dev.recentUe p).length then
        (w.upd (fun d => { d with ueBeats := put [] p.base (w.dev.beat :: w.dev.recentUe p) d.ueBeats })).failMem p
      else w.upd (fun d => { d with ueBeats := put [] p.base (w.dev.beat :: w.dev.recentUe p) d.ueBeats }) := by
  rw [Work.noteUe, List.length_cons]
  exact ite_congr (propext Nat.succ_le_succ_iff) (fun _ => rfl) (fun _ => rfl)

/-- Settles O42: the granule read decides what the scrubber does, and the count of a second decides whether a unit fails. -/
theorem memoryIsScrubbedAndFails : Obligations.MemoryIsScrubbedAndFails := by
  unfold Obligations.MemoryIsScrubbedAndFails
  intro s block unit hpresent hgood
  refine ⟨fun offset hon hinside => ?scrub, runs_of_work rfl (memFailed_fails hpresent hgood), fun w => ?note⟩
  case scrub =>
    intro w g
    have h : Scrubs s.work block unit offset w g := ⟨hpresent, hgood, hon, hinside, rfl, rfl⟩
    refine ⟨fun hdead => ?_, fun k hdead => ?_, fun e hdead => ?_⟩
    · exact runsTo_of_runs (runs_of_work rfl (scrub_clean h hdead)) (Work.count_out ..)
    · exact runs_of_work rfl (scrub_corrected h k hdead)
    · exact runs_of_work rfl (scrub_uncorrectable h hdead)
  case note =>
    exact ⟨fun hfew => (noteUe_eq w _).trans (if_neg (Nat.not_le.mpr hfew)), fun hmany => (noteUe_eq w _).trans (if_pos hmany)⟩

end Sys2Proof
end

section
/-! SUPPORT. Flits received and resent, their order, and links that come up (R357 to R360, R365, R366, R369, R370). -/

namespace Sys2Proof

open Machine

/-! ### Ports -/

theorem port_setPort {w : Work} {p : Nat} (hp : p < w.dev.ports.length) (f : Port → Port) : (w.setPort p f).port p = f (w.port p) :=
  getD_updAt_self f hp _

theorem ports_length_setPort (w : Work) (p : Nat) (f : Port → Port) : (w.setPort p f).dev.ports.length = w.dev.ports.length :=
  length_updAt f p _

/-- A field that a change of a port keeps, is kept. -/
theorem port_setPort_keeps {α : Type} (g : Port → α) {f : Port → Port} (h : ∀ q, g (f q) = g q) (w : Work) (p : Nat) :
    g ((w.setPort p f).port p) = g (w.port p) :=
  getD_updAt_keeps g h p p w.dev.ports .reset

theorem port_count (w : Work) (g : Page) (k n p : Nat) : (w.count g k n).port p = w.port p := by
  rw [Work.port, Work.count_ports, Work.port]

/-! ### FLIT_RECEIVE and the timeouts (R357, R359, R367) -/

theorem flitReceive_good {w : Work} {p link : Nat} {b : List Byte} {l : PLink} (hlive : w.liveLink p link = some l)
    (hlen : b.length = 256) (hcrc : bytesAt b 248 8 = crc64 (b.take 248)) (htype : byteAt b 4 ≤ 2) : flitReceiveWork p link b w
      = (((w.setLink p link (fun l => { l with lastRx := w.dev.beat })).setLink p link (fun l => { l with crcRun := 0, heard := true })).takeAck
          p b).takeFlit p b := by
  rw [flitReceiveWork, hlive]
  refine if_neg ?_
  rintro (h | h | h)
  · exact h hlen
  · exact h hcrc
  · exact Nat.not_lt.mpr htype h

theorem flitReceive_bad {w v : Work} {p link : Nat} {b : List Byte} {l : PLink} (hlive : w.liveLink p link = some l)
    (hbad : b.length ≠ 256 ∨ bytesAt b 248 8 ≠ crc64 (b.take 248) ∨ 2 < byteAt b 4)
    (hv : (((w.setLink p link (fun l => { l with lastRx := w.dev.beat })).count ⟨.tp, p⟩ 2).setLink p link
      (fun l => { l with crcRun := l.crcRun + 1 })).sendNak p = v) : flitReceiveWork p link b w
      = if 16 ≤ l.crcRun + 1 then v.failLink p link else v := by
  subst hv
  rw [flitReceiveWork, hlive]
  exact if_pos hbad

theorem nakGapTimeout_open {w : Work} {p b : Nat} (hopen : (w.port p).state.open = true) (hgap : (w.port p).gapSince = some b) :
    nakGapTimeoutWork p w = (let v := (w.passTo (b + 64)).sendNak p
      v.setPort p (fun q => { q with gapSince := some v.dev.beat })) := by
  rw [nakGapTimeoutWork, hgap]
  exact if_pos hopen

theorem replayTimeout_open {w : Work} {p : Nat} {r : Replay} {rest : List Replay} (hopen : (w.port p).state.open = true)
    (hreplay : (w.port p).replay = r :: rest) :
    replayTimeoutWork p w = (let v := (w.passTo (max (w.port p).ackAt r.sentAt + 256)).resend p r
      v.setPort p (fun q => { q with ackAt := v.dev.beat })) := by
  rw [replayTimeoutWork, hreplay]
  exact if_pos hopen

/-- Settles O43: the flit's checks decide, and each timeout is its own equation. -/
theorem flitsAreTakenAndResent : Obligations.FlitsAreTakenAndResent := by
  unfold Obligations.FlitsAreTakenAndResent
  intro s p
  refine ⟨fun link b l hlive => ?flit, fun hopen => ⟨fun b hgap => ?gap, fun r rest hreplay => ?replay⟩⟩
  case flit =>
    intro w
    refine ⟨fun hlen hcrc htype => runs_of_work rfl (flitReceive_good hlive hlen hcrc htype), fun hbad => ?_⟩
    intro v
    have hrun := flitReceive_bad (w := s.work) (v := v) hlive hbad rfl
    exact ⟨fun hfew => runs_of_work rfl (hrun.trans (if_neg (by omega))), fun hmany => runs_of_work rfl (hrun.trans (if_pos (by omega)))⟩
  case gap => exact runs_of_work rfl (nakGapTimeout_open hopen hgap)
  case replay => exact runs_of_work rfl (replayTimeout_open hopen hreplay)

/-! ### The order of flits (R357 to R360) -/

/-- A flit that waits under the expected number is delivered: its slots complete packets, and the number is one up. -/
theorem deliver_expected {w : Work} {p n f : Nat} {slots rest : List Byte} {ps : List (List Byte)}
    (hfind : (w.port p).reorder.find? (fun x => x.1 == (w.port p).rxNext) = some (f, slots))
    (htake : takePackets 4096 ((w.port p).rxBytes ++ slots) = (ps, rest)) : w.deliver p (n + 1)
      = (((w.setPort p (fun q => { q with
          reorder := q.reorder.filter (fun x => x.1 != f), rxNext := (q.rxNext + 1) % 65536, rxBytes := rest
          packets := q.packets ++ ps.filter (fun b => (classOf (byteAt b 0)).isSome || byteAt b 0 == 9) })).count ⟨.tp, p⟩ 1).count ⟨.tp, p⟩ 8
            (ps.length - (ps.filter (fun b => (classOf (byteAt b 0)).isSome || byteAt b 0 == 9)).length)).deliver p n := by
  rw [Work.deliver, hfind]
  dsimp only
  rw [htake]

/-- Nothing is delivered while no flit waits under the expected number. -/
theorem deliver_missing {w : Work} {p : Nat} (hfind : (w.port p).reorder.find? (fun x => x.1 == (w.port p).rxNext) = none) (n : Nat) :
    w.deliver p n = w := by
  cases n with
  | zero => rfl
  | succ n => rw [Work.deliver, hfind]

theorem diff16_self (a : Nat) : diff16 a a = 0 := by
  have : (a + 65536 - a % 65536) % 65536 = 0 := by omega
  rw [diff16, this]
  rfl

theorem takeFlit_data {w v : Work} {p : Nat} {b : List Byte} (hdata : byteAt b 4 = 1)
    (hv : (if diff16 (bytesAt b 0 2) (w.port p).rxNext < 0 ∨ (w.port p).reorder.any (fun x => x.1 == bytesAt b 0 2) = true then w
      else w.setPort p (fun q => { q with reorder := q.reorder ++ [(bytesAt b 0 2, (b.drop 8).take 240)] })) = v) : w.takeFlit p b
      = (v.deliver p ((v.port p).reorder.length + 1)).setPort p (fun q => { q with
          gapSince := if q.reorder = [] then none else some (q.gapSince.getD (v.deliver p ((v.port p).reorder.length + 1)).dev.beat) }) := by
  subst hv
  rw [Work.takeFlit, hdata]
  rfl

section Data

variable {w : Work} {p : Nat} {b : List Byte}

/-- The expected flit, with nothing behind it: the port after it. -/
theorem takeFlit_expected {ps : List (List Byte)} {rest : List Byte} (hp : p < w.dev.ports.length) (hdata : byteAt b 4 = 1)
    (hseq : bytesAt b 0 2 = (w.port p).rxNext) (hempty : (w.port p).reorder = [])
    (htake : takePackets 4096 ((w.port p).rxBytes ++ (b.drop 8).take 240) = (ps, rest)) : (w.takeFlit p b).port p
      = { w.port p with
          reorder := [], rxNext := ((w.port p).rxNext + 1) % 65536, rxBytes := rest, gapSince := none
          packets := (w.port p).packets ++ ps.filter (fun x => (classOf (byteAt x 0)).isSome || byteAt x 0 == 9) } := by
  have hnew : ¬ (diff16 (bytesAt b 0 2) (w.port p).rxNext < 0 ∨ (w.port p).reorder.any (fun x => x.1 == bytesAt b 0 2) = true) := by
    rw [hseq, diff16_self, hempty]
    simp
  obtain ⟨v, hv⟩ : ∃ v, w.setPort p (fun q => { q with reorder := q.reorder ++ [(bytesAt b 0 2, (b.drop 8).take 240)] }) = v := ⟨_, rfl⟩
  have hq : v.port p = { w.port p with reorder := [((w.port p).rxNext, (b.drop 8).take 240)] } := by
    rw [← hv, port_setPort hp, hempty, hseq]
    rfl
  have hlen : p < v.dev.ports.length := by rw [← hv, ports_length_setPort]; exact hp
  have hreorder : (v.port p).reorder = [((w.port p).rxNext, (b.drop 8).take 240)] := by rw [hq]
  have hdeliver := deliver_expected (w := v) (p := p) (n := 1) (f := (w.port p).rxNext) (slots := (b.drop 8).take 240) (ps := ps) (rest := rest)
    (by rw [hq]; simp) (by rw [hq]; exact htake)
  obtain ⟨x, hx⟩ : ∃ x, ((v.setPort p (fun q => { q with
      reorder := q.reorder.filter (fun x => x.1 != (w.port p).rxNext), rxNext := (q.rxNext + 1) % 65536, rxBytes := rest
      packets := q.packets ++ ps.filter (fun b => (classOf (byteAt b 0)).isSome || byteAt b 0 == 9) })).count ⟨.tp, p⟩ 1).count ⟨.tp, p⟩ 8
        (ps.length - (ps.filter (fun b => (classOf (byteAt b 0)).isSome || byteAt b 0 == 9)).length) = x := ⟨_, rfl⟩
  have hxq : x.port p = { w.port p with
      reorder := [], rxNext := ((w.port p).rxNext + 1) % 65536, rxBytes := rest
      packets := (w.port p).packets ++ ps.filter (fun x => (classOf (byteAt x 0)).isSome || byteAt x 0 == 9) } := by
    rw [← hx, port_count, port_count, port_setPort hlen, hq]
    simp
  have hxlen : p < x.dev.ports.length := by
    rw [← hx, Work.count_ports, Work.count_ports, ports_length_setPort]
    exact hlen
  rw [hx, deliver_missing (w := x) (by rw [hxq]; rfl)] at hdeliver
  rw [takeFlit_data hdata ((if_neg hnew).trans hv), hreorder, List.length_singleton, hdeliver, port_setPort hxlen, hxq, if_pos rfl]

/-- A flit that is behind, or held already, is not delivered. -/
theorem takeFlit_held (hdata : byteAt b 4 = 1)
    (hold : diff16 (bytesAt b 0 2) (w.port p).rxNext < 0 ∨ ∃ x ∈ (w.port p).reorder, x.1 = bytesAt b 0 2)
    (hmissing : ∀ x ∈ (w.port p).reorder, x.1 ≠ (w.port p).rxNext) :
    ((w.takeFlit p b).port p).rxNext = (w.port p).rxNext ∧ ((w.takeFlit p b).port p).packets = (w.port p).packets := by
  have hdrop : diff16 (bytesAt b 0 2) (w.port p).rxNext < 0 ∨ (w.port p).reorder.any (fun x => x.1 == bytesAt b 0 2) = true :=
    hold.imp_right fun ⟨x, hx, hseq⟩ => List.any_eq_true.mpr ⟨x, hx, beq_iff_eq.mpr hseq⟩
  have hfind : (w.port p).reorder.find? (fun x => x.1 == (w.port p).rxNext) = none :=
    List.find?_eq_none.mpr fun x hx h => hmissing x hx (beq_iff_eq.mp h)
  rw [takeFlit_data hdata (if_pos hdrop), deliver_missing hfind]
  refine ⟨port_setPort_keeps Port.rxNext ?_ w p, port_setPort_keeps Port.packets ?_ w p⟩
  all_goals exact fun _ => rfl

/-- An ACK leaves the flits after it in the replay buffer. -/
theorem takeAck_replay (hp : p < w.dev.ports.length) (hqueued : (w.port p).queued = []) :
    ((w.takeAck p b).port p).replay = (w.port p).replay.filter (fun r => decide (0 < diff16 r.fseq (bytesAt b 2 2))) := by
  obtain ⟨left, hleft⟩ : ∃ l, (w.port p).replay.filter (fun r => decide (0 < diff16 r.fseq (bytesAt b 2 2))) = l := ⟨_, rfl⟩
  rw [Work.takeAck, hleft]
  rw [Work.drainQueue, port_setPort hp]
  dsimp only
  rw [hqueued, Work.each_nil, port_setPort_keeps Port.replay, port_setPort hp]
  exact fun _ => rfl

end Data

/-- Settles O44: the expected flit's delivery ends with nothing waiting; a flit that is held changes nothing. -/
theorem flitsComeInOrder : Obligations.FlitsComeInOrder := by
  unfold Obligations.FlitsComeInOrder
  intro w p b hp
  refine ⟨fun hdata hseq hempty _ => ?_, fun hdata hold hmissing => takeFlit_held hdata hold hmissing, takeAck_replay hp⟩
  obtain ⟨⟨ps, rest⟩, htake⟩ : ∃ x, takePackets 4096 ((w.port p).rxBytes ++ (b.drop 8).take 240) = x := ⟨_, rfl⟩
  rw [takeFlit_expected hp hdata hseq hempty htake, htake]
  exact ⟨rfl, rfl, rfl⟩

/-! ### Links that come up (R365, R366, R369, R370) -/

section LinkUp

variable {w : Work} {p link : Nat} {l : PLink} (hlink : (w.port p).link? link = some l)
include hlink

theorem linkTrained_down (alternate : Bool) (hdown : l.state = .down) (htrained : l.trained = false) (hp : p < 16)
    (hport : (w.port p).state = .training ∨ (w.port p).state.open = true) : linkTrainedWork p link alternate w
      = (w.setLink p link (fun l => { l with trained := true, method := alternate, helloSeen := false, heard := false, crcRun := 0 })).sendHello
          p link := by
  rw [linkTrainedWork, hlink]
  exact if_pos ⟨hdown, htrained, hp, hport⟩

theorem helloRepeat_trained (htrained : l.trained = true) (hwaits : l.helloSeen = false ∨ l.heard = false) : helloRepeatWork p link w
    = (w.passTo (l.helloSentAt + 256)).sendHello p link := by
  rw [helloRepeatWork, hlink]
  exact if_pos ⟨htrained, hwaits⟩

/-- A HELLO on a trained link is judged after it is recorded. -/
theorem hello_judged {m : HelloMsg} {v : Work} (hp : p < 16) (htrained : l.trained = true) (hdown : l.state = .down)
    (hport : (w.port p).state = .training ∨ (w.port p).state.open = true)
    (hv : (w.peer p m).setLink p link (fun l => { l with helloSeen := true }) = v) : helloWork p link m w
      = (match v.helloOutcome l m with
        | .up _ f => v.whenB (f % 2 == 1 || m.features / 2 % 2 == 1) (fun w => w.judgePartner p (d40 m.time w.dev.time))
        | _ => v).joinLink p link (v.helloOutcome l m) := by
  subst hv
  rw [helloWork, hlink]
  exact if_pos ⟨hp, htrained, hdown, hport⟩

end LinkUp

section Outcome

variable (w : Work) {l : PLink} {m : HelloMsg}

theorem helloOutcome_miswired (hwrong : m.device % 4096 ≠ l.partnerDevice ∨ m.port ≠ l.partnerPort ∨ m.link ≠ l.partnerLink
    ∨ m.kind ≠ l.partnerKind) : w.helloOutcome l m = .miswired := by
  rw [Work.helloOutcome, if_pos hwrong]

/-- The partner that answers is the one that is wired. -/
structure WiredTo (l : PLink) (m : HelloMsg) : Prop where
  device : m.device % 4096 = l.partnerDevice
  port : m.port = l.partnerPort
  link : m.link = l.partnerLink
  kind : m.kind = l.partnerKind

variable (hwired : WiredTo l m)
include hwired

theorem helloOutcome_wired : w.helloOutcome l m = (if min 3 m.vmax < max 2 m.vmin then .noVersion
    else if m.digest ≠ w.dev.exch.digest then .quarantined 3
    else if m.secVersion < w.dev.exch.secFloor then .quarantined 4
    else .up (min 3 m.vmax) (Nat.land ownFeatures m.features)) := by
  obtain ⟨hdevice, hport, hlink, hkind⟩ := hwired
  rw [Work.helloOutcome, if_neg (by simp [hdevice, hport, hlink, hkind])]

theorem helloOutcome_noVersion (hver : min 3 m.vmax < max 2 m.vmin) : w.helloOutcome l m = .noVersion := by
  rw [helloOutcome_wired w hwired, if_pos hver]

variable (hver : max 2 m.vmin ≤ min 3 m.vmax)
include hver

theorem helloOutcome_digest (hdigest : m.digest ≠ w.dev.exch.digest) : w.helloOutcome l m = .quarantined 3 := by
  rw [helloOutcome_wired w hwired, if_neg (Nat.not_lt.mpr hver), if_pos hdigest]

theorem helloOutcome_floor (hdigest : m.digest = w.dev.exch.digest) (hold : m.secVersion < w.dev.exch.secFloor) :
    w.helloOutcome l m = .quarantined 4 := by
  rw [helloOutcome_wired w hwired, if_neg (Nat.not_lt.mpr hver), if_neg (not_not_intro hdigest), if_pos hold]

theorem helloOutcome_up (hdigest : m.digest = w.dev.exch.digest) (hnew : w.dev.exch.secFloor ≤ m.secVersion) :
    w.helloOutcome l m = .up (min 3 m.vmax) (Nat.land ownFeatures m.features) := by
  rw [helloOutcome_wired w hwired, if_neg (Nat.not_lt.mpr hver), if_neg (not_not_intro hdigest), if_neg (Nat.not_lt.mpr hnew)]

end Outcome

/-- Settles O46: a HELLO is recorded, and the table's outcome decides how the link joins. -/
theorem linksComeUp : Obligations.LinksComeUp := by
  unfold Obligations.LinksComeUp
  intro s p link l hlink
  refine ⟨fun alternate hdown htrained hp hport => ?trained, fun htrained hwaits => ?repeated, fun m hp htrained hdown hport => ?hello⟩
  case trained => exact runs_of_work rfl (linkTrained_down hlink alternate hdown htrained hp hport)
  case repeated => exact runs_of_work rfl (helloRepeat_trained hlink htrained hwaits)
  case hello =>
    intro w
    have hjudged := hello_judged (w := s.work) (v := w) hlink hp htrained hdown hport rfl
    clear_value w
    have joins {o : Hello} (ho : w.helloOutcome l m = o) (hnot : ∀ v f, o ≠ .up v f) : Runs (.hello p link m) s (w.joinLink p link o) := by
      rw [ho] at hjudged
      cases o with
      | up v f => exact absurd rfl (hnot v f)
      | miswired => exact runs_of_work rfl hjudged
      | noVersion => exact runs_of_work rfl hjudged
      | quarantined n => exact runs_of_work rfl hjudged
    refine ⟨fun hwrong => joins (helloOutcome_miswired w hwrong) (by simp), fun hd hpt hl hk => ?_⟩
    have hwired : WiredTo l m := ⟨hd, hpt, hl, hk⟩
    refine ⟨fun hver => joins (helloOutcome_noVersion w hwired hver) (by simp),
      fun hver hdigest => joins (helloOutcome_digest w hwired hver hdigest) (by simp),
      fun hver hdigest hold => joins (helloOutcome_floor w hwired hver hdigest hold) (by simp), fun hver hdigest hnew => ?_⟩
    rw [helloOutcome_up w hwired hver hdigest hnew] at hjudged
    exact runs_of_work rfl hjudged

end Sys2Proof
end

section
/-! SUPPORT. Packets taken from a port's receive buffer: WRITE, READ, RESP, SIGNAL and TIME (R302 to R306, R323, R324, R361 to R364,
R371, R374, R381, R383). -/

namespace Sys2Proof

open Machine

/-! ### Taking a packet -/

theorem takePacket_fetches (w : Work) (p : Nat) (b : List Byte) : (w.takePacket p b).dev.fetches = w.dev.fetches := by
  rw [Work.takePacket]
  split <;> rfl

theorem takePacket_insts (w : Work) (p : Nat) (b : List Byte) : (w.takePacket p b).dev.insts = w.dev.insts := by
  rw [Work.takePacket]
  split <;> rfl

section Group

variable {w : Work} {p group gen g : Nat} (hagrees : w.genAgrees p = true)
include hagrees

theorem pktGroup_found (hgroup : w.groupOf group = some g) (hgen : w.grpGen g = gen) : w.pktGroup p group gen = (some g, w) := by
  rw [Work.pktGroup, if_neg (by simp [hagrees]), hgroup]
  exact if_pos hgen

theorem pktGroup_stale (hgroup : w.groupOf group = some g) (hgen : w.grpGen g ≠ gen) : w.pktGroup p group gen = (none, w.count pgEx 3) := by
  rw [Work.pktGroup, if_neg (by simp [hagrees]), hgroup]
  exact if_neg hgen

theorem pktGroup_none (hgroup : w.groupOf group = none) : w.pktGroup p group gen = (none, w.count pgEx 3) := by
  rw [Work.pktGroup, if_neg (by simp [hagrees]), hgroup]

end Group

/-! ### WRITE and READ (R381, R383) -/

section Posted

variable {w v x : Work} {h : PktHdr} {addr gen pwseq group step : Nat} {data : List Byte} (hheeds : w.heeds h false = true)
  (hv : w.takePacket h.port (mkPacket 1 h.poison h.ctx h.dst h.src (leBytes 6 addr ++ leBytes 2 gen)
    (some (leBytes 4 pwseq ++ leBytes 2 group ++ leBytes 2 step)) data) = v)
include hheeds hv

theorem writePkt_rejected (hg : v.pktGroup h.port group gen = (none, x)) : writePktWork h addr gen pwseq group step data w
    = x.posted h pwseq := by
  simp only [writePktWork, if_pos hheeds, hv, hg]

theorem writePkt_accepted {g : Nat} (hg : v.pktGroup h.port group gen = (some g, x)) : writePktWork h addr gen pwseq group step data w
    = (if x.rb pgTt .ttCtxCfg 31 h.ctx = false then x.refusePosted h group gen
      else x.landWrite h g addr group gen (marked h.poison data)).posted h pwseq := by
  simp only [writePktWork, if_pos hheeds, hv, hg]

end Posted

section Read

variable {w v x : Work} {h : PktHdr} {tag exportId row rowBytes : Nat} (hheeds : w.heeds h false = true)
  (hv : w.takePacket h.port (mkPacket 2 0 h.ctx h.dst h.src (leBytes 4 tag ++ leBytes 2 exportId)
    (some (leBytes 8 row ++ leBytes 4 rowBytes)) []) = v)
include hheeds hv

theorem readPkt_refused (hrow : v.exported exportId row rowBytes = (none, x)) : readPktWork h tag exportId row rowBytes w
    = (x.count pgEx 7).sendResp h tag 0 1 [] := by
  simp only [readPktWork, if_pos hheeds, hv, hrow]

theorem readPkt_answered {l : List PByte} (hrow : v.exported exportId row rowBytes = (some l, x)) :
    readPktWork h tag exportId row rowBytes w
      = (x.count pgEx 6).each ((chunksOf 256 l).zipIdx) (fun (ch, k) w => w.sendResp h tag k 0 ch) := by
  simp only [readPktWork, if_pos hheeds, hv, hrow]

end Read

/-! ### RESP (R112, R114) -/

/-- The fetch that a RESP answers. -/
def Answers (h : PktHdr) (tag : Nat) (f : Fetch) : Bool := f.id % 2 ^ 32 == tag && (match f.remote with
  | some (d, _) => d == h.src
  | none => false)

section Resp

variable {w v : Work} {h : PktHdr} {tag chunk : Nat} {data : List Byte} {f : Fetch} (hheeds : w.heeds h false = true)
  (hfind : w.dev.fetches.find? (Answers h tag) = some f)
include hheeds hfind

theorem resp_finds {refused : Bool} (hv : w.takePacket h.port
      (mkPacket 3 h.poison h.ctx h.dst h.src (leBytes 4 tag ++ leBytes 2 chunk ++ leBytes 1 (b2n refused)) none data) = v) :
    respWork h tag chunk refused data w
      = (if refused then
          match (v.dropFetch f.id).dev.inst? f.iid, f.remote with
          | some i, some (d, row) =>
            if v.stale f then v.dropFetch f.id
            else (v.dropFetch f.id).failInst i ⟨.gu, f.cluster⟩ .remoteRefused (leBytes 2 d ++ leBytes 6 row)
          | _, _ => v.dropFetch f.id
        else if chunk * 256 ≠ f.copy.length then v
        else
          let n := f.pieces.foldl (fun a x => a + x.2) 0
          let l := f.copy ++ (marked h.poison data).take (n - f.copy.length)
          if n ≤ l.length then v.landRemote f l
          else v.upd (fun d => { d with fetches := updFirst (fun x => x.id == f.id) (fun x => { x with copy := l }) d.fetches })) := by
  have hfetches : v.dev.fetches = w.dev.fetches := by rw [← hv, takePacket_fetches]
  rw [← hfetches] at hfind
  simp only [respWork, if_pos hheeds, hv]
  generalize ho : List.find? _ _ = o
  obtain rfl : o = some f := ho.symm.trans hfind
  rfl

theorem resp_refused {i : Inst} {row : Nat} (hremote : f.remote = some (h.src, row)) (hv : w.takePacket h.port
      (mkPacket 3 h.poison h.ctx h.dst h.src (leBytes 4 tag ++ leBytes 2 chunk ++ leBytes 1 (b2n true)) none data) = v)
    (hi : w.dev.inst? f.iid = some i) (hstale : v.stale f = false) : respWork h tag chunk true data w
      = (v.dropFetch f.id).failInst i ⟨.gu, f.cluster⟩ .remoteRefused (leBytes 2 h.src ++ leBytes 6 row) := by
  have hinst : (v.dropFetch f.id).dev.inst? f.iid = some i := by
    have hinsts : (v.dropFetch f.id).dev.insts = w.dev.insts := by
      rw [← hv]
      exact takePacket_insts ..
    rw [Dev.inst?, hinsts]
    exact hi
  rw [resp_finds hheeds hfind hv, if_pos rfl, hinst, hremote]
  exact if_neg (by simp [hstale])

end Resp

section Chunk

variable {w v : Work} {h : PktHdr} {tag chunk n : Nat} {data : List Byte} {f : Fetch} {l : List PByte} (hheeds : w.heeds h false = true)
  (hfind : w.dev.fetches.find? (Answers h tag) = some f) (hv : w.takePacket h.port
      (mkPacket 3 h.poison h.ctx h.dst h.src (leBytes 4 tag ++ leBytes 2 chunk ++ leBytes 1 (b2n false)) none data) = v)
  (hn : f.pieces.foldl (fun a x => a + x.2) 0 = n) (hl : f.copy ++ (marked h.poison data).take (n - f.copy.length) = l)
  (hchunk : chunk * 256 = f.copy.length)
include hheeds hfind hv hn hl hchunk

theorem resp_last (hall : n ≤ l.length) : respWork h tag chunk false data w = v.landRemote f l := by
  subst hn hl
  rw [resp_finds hheeds hfind hv, if_neg Bool.false_ne_true, if_neg (not_not_intro hchunk)]
  exact if_pos hall

theorem resp_more (hmore : l.length < n) : respWork h tag chunk false data w
    = v.upd (fun d => { d with fetches := updFirst (fun x => x.id == f.id) (fun x => { x with copy := l }) d.fetches }) := by
  subst hn hl
  rw [resp_finds hheeds hfind hv, if_neg Bool.false_ne_true, if_neg (not_not_intro hchunk)]
  exact if_neg (Nat.not_le.mpr hmore)

end Chunk

/-! ### SIGNAL (R302 to R304) -/

/-- A SIGNAL as a packet. -/
def signalPacket (h : PktHdr) (m : SignalMsg) : List Byte :=
  mkPacket 4 0 h.ctx h.dst h.src (leBytes 4 (m.rid % 2 ^ 20 + m.op * 2 ^ 24 + b2n m.fenced * 2 ^ 31) ++ leBytes 2 m.n)
    (some (leBytes 4 m.fence ++ leBytes 2 m.group ++ leBytes 2 m.step ++ leBytes 2 m.gen ++ leBytes 1 m.cop ++ leBytes 1 m.format
      ++ leBytes 4 m.elements)) []

/-- A SIGNAL as it is parked. -/
def signalParked (h : PktHdr) (m : SignalMsg) (since : Nat) : Parked :=
  { port := h.port, sender := h.src, ctx := h.ctx, rid := m.rid, op := m.op, n := m.n, fence := m.fence, since := since
    group := m.group, step := m.step, gen := m.gen, cop := m.cop, format := m.format, elements := m.elements }

section Signal

variable {w v : Work} {h : PktHdr} {m : SignalMsg} (hheeds : w.heeds h false = true) (hop : m.op = 1 ∨ m.op = 2)
include hheeds hop

/-- A signal on an object is kept in the buffer, parked, or takes effect. -/
theorem signal_object (hv : w.takeSignal h.port (signalPacket h m) = v) : signalWork h m w
    = (if (m.fenced && !w.fenceReached h.port h.src m.fence) = true ∧ 256 ≤ (w.dev.parkedAt h.port).length then w
      else if (m.fenced && !w.fenceReached h.port h.src m.fence) = true then
        (v.updSync (fun y => { y with parked := y.parked ++ [signalParked h m w.dev.beat] })).count pgSy 3
      else (if m.fenced then v.releaseBefore h.port h.src else v.count pgSy 4).applySignal (signalParked h m w.dev.beat)) := by
  rw [signalPacket] at hv
  have hops : w.heeds h false = true ∧ 1 ≤ m.op ∧ m.op ≤ 4 := ⟨hheeds, by omega, by omega⟩
  have hlow : ¬ 3 ≤ m.op := by omega
  simp only [signalWork, if_pos hops, hv, if_neg hlow, signalParked]

theorem signal_waits (hfenced : m.fenced = true) (hfence : w.fenceReached h.port h.src m.fence = false)
    (hfull : 256 ≤ (w.dev.parkedAt h.port).length) : signalWork h m w = w := by
  rw [signal_object hheeds hop rfl, hfenced, hfence, if_pos ⟨rfl, hfull⟩]

variable (hv : w.takeSignal h.port (signalPacket h m) = v)
include hv

theorem signal_parks (hfenced : m.fenced = true) (hfence : w.fenceReached h.port h.src m.fence = false)
    (hroom : (w.dev.parkedAt h.port).length < 256) : signalWork h m w
      = (v.updSync (fun y => { y with parked := y.parked ++ [signalParked h m w.dev.beat] })).count pgSy 3 := by
  have hfew : ¬ 256 ≤ (w.dev.parkedAt h.port).length := Nat.not_le.mpr hroom
  simp only [signal_object hheeds hop hv, hfenced, hfence, hfew, and_false, if_false, Bool.not_false, Bool.and_self, if_true]

theorem signal_fenced (hfenced : m.fenced = true) (hfence : w.fenceReached h.port h.src m.fence = true) : signalWork h m w
    = (v.releaseBefore h.port h.src).applySignal (signalParked h m w.dev.beat) := by
  simp only [signal_object hheeds hop hv, hfenced, hfence, Bool.not_true, Bool.and_false, Bool.false_eq_true, false_and, if_false, if_true]

theorem signal_unfenced (hfenced : m.fenced = false) : signalWork h m w
    = (v.count pgSy 4).applySignal (signalParked h m w.dev.beat) := by
  simp only [signal_object hheeds hop hv, hfenced, Bool.false_and, Bool.false_eq_true, false_and, if_false]

end Signal

/-- Settles O47: each packet, once taken, by the lemmas of its own type. -/
theorem packetsAreTaken : Obligations.PacketsAreTaken := by
  unfold Obligations.PacketsAreTaken
  intro s h hheeds
  refine ⟨fun addr gen pwseq group step data g => ?write, fun tag exportId row rowBytes => ?read, fun tag chunk data f row hfind hremote => ?resp,
    fun m hop => ?signal⟩
  case write =>
    intro w hagrees
    refine ⟨fun hgroup hgen => ?_, fun hgroup => runs_of_work rfl (writePkt_rejected hheeds rfl (pktGroup_none hagrees hgroup))⟩
    have hrun := writePkt_accepted (w := s.work) (step := step) (pwseq := pwseq) (addr := addr) (data := data) hheeds rfl
      (pktGroup_found hagrees hgroup hgen)
    exact ⟨fun hon => runs_of_work rfl (hrun.trans (congrArg (fun x : Work => x.posted h pwseq) (if_neg (ne_false_of_eq_true hon)))),
      fun hoff => runs_of_work rfl (hrun.trans (congrArg (fun x : Work => x.posted h pwseq) (if_pos hoff)))⟩
  case read =>
    intro x
    exact ⟨fun hx => runs_of_work rfl (readPkt_refused hheeds rfl (Prod.ext hx rfl)),
      fun l hx => runs_of_work rfl (readPkt_answered hheeds rfl (Prod.ext hx rfl))⟩
  case resp =>
    intro w n l
    have hfound : s.work.dev.fetches.find? (Answers h tag) = some f := hfind
    exact ⟨fun hchunk hall => runs_of_work rfl (resp_last hheeds hfound rfl rfl rfl hchunk hall),
      fun hchunk hmore => runs_of_work rfl (resp_more hheeds hfound rfl rfl rfl hchunk hmore),
      fun i hi hstale => runs_of_work rfl (resp_refused hheeds hfound hremote rfl hi hstale)⟩
  case signal =>
    intro w p
    exact ⟨fun hfenced hfence => runs_of_work rfl (signal_fenced hheeds hop rfl hfenced hfence),
      fun hfenced => runs_of_work rfl (signal_unfenced hheeds hop rfl hfenced),
      fun hfenced hfence hroom => runs_of_work rfl (signal_parks hheeds hop rfl hfenced hfence hroom),
      fun hfenced hfence hfull => runsTo_of_runs (runs_of_work rfl (signal_waits hheeds hop hfenced hfence hfull)) rfl⟩

end Sys2Proof
end

section
/-! SUPPORT. The TIME packet (R323, R324). -/

namespace Sys2Proof

open Machine

/-! ### What the upstream partner says (R324) -/

theorem setUnlocked_crier (w : Work) (p : Option Nat) : (w.setUnlocked p).dev.crier = w.dev.crier := by
  rw [Work.setUnlocked.eq_def]
  split
  · rfl
  · rw [Work.raise_crier]
    rfl

section Upstream

variable {w : Work} {p : Nat} (hsource : w.source = 2) (hp : p = w.rf pgCr .crCfg 11 8)
include hsource hp

theorem upstreamSays_own (unlocked : Bool) : w.upstreamSays p unlocked
    = (w.crier (fun c => { c with upUnlocked := unlocked })).whenB unlocked (fun w => w.setUnlocked (some p)) :=
  if_pos ⟨hsource, hp⟩

theorem upstreamSays_kept (unlocked : Bool) : (w.upstreamSays p unlocked).dev.crier.upUnlocked = unlocked := by
  rw [upstreamSays_own hsource hp, whenB_keeps (g := fun w => w.dev.crier.upUnlocked)]
  · rfl
  · exact fun w => congrArg Crier.upUnlocked (setUnlocked_crier w _)

/-- The first word that the partner is unlocked sets TIME_UNLOCKED. -/
theorem upstreamSays_unlocked (hlocked : w.unlocked = false) : w.upstreamSays p true
    = ((w.crier (fun c => { c with upUnlocked := true })).setRf pgCr .crStatus 28 28 1).raise pgCr .timeUnlocked
      ⟨1, none, codeNone, codeNone, leBytes 1 p⟩ := by
  rw [upstreamSays_own hsource hp, Work.whenB_true, Work.setUnlocked]
  refine if_neg ?_
  rintro (h | h)
  · exact Bool.false_ne_true (hlocked.symm.trans h)
  · exact absurd (hsource.symm.trans h) (by decide)

end Upstream

/-! ### The exchange (R323) -/

section Time

variable {w v : Work} {h : PktHdr} {unlocked : Bool} {tSend fabricGen tEchoRx tEchoTx tRx : Nat}

/-- A TIME packet up to what its two directions share: the partner's FABRIC_GEN, and what the upstream partner says. -/
def timeTaken (w : Work) (h : PktHdr) (reply unlocked : Bool) (tSend fabricGen tEchoRx tEchoTx : Nat) : Work :=
  ((w.takePacket h.port (mkPacket 5 0 h.ctx h.dst h.src
    (leBytes 1 (b2n reply + 2 * b2n unlocked) ++ leBytes 5 tSend ++ leBytes 2 fabricGen) (some (leBytes 5 tEchoRx ++ leBytes 5 tEchoTx))
    [])).setReg ⟨.tp, h.port⟩ .tpPeerGen (atBit (fabricGen % 65536) 0)).upstreamSays h.port unlocked

variable (hheeds : w.heeds h false = true) (hp : h.port < 16) (hkeeps : (w.port h.port).keepsTime = true)
include hheeds hp hkeeps

theorem time_request (hv : timeTaken w h false unlocked tSend fabricGen tEchoRx tEchoTx = v) :
    timePktWork h false unlocked tSend fabricGen tEchoRx tEchoTx tRx w
      = v.tryLock.sendTime h.port true (tRx % 2 ^ 40) (tSend % 2 ^ 40) := by
  rw [timeTaken] at hv
  simp only [timePktWork, if_pos (And.intro hheeds (And.intro hp hkeeps)), hv, if_true]

variable (hv : timeTaken w h true unlocked tSend fabricGen tEchoRx tEchoTx = v)
include hv

/-- A reply is measured against the exchange in progress. -/
theorem time_reply {offset : Int} {x : Work} (hoffset : (d40 tEchoRx tEchoTx - d40 tRx tSend).tdiv 2 = offset)
    (hx : ((v.crier (fun c => { c with echo := put 0 h.port 0 c.echo })).setReg pgCr .crPortOfs
      (atBit 1 31 ||| atBit (sat16 offset) 0) h.port).judgePartner h.port offset = x) :
    timePktWork h true unlocked tSend fabricGen tEchoRx tEchoTx tRx w
      = if look 0 h.port v.dev.crier.echo ≠ tEchoTx % 2 ^ 40 + 1 then v
        else (if x.source = 2 ∧ h.port = x.rf pgCr .crCfg 11 8 ∧ x.dev.counting = true then x.upstream offset else x).tryLock := by
  rw [timeTaken] at hv
  subst hoffset
  simp only [timePktWork, if_pos (And.intro hheeds (And.intro hp hkeeps)), hv, Bool.true_eq_false, if_false, xferOffset, hx]

end Time

/-- Settles O48: a packet is taken the same in both directions; a reply is then measured. -/
theorem timePacketsSteer : Obligations.TimePacketsSteer := by
  unfold Obligations.TimePacketsSteer
  intro s h unlocked tSend fabricGen tEchoRx tEchoTx tRx hheeds hp hkeeps w
  have hrequest := time_request (w := s.work) (v := w false) (unlocked := unlocked) (tSend := tSend) (fabricGen := fabricGen)
    (tEchoRx := tEchoRx) (tEchoTx := tEchoTx) (tRx := tRx) hheeds hp hkeeps rfl
  have hreply := time_reply (w := s.work) (v := w true) (unlocked := unlocked) (tSend := tSend) (fabricGen := fabricGen)
    (tEchoRx := tEchoRx) (tEchoTx := tEchoTx) (tRx := tRx) hheeds hp hkeeps rfl rfl rfl
  clear_value w
  refine ⟨runs_of_work rfl hrequest, fun hother => runs_of_work rfl (hreply.trans (if_pos hother)), fun hecho => ?answers,
    fun hsource hown => ⟨upstreamSays_kept hsource hown unlocked, fun _ hlocked => upstreamSays_unlocked hsource hown hlocked⟩⟩
  case answers =>
    intro offset v
    have hanswer := hreply.trans (if_neg (not_not_intro hecho))
    refine ⟨fun hother => runs_of_work rfl (hanswer.trans (congrArg Work.tryLock (if_neg ?_))), fun hsource hown hcounting =>
      runs_of_work rfl (hanswer.trans (congrArg Work.tryLock (if_pos ⟨hsource, hown, hcounting⟩)))⟩
    rintro ⟨hsource, hown, -⟩
    exact hother.elim (fun hn => hn hsource) (fun hn => hn hown)

end Sys2Proof
end

section
/-! SUPPORT. Packets to a group, MGMT, and the start of collectives (R147, R374, R378, R380 to R384, R388, R419). -/

namespace Sys2Proof

open Machine

/-! ### ABORT (R381, R382) -/

theorem heeds_ctrl {w : Work} {h : PktHdr} (hheeds : w.heeds h false = true) : w.heeds h true = true := by
  obtain ⟨hdst, hup⟩ := Bool.and_eq_true_iff.mp hheeds
  refine Bool.and_eq_true_iff.mpr ⟨hdst, ?_⟩
  rw [Bool.false_and, Bool.or_false] at hup
  rw [hup, Bool.true_or]

section Abort

variable {w v x : Work} {h : PktHdr} {group gen code origin g : Nat} (hheeds : w.heeds h true = true)
  (hv : w.takePacket h.port (mkPacket 6 0 h.ctx h.dst h.src (leBytes 2 group ++ leBytes 2 gen ++ leBytes 2 code ++ leBytes 2 origin)
    none []) = v)
  (hg : v.pktGroup h.port group gen = (some g, x))
include hheeds hv hg

theorem abort_again (hknown : (x.count pgEx 5).dev.exch.aborts.contains (g, gen) = true) : abortWork h group gen code origin w
    = x.count pgEx 5 := by
  simp only [abortWork, if_pos hheeds, hv, hg, if_pos hknown]

/-- The first ABORT of a group and GEN is passed on, and ends the collective. -/
theorem abort_first {u y : Work} (hnew : (x.count pgEx 5).dev.exch.aborts.contains (g, gen) = false)
    (hy : (x.count pgEx 5).abortOthers g gen code origin = y)
    (hu : ((y.dev.exch.colls.find? (fun c => c.group == g && c.gen == gen)).map (fun c =>
      y.endParticipant c (abortErr code) (leBytes 2 origin))).getD y = u) : abortWork h group gen code origin w
      = if abortErr code = .collRefused then u.each (u.dev.streamsTo g) (fun (m, t) w =>
          w.failTask m.gid m.ti pgEx .collRefused group (leBytes 2 origin ++ leBytes 2 t.stream.id))
        else u := by
  have hnot : ¬ (x.count pgEx 5).dev.exch.aborts.contains (g, gen) = true := by rw [hnew]; exact Bool.false_ne_true
  have hend : (match y.dev.exch.colls.find? (fun c => c.group == g && c.gen == gen) with
      | some c => y.endParticipant c (abortErr code) (leBytes 2 origin)
      | none => y) = u := by
    rw [← hu]
    cases y.dev.exch.colls.find? (fun c => c.group == g && c.gen == gen) <;> rfl
  subst hend
  simp only [abortWork, if_pos hheeds, hv, hg, if_neg hnot, hy] <;> rfl

end Abort

theorem abortErr_refused {code : Nat} (h : code = Err.collRefused.code) : abortErr code = .collRefused := if_pos h

theorem abortErr_lost {code : Nat} (h : code ≠ Err.collRefused.code) : abortErr code ≠ .collRefused := by
  rw [abortErr, if_neg h]
  decide

/-! ### MCAST and MCREDIT (R147, R384) -/

section Mcast

variable {w v x : Work} {h : PktHdr} {streamId group gen row destOffset pwseq chunk : Nat} {last : Bool} {data : List Byte}
  (hheeds : w.heeds h false = true)
  (hv : w.takePacket h.port (mkPacket 7 h.poison h.ctx h.dst h.src (leBytes 2 streamId ++ leBytes 2 group ++ leBytes 2 gen)
    (some (leBytes 4 row ++ leBytes 4 destOffset ++ leBytes 4 pwseq ++ leBytes 2 chunk)) data) = v)
include hheeds hv

theorem mcast_rejected (hg : v.pktGroup h.port group gen = (none, x)) :
    mcastWork h streamId group gen row destOffset pwseq chunk last data w = x.posted h pwseq := by
  simp only [mcastWork, if_pos hheeds, hv, hg]

/-- The kept chunks of one row of a stream. -/
def mcRowIs (h : PktHdr) (streamId g row : Nat) (x : McRow) : Bool :=
  x.src == h.src && x.stream == streamId && x.group == g && x.row == row

theorem mcast_accepted {g : Nat} {y : Work} {l : List PByte} (hg : v.pktGroup h.port group gen = (some g, x))
    (hl : (if chunk = 0 then [] else (((x.count pgEx 2 data.length).dev.exch.mcRx.find? (mcRowIs h streamId g row)).map McRow.data).getD [])
      ++ marked h.poison data = l)
    (hy : (x.count pgEx 2 data.length).exch (fun x => { x with mcRx := x.mcRx.filter (fun z => !mcRowIs h streamId g row z) }) = y) :
    mcastWork h streamId group gen row destOffset pwseq chunk last data w
      = (if x.rb pgTt .ttCtxCfg 31 h.ctx = false then x.refusePosted h group gen
        else if last then y.landMcast h g streamId group gen row destOffset l
        else y.exch (fun x => { x with mcRx := x.mcRx ++ [(⟨h.src, streamId, g, row, l⟩ : McRow)] })).posted h pwseq := by
  have hmine : mcRowIs h streamId g row = fun x : McRow => x.src == h.src && x.stream == streamId && x.group == g && x.row == row := rfl
  rw [hmine] at hl
  simp only [mcRowIs] at hy
  simp only [mcastWork, if_pos hheeds, hv, hg, hl, hy]

end Mcast

section Land

variable {w : Work} {h : PktHdr} {g streamId group gen row destOffset d ctx pitch off : Nat} {p : Pitch} {l : List PByte}
  (hmember : w.dev.member g (w.grpRank g) = some (d, ctx, pitch)) (hpitch : w.pitchFor ctx pitch = some p)
  (hoff : destOffset + row * (64 * ceilDiv l.length 64) = off)
include hmember hpitch hoff

theorem landMcast_inside (hin : off + l.length ≤ 3145728) : w.landMcast h g streamId group gen row destOffset l
    = (w.each p.clusters (fun c w => (w.writePhys (slicePhys c off) l).count ⟨.wh, c⟩ 7)).creditMcast h.src streamId group row := by
  simp only [Work.landMcast, hmember, hpitch, hoff, if_neg (Nat.not_lt.mpr hin)]

theorem landMcast_outside (hout : 3145728 < off + l.length) : w.landMcast h g streamId group gen row destOffset l
    = w.refusePosted h group gen := by
  simp only [Work.landMcast, hmember, hpitch, hoff, if_pos hout]

end Land

/-- A row that follows those credited, with none kept after it, is credited alone. -/
theorem gain_next {m : McIn} {row : Nat} (hnext : m.next = row) (hlater : m.later = []) : m.gain row = { m with next := row + 1 } := by
  subst hnext
  have hnew : ¬ (m.next < m.next ∨ m.next ∈ m.later) := by simp [hlater]
  have hrun : (List.range 2).takeWhile (fun k => [m.next].contains (m.next + k)) = [0] := by
    rw [show List.range 2 = [0, 1] from rfl]
    simp
  simp only [McIn.gain, if_neg hnew]
  simp only [hlater, List.length_cons, List.length_nil, Nat.zero_add, Nat.reduceAdd, hrun]
  rw [show ([m.next] : List Nat).eraseDups = [m.next] from rfl, List.filter_eq_nil_iff.mpr (by simp)]

/-- A row before which one is missing credits nothing. -/
theorem gain_gap {m : McIn} {row : Nat} (hgap : m.next < row) (hmissing : m.next ∉ m.later) (hrow : row ∉ m.later) :
    (m.gain row).next = m.next := by
  have hnew : ¬ (row < m.next ∨ row ∈ m.later) := by
    rintro (h | h)
    · omega
    · exact hrow h
  have hheld : (row :: m.later).contains (m.next + 0) = false := by
    rw [Nat.add_zero, List.contains_eq_mem]
    refine decide_eq_false fun h => ?_
    rcases List.mem_cons.mp h with h | h
    · omega
    · exact hmissing h
  simp only [McIn.gain, if_neg hnew]
  rw [List.range_succ_eq_map, List.takeWhile_cons_of_neg (by rw [hheld]; exact Bool.false_ne_true)]
  rfl

/-- The stream that a credit names. -/
def CreditFor (w : Work) (streamId group : Nat) (m : McStream) : Bool := match w.dev.task? m.gid m.ti with
  | some t => t.stream.id == streamId && w.grpId t.stream.group == group
  | none => false

theorem mcredit_found {w v : Work} {h : PktHdr} {streamId group row : Nat} {m : McStream} {rest : List McStream} (hheeds : w.heeds h true = true)
    (hv : w.takePacket h.port (mkPacket 8 0 h.ctx h.dst h.src (leBytes 2 streamId ++ leBytes 2 group ++ leBytes 4 row) none []) = v)
    (hstream : v.dev.streams.filter (CreditFor v streamId group) = m :: rest) : mcreditWork h streamId group row w
      = (v.setStream m.cluster (fun m => { m with recvs := m.recvs.map (fun x =>
        if x.remote && x.who == h.src && !x.detached then
          { x with landed := max x.landed (row + 1), credited := max x.credited (row + 1) } else x) })).sweepStream m.cluster := by
  simp only [mcreditWork, if_pos hheeds, hv]
  generalize ho : List.filter _ v.dev.streams = o
  obtain rfl : o = m :: rest := ho.symm.trans hstream
  rfl

/-! ### MGMT (R361, R419) -/

/-- Every message is answered. -/
theorem mctpAnswer_isSome (w : Work) (m : List Byte) : ∃ r, (w.mctpAnswer m).1 = some r := by
  rw [Work.mctpAnswer]
  split
  · obtain ⟨r, v⟩ := w.mctpControl (byteAt m 2) (m.drop 3)
    exact ⟨_, rfl⟩
  · obtain ⟨a, v⟩ := w.spdm (spdmParse (m.drop 1))
    exact ⟨_, rfl⟩
  · obtain ⟨r, v⟩ := w.fenhorn (byteAt m 3) (bytesAt m 4 4) (byteAt m 8)
    exact ⟨_, rfl⟩
  · exact ⟨_, rfl⟩

theorem mgmt_answered {w v : Work} {h : PktHdr} {m : List Byte} {x : Option (List Byte) × Work} (hheeds : w.heeds h true = true)
    (hup : w.mgmtUp = true) (hv : w.takePacket h.port (mkPacket 10 h.poison h.ctx h.dst h.src [] none m) = v)
    (hwhole : byteAt m 3 / 64 = 3) (hdest : byteAt m 1 = 0 ∨ byteAt m 1 = v.dev.eid) (hx : v.mctpAnswer (m.drop 4) = x) :
    mgmtWork h m w = x.2.sendMctp h (byteAt m 2) (byteAt m 3) (x.1.getD []) := by
  have hboth : (w.heeds h true && w.mgmtUp) = true := by rw [hheeds, hup, Bool.and_self]
  have hmine : byteAt m 3 / 64 = 3 ∧ (byteAt m 1 = 0 ∨ byteAt m 1 = v.dev.eid) := ⟨hwhole, hdest⟩
  have hsome := mctpAnswer_isSome v (m.drop 4)
  obtain ⟨o, u⟩ := x
  rw [hx] at hsome
  obtain ⟨r, rfl⟩ := hsome
  simp only [mgmtWork, if_pos hboth, hv, if_pos hmine, hx, Option.getD_some]

/-- Settles O49: each packet, once taken, by the lemmas of its own type. -/
theorem groupPacketsAreTaken : Obligations.GroupPacketsAreTaken := by
  unfold Obligations.GroupPacketsAreTaken
  intro s h
  refine ⟨fun group gen code origin g hheeds => ?abort, fun streamId group gen row destOffset pwseq chunk last data hheeds => ?mcast,
    fun w g streamId group gen row destOffset d ctx pitch p l hmember hpitch => ?land,
    fun m row => ⟨fun hnext hlater => gain_next hnext hlater, fun hgap hmissing hrow => gain_gap hgap hmissing hrow⟩,
    fun streamId group row m rest hheeds => ?credit, fun m hheeds hup => ?mgmt⟩
  case abort =>
    intro w hagrees hgroup hgen
    have hg := pktGroup_found hagrees hgroup hgen
    refine ⟨fun hknown => runs_of_work rfl (abort_again (heeds_ctrl hheeds) rfl hg hknown), fun hnew => ?_⟩
    have hrun := abort_first (w := s.work) (code := code) (origin := origin) (heeds_ctrl hheeds) rfl hg hnew rfl rfl
    exact ⟨fun hcode => runs_of_work rfl (hrun.trans (if_neg (abortErr_lost hcode))),
      fun hcode => runs_of_work rfl (hrun.trans (if_pos (abortErr_refused hcode)))⟩
  case mcast =>
    intro w
    refine ⟨fun hdiffers => runs_of_work rfl (mcast_rejected hheeds rfl (if_pos hdiffers)), fun hagrees =>
      ⟨fun hgroup => runs_of_work rfl (mcast_rejected hheeds rfl (pktGroup_none hagrees hgroup)), fun g hgroup => ⟨fun hgen => ?_, ?_, ?_⟩⟩⟩
    · exact runs_of_work rfl (mcast_rejected hheeds rfl (pktGroup_stale hagrees hgroup hgen))
    · intro hgen hoff
      have hrun := mcast_accepted (w := s.work) (row := row) (destOffset := destOffset) (pwseq := pwseq) (last := last) hheeds rfl
        (pktGroup_found hagrees hgroup hgen) rfl rfl
      exact runs_of_work rfl (hrun.trans (congrArg (fun x : Work => x.posted h pwseq) (if_pos hoff)))
    · intro hgen hon v mine l y
      have hrun := mcast_accepted (w := s.work) (row := row) (destOffset := destOffset) (pwseq := pwseq) (last := last) hheeds rfl
        (pktGroup_found hagrees hgroup hgen) rfl rfl
      exact ⟨fun hlast => runs_of_work rfl (hrun.trans (congrArg (fun x : Work => x.posted h pwseq)
          ((if_neg (ne_false_of_eq_true hon)).trans (if_pos hlast)))),
        fun hmore => runs_of_work rfl (hrun.trans (congrArg (fun x : Work => x.posted h pwseq)
          ((if_neg (ne_false_of_eq_true hon)).trans (if_neg (ne_true_of_eq_false hmore)))))⟩
  case land =>
    intro off
    exact ⟨landMcast_inside hmember hpitch rfl, landMcast_outside hmember hpitch rfl⟩
  case credit =>
    intro w hstream
    exact runs_of_work rfl (mcredit_found hheeds rfl hstream)
  case mgmt =>
    intro w hwhole hdest x
    exact runs_of_work rfl (mgmt_answered hheeds hup rfl hwhole hdest rfl)

end Sys2Proof
end

section
/-! SUPPORT. The start of collectives and the setting of groups (R374, R378, R380, R388). -/

namespace Sys2Proof

open Machine

/-! ### COLLECTIVE_START (R378, R380) -/

/-- What a collective does as it starts, by its operation. -/
def collBegins (w : Work) (r : TaskRef) (t : Task) (c : Coll) (x : CollPar) : Work :=
  let v :=
    if x.cop = 3 then w.collCopy c x.src x.dst (x.r * (x.els * x.es)) (x.els * x.es)
    else if (x.cop = 4 ∧ x.place = 0) ∨ (x.p = 1 ∧ x.cop ≤ 2) then w.collCopy c x.src x.dst 0 (x.els * x.es)
    else w
  if x.cop = 5 then v.haloRun c t else v.collGo r.gid r.task

section Begins

variable {w : Work} {r : TaskRef} {t : Task} {c : Coll} {x : CollPar}

theorem collBegins_halo (hcop : x.cop = 5) : collBegins w r t c x = w.haloRun c t := by
  rw [collBegins, if_pos hcop, if_neg (by omega), if_neg (by omega)]

theorem collBegins_gather (hcop : x.cop = 3) : collBegins w r t c x
    = (w.collCopy c x.src x.dst (x.r * (x.els * x.es)) (x.els * x.es)).collGo r.gid r.task := by
  rw [collBegins, if_neg (by omega), if_pos hcop]

theorem collBegins_copies (hcop : (x.cop = 4 ∧ x.place = 0) ∨ ((x.cop = 1 ∨ x.cop = 2) ∧ x.p = 1)) : collBegins w r t c x
    = (w.collCopy c x.src x.dst 0 (x.els * x.es)).collGo r.gid r.task := by
  rw [collBegins, if_neg (by omega), if_neg (by omega), if_pos (by omega)]

theorem collBegins_plain (hcop : (x.cop = 4 ∧ x.place ≠ 0) ∨ ((x.cop = 1 ∨ x.cop = 2) ∧ x.p ≠ 1)) : collBegins w r t c x
    = w.collGo r.gid r.task := by
  rw [collBegins, if_neg (by omega), if_neg (by omega), if_neg (by omega)]

end Begins

/-- A collective that may start is entered, begins, and takes the events that came early. -/
theorem collectiveStart_free {w v : Work} {r : TaskRef} {t : Task} {g : Nat} {x : CollPar} {c : Coll} {early : List EarlyStep}
    (ht : w.dev.task? r.gid r.task = some t) (hmay : collMay t = true) (hidle : w.dev.coll? r.gid r.task = none)
    (hg : t.f 64 1 = g) (hvalid : w.grpValid g = true) (hfree : w.dev.exch.colls.any (fun c => c.group == g) = false)
    (hroom : w.dev.exch.colls.length < 64) (hx : w.collPar t = x)
    (hc : (({ gid := r.gid, ti := r.task, group := g, gen := w.grpGen g
              dests := if x.sends = 0 then [] else ((w.dev.member g x.next).map (fun m => [m.1])).getD []
              applied := 0, sent := 0, buf := none, readySeen := [], readySent := 0, haloFrom := [], finalBytes := []
              stopPolicy := w.rf pgTt .ttCtxCfg 29 28 (w.dev.ctxOf r.gid) == 1 } : Coll)) = c)
    (hv : (w.exch (fun y => { y with colls := y.colls ++ [c], early := y.early.filter (fun e => e.group != g) })).setTask r.gid r.task
      (fun t => { t with state := .active }) = v)
    (hearly : w.dev.exch.early.filter (fun e => e.group == g && e.gen == w.grpGen g) = early) :
    collectiveStartWork r w = (collBegins v r t c x).each early (fun e w => w.exEvent e) := by
  subst hg
  have hgo : ¬ (collMay t = false ∨ (w.dev.coll? r.gid r.task).isSome = true ∨ w.grpValid (t.f 64 1) = false
      ∨ w.dev.exch.colls.any (fun c => c.group == t.f 64 1) = true ∨ 64 ≤ w.dev.exch.colls.length) := by
    rw [hmay, hidle, hvalid, hfree]
    simp only [Option.isSome_none, Bool.true_eq_false, Bool.false_eq_true, false_or, Nat.not_le]
    exact hroom
  simp only [collectiveStartWork, ht, if_neg hgo, hx, hc, hv, hearly, collBegins]

/-! ### GROUP_VALID (R374, R388) -/

/-- The word that sets VALID with an owner and a GEN. -/
def groupWord (owner gen : Nat) : Word := atBit 1 31 ||| atBit owner 24 ||| atBit gen 0

section GroupWord

variable {owner gen : Nat} (howner : owner < 32) (hgen : gen < 65536)
include howner hgen

theorem toNat_groupWord : (groupWord owner gen).toNat = 2 ^ 31 + owner * 2 ^ 24 + gen := by
  have htop : (atBit 1 31).toNat = 2 ^ 31 := by rw [toNat_atBit, Nat.one_mul, Nat.mod_eq_of_lt (by decide)]
  have howned : (atBit owner 24).toNat = owner * 2 ^ 24 := by rw [toNat_atBit]; omega
  have hgiven : (atBit gen 0).toNat = gen := by rw [toNat_atBit]; omega
  have hhigh : (atBit 1 31 ||| atBit owner 24).toNat = 2 ^ 31 + owner * 2 ^ 24 := by
    rw [toNat_or_of_apart 31 (by rw [htop, Nat.mod_self]) (by rw [howned]; omega), htop, howned]
  rw [groupWord, toNat_or_of_apart 16 (by rw [hhigh]; omega) (by rw [hgiven]; omega), hhigh, hgiven]

theorem fld_groupWord_owner : fld (groupWord owner gen) 28 24 = owner := by
  rw [fld_eq, toNat_groupWord howner hgen]
  omega

theorem fld_groupWord_gen : fld (groupWord owner gen) 15 0 = gen := by
  rw [fld_eq, toNat_groupWord howner hgen]
  omega

theorem bitOf_groupWord_valid : bitOf (groupWord owner gen) 31 = true := by
  rw [bitOf_eq_decide, toNat_groupWord howner hgen]
  exact decide_eq_true (by omega)

theorem getLsbD_groupWord_reserved {i : Nat} (hi : 16 ≤ i ∧ i < 24 ∨ i = 29 ∨ i = 30) : (groupWord owner gen).getLsbD i = false := by
  have hbit := bitOf_eq_decide (groupWord owner gen) i
  rw [toNat_groupWord howner hgen] at hbit
  refine hbit.trans (decide_eq_false ?_)
  rcases hi with ⟨hlo, hhi⟩ | rfl | rfl
  · have hi : i = 16 ∨ i = 17 ∨ i = 18 ∨ i = 19 ∨ i = 20 ∨ i = 21 ∨ i = 22 ∨ i = 23 := by omega
    rcases hi with rfl | rfl | rfl | rfl | rfl | rfl | rfl | rfl <;> omega
  · omega
  · omega

/-- It has no bits outside VALID, OWNER and GEN. -/
theorem groupWord_masked : groupWord owner gen &&& 0x9F00FFFF = groupWord owner gen := by
  have hmask : ∀ i < 32, ¬ (16 ≤ i ∧ i < 24 ∨ i = 29 ∨ i = 30) → (0x9F00FFFF : Word).getLsbD i = true := by decide
  refine BitVec.eq_of_getLsbD_eq fun i hi => ?_
  rw [BitVec.getLsbD_and]
  by_cases hreserved : 16 ≤ i ∧ i < 24 ∨ i = 29 ∨ i = 30
  · rw [getLsbD_groupWord_reserved howner hgen hreserved, Bool.false_and]
  · rw [hmask i hi hreserved, Bool.and_true]

end GroupWord

/-- The member list's address. -/
def memberListVa (w : Work) (g : Nat) : Nat := fld (w.grp g 3) 31 2 * 4 + fld (w.grp g 4) 11 0 * 2 ^ 32

/-- A list that is read, and names this device and the owner at the group's rank, is kept. -/
theorem validateGroup_accepted {w v : Work} {g n owner : Nat} {cfg : Word} {b : List Byte} {es : List Word}
    (hn : w.grpSize g = n) (hpos : n ≠ 0) (hsize : n ≤ 4096) (hrank : w.grpRank g < n)
    (halone : ∀ h < 256, h ≠ g → w.grpValid h = true → w.grpId h ≠ w.grpId g) (howner : fld cfg 28 24 = owner)
    (hread : w.readClean owner (memberListVa w g) (4 * n) ⟨some owner, 0xFFFFFFFF, 0xFFFFFFFF⟩ = (some b, v))
    (hes : (List.range n).map (fun k => (BitVec.ofNat 32 (bytesAt b (4 * k) 4) : Word)) = es)
    (hself : fld (es.getD (w.grpRank g) 0) 11 0 = v.self) (hown : fld (es.getD (w.grpRank g) 0) 16 12 = owner) :
    w.validateGroup g cfg = .ok ((v.setGrp g 0 cfg).exch (fun x => { x with
      members := x.members.filter (fun m => m.group != g) ++ [⟨g, es⟩]
      early := x.early.filter (fun e => e.group != g || e.gen == fld cfg 15 0) })) := by
  have hlegal : ¬ (n = 0 ∨ 4096 < n ∨ n ≤ w.grpRank g
      ∨ (List.range 256).any (fun h => decide (h ≠ g) && w.grpValid h && w.grpId h == w.grpId g) = true) := by
    rintro (h | h | h | h)
    · exact hpos h
    · omega
    · omega
    · obtain ⟨k, hk, hsame⟩ := List.any_eq_true.mp h
      simp only [Bool.and_eq_true, decide_eq_true_eq, beq_iff_eq] at hsame
      exact halone k (List.mem_range.mp hk) hsame.1.1 hsame.1.2 hsame.2
  have hmine : ¬ (fld (es.getD (w.grpRank g) 0) 11 0 ≠ v.self ∨ fld (es.getD (w.grpRank g) 0) 16 12 ≠ owner) := by
    rintro (h | h)
    · exact h hself
    · exact h hown
  rw [memberListVa] at hread
  simp only [Work.validateGroup, hn, if_neg hlegal, howner, hread, hes, if_neg hmine]

theorem writeGrp_validates {w x : Work} {pg : Nat} {g : Nat} {v : Word} (hsel : w.grpSel pg = g) (hvalid : bitOf v 31 = true)
    (hidle : w.grpBusy g = false) (hgroup : w.validateGroup g (v &&& 0x9F00FFFF) = .ok x) : w.writeGrp pg 0 v = .ok x := by
  simp only [Work.writeGrp, hsel, hvalid, and_self, if_true, hidle, Bool.false_eq_true, if_false, hgroup]
  rfl

/-- Settles O50: a collective is entered and begins by its operation; a group's list is checked and kept. -/
theorem collectivesStart : Obligations.CollectivesStart := by
  unfold Obligations.CollectivesStart
  intro s
  refine ⟨fun r t ht hmay hidle hvalid hfree hroom => ?start, fun who owner gen howner hgen => ?group⟩
  case start =>
    intro g x c w early
    have hrun := collectiveStart_free (w := s.work) ht hmay hidle rfl hvalid hfree hroom (x := x) rfl rfl (v := w) rfl rfl
    have begins {v : Work} (hv : collBegins w r t c x = v) : Runs (.collectiveStart r) s (early v) := by
      subst hv
      exact runs_of_work rfl hrun
    exact ⟨fun hcop => begins (collBegins_halo hcop), fun hcop => begins (collBegins_gather hcop),
      fun hcop => begins (collBegins_copies hcop), fun hcop => begins (collBegins_plain hcop)⟩
  case group =>
    intro cfg hacc g n x hidle hpos hsize hrank halone b hb es hself hown
    have hmasked : cfg &&& 0x9F00FFFF = cfg := groupWord_masked howner hgen
    have hgroup := validateGroup_accepted (w := s.work) (cfg := cfg) rfl hpos hsize hrank halone (fld_groupWord_owner howner hgen)
      (Prod.ext hb rfl) rfl hself hown
    rw [show fld cfg 15 0 = gen from fld_groupWord_gen howner hgen, ← hmasked] at hgroup
    have heff := writeGrp_validates rfl (bitOf_groupWord_valid howner hgen) hidle hgroup
    rw [hmasked] at heff
    exact runs_poke (c := .groupValid who owner gen) rfl hacc heff

end Sys2Proof
end

section
/-! SUPPORT. The aperture, translation services, the PCI Express link, and Function Level Reset (R390, R391, R412 to R418, R421, R422). -/

namespace Sys2Proof

open Machine

/-! ### The aperture (R412, R413) -/

/-- The physical address that the PF's window names. -/
def pfAddress (w : Work) (off : Nat) : Nat :=
  fld (w.reg pgPx .pxAperLo) 31 28 * 2 ^ 28 + fld (w.reg pgPx .pxAperHi) 15 0 * 2 ^ 32 + off

/-- The virtual address that another function's window names. -/
def fnAddress (w : Work) (fn off : Nat) : Nat :=
  fld (w.reg pgPx .pxFnAperLo fn) 31 30 * 2 ^ 30 + fld (w.reg pgPx .pxFnAperHi fn) 11 0 * 2 ^ 32 + off

theorem aperture_pf_backed {w : Work} {off len : Nat} (write : Bool) (h : w.backed (pfAddress w off) len = true) :
    w.aperture 0 off len write = (some [(pfAddress w off, len)], w) := by
  rw [pfAddress] at h
  simp only [Work.aperture, if_true, h, pfAddress]

theorem aperture_pf_unbacked {w : Work} {off len : Nat} (write : Bool) (h : w.backed (pfAddress w off) len = false) :
    w.aperture 0 off len write = (none, w) := by
  rw [pfAddress] at h
  simp only [Work.aperture, if_true, h, Bool.false_eq_true, if_false]

section Function

variable {w v : Work} {fn off len : Nat} {write : Bool} (hfn : fn ≠ 0)
include hfn

theorem aperture_fn_error {e : Nat} (hrange : w.translateRange fn (fnAddress w fn off) len write (aperReader fn) = (.error e, v)) :
    w.aperture fn off len write = (none, v) := by
  rw [fnAddress] at hrange
  simp only [Work.aperture, if_neg hfn, hrange]

variable {l : List (Target × Nat × Nat)} (hrange : w.translateRange fn (fnAddress w fn off) len write (aperReader fn) = (.ok l, v))
include hrange

/-- Pieces that all lead to the device are the pieces of the access. -/
theorem aperture_fn_pieces {ps : List (Nat × Nat)} (hps : l.map (fun t => (t.1, t.2.2)) = ps.map (fun q => (Target.dev q.1, q.2))) :
    w.aperture fn off len write = (some ps, v) := by
  rw [fnAddress] at hrange
  simp only [Work.aperture, if_neg hfn, hrange]
  refine Prod.ext ?_ rfl
  change List.foldr _ _ l = some ps
  clear hrange
  induction l generalizing ps with
  | nil =>
    cases ps with
    | nil => rfl
    | cons q ps => simp at hps
  | cons t l ih =>
    cases ps with
    | nil => simp at hps
    | cons q ps =>
      obtain ⟨t, lo, n⟩ := t
      simp only [List.map_cons, List.cons.injEq, Prod.mk.injEq] at hps
      obtain ⟨⟨rfl, rfl⟩, htail⟩ := hps
      rw [List.foldr_cons, ih htail]

/-- A piece that leads to the host leaves no access. -/
theorem aperture_fn_host {a : Target × Nat × Nat} (ha : a ∈ l) (hhost : ∀ b, a.1 ≠ .dev b) : w.aperture fn off len write = (none, v) := by
  rw [fnAddress] at hrange
  simp only [Work.aperture, if_neg hfn, hrange]
  refine Prod.ext ?_ rfl
  change List.foldr _ _ l = none
  clear hrange
  induction l with
  | nil => cases ha
  | cons t l ih =>
    obtain ⟨t, lo, n⟩ := t
    rw [List.foldr_cons]
    rcases List.mem_cons.mp ha with rfl | ha
    · cases t with
      | dev b => exact absurd rfl (hhost b)
      | host b => rfl
    · rw [ih ha]
      cases t <;> rfl

end Function

/-- The pieces of a read, one after the other. -/
def readPieces (w : Work) (fn : Nat) (ps : List (Nat × Nat)) : List PByte × Work :=
  ps.foldl (fun (acc : List PByte × Work) q =>
    (acc.1 ++ (acc.2.readPhys q.1 q.2 (aperReader fn)).1, (acc.2.readPhys q.1 q.2 (aperReader fn)).2)) ([], w)

section Access

variable {w v : Work} {fn off len : Nat} {data : List Byte} {poisoned : Bool} (hup : w.answers (.fn fn) = true)
include hup

theorem apertureRead_missed (h : w.aperture fn off len false = (none, v)) : apertureReadWork fn off len w
    = (v.aperFault fn off).say (.completion fn (List.replicate len 0xFF) false) := by
  simp only [apertureReadWork, if_pos hup, h]

theorem apertureRead_pieces {ps : List (Nat × Nat)} {y : List PByte × Work} (h : w.aperture fn off len false = (some ps, v))
    (hy : readPieces v fn ps = y) : apertureReadWork fn off len w = y.2.say (.completion fn (y.1.map (·.1)) (y.1.any (·.2))) := by
  simp only [apertureReadWork, if_pos hup, h]
  rw [← hy]
  rfl

theorem apertureWrite_missed {u : Work} (hu : w.whenB poisoned (fun w => w.count pgPx 6) = u)
    (h : u.aperture fn off data.length true = (none, v)) : apertureWriteWork fn off data poisoned w = v.aperFault fn off := by
  simp only [apertureWriteWork, if_pos hup, hu, h]

theorem apertureWrite_pieces {u : Work} {ps : List (Nat × Nat)} (hu : w.whenB poisoned (fun w => w.count pgPx 6) = u)
    (h : u.aperture fn off data.length true = (some ps, v)) : apertureWriteWork fn off data poisoned w
      = (ps.foldl (fun (acc : Nat × Work) q =>
          (acc.1 + q.2, acc.2.writePhys q.1 (((data.drop acc.1).take q.2).map (fun b => (b, poisoned))))) (0, v)).2 := by
  simp only [apertureWriteWork, if_pos hup, hu, h]

end Access

theorem apertureRead_runs {s : State} {fn off len : Nat} {w : Work} (hin : off + len ≤ aperBytes fn)
    (h : apertureReadWork fn off len s.work = w) : Runs (.apertureRead fn off len) s w :=
  runs_of_work (if_neg (Nat.not_lt.mpr hin)) h

theorem apertureWrite_runs {s : State} {fn off : Nat} {data : List Byte} {poisoned : Bool} {w : Work}
    (hin : off + data.length ≤ aperBytes fn) (h : apertureWriteWork fn off data poisoned s.work = w) :
    Runs (.apertureWrite fn off data poisoned) s w :=
  runs_of_work (if_neg (Nat.not_lt.mpr hin)) h

/-- An answer whose pieces all lead to the device. -/
theorem range_pieces {x : Except Nat (List (Target × Nat × Nat)) × Work} {ps : List (Nat × Nat)}
    (h : x.1.toOption.map (·.map (fun t => (t.1, t.2.2))) = some (ps.map (fun q => (Target.dev q.1, q.2)))) :
    ∃ l, x = (.ok l, x.2) ∧ l.map (fun t => (t.1, t.2.2)) = ps.map (fun q => (Target.dev q.1, q.2)) := by
  obtain ⟨o, v⟩ := x
  cases o with
  | error e => cases h
  | ok l => exact ⟨l, rfl, Option.some.inj h⟩

/-! ### Translation services and the link (R390, R391, R415, R416, R421, R422) -/

theorem atsInvalidate_idle {w : Work} {fn addr len : Nat} (h : w.atsBusy fn addr len = false) : atsInvalidateWork fn addr len w
    = (w.count pgPx 5).say (.atsDone fn) := by
  rw [atsInvalidateWork, if_neg (by simp [h])]

theorem atsEnable_answers {w : Work} {fn : Nat} (on : Bool) (h : w.answers (.fn fn) = true) : atsEnableWork fn on w
    = w.upd (fun d => { d with atsEn := put false fn on d.atsEn }) := by
  rw [atsEnableWork, if_pos h]

theorem vfEnable_stores {w : Work} {on : Bool} (h : w.answers (.fn 0) = true) (hmode : on = false ∨ w.dev.boot.mode ≠ .recovery) :
    vfEnableWork on w = w.upd (fun d => { d with vfEnabled := on }) := by
  refine if_pos ⟨h, ?_⟩
  rintro ⟨hon, hrec⟩
  exact hmode.elim (fun hoff => Bool.false_ne_true (hoff.symm.trans hon)) (fun hm => hm hrec)

theorem vfEnable_refused {w : Work} {on : Bool} (hon : on = true) (hmode : w.dev.boot.mode = .recovery) : vfEnableWork on w = w :=
  if_neg fun h => h.2 ⟨hon, hmode⟩

theorem pcieLinkDown_up {w : Work} (h : w.linkUp = true) : pcieLinkDownWork w
    = ((w.setReg pgPx .pxLink 0).raise pgPx .pcieLinkDown ⟨1, none, codeNone, codeNone, []⟩).each
      (w.dev.fetches.filterMap (fun f => (w.fetchHost f).map (fun a => (f, a)))) (fun (f, a) w => w.hostFail f.gid f.ti f.cluster a) := by
  rw [pcieLinkDownWork, if_pos h]

theorem hostCompletionTimeout_fails {w : Work} {r : TaskRef} {c addr : Nat} {t : Task}
    (hres : (w.dev.resident c).any (fun i => i.gid == r.gid && i.ti == r.task) = true) (ht : w.dev.task? r.gid r.task = some t) :
    hostCompletionTimeoutWork r c addr w = w.failTask r.gid r.task (t.page c) .xlate c (leBytes 8 addr) := by
  rw [hostCompletionTimeoutWork, if_pos hres, Work.hostFail, ht]

/-! ### Function Level Reset (R417, R418) -/

theorem setFlrBusy_contains (w : Work) (n : Nat) :
    (w.upd (fun d => { d with flrBusy := d.flrBusy.filter (· != n) ++ [n] })).dev.flrBusy.contains n = true := by
  rw [Work.upd_dev, List.contains_append, List.contains_cons, beq_self_eq_true, Bool.true_or, Bool.or_true]

theorem flrShare_busy (w : Work) (n : Nat) (pages : List Page) : (w.flrShare n pages).dev.flrBusy.contains n = true := by
  rw [Work.flrShare]
  exact setFlrBusy_contains _ n

theorem resetCopies_admissions (w : Work) (p : Page) (n : Nat) (ids : List RegId) :
    (w.resetCopies p n ids).dev.admissions = w.dev.admissions :=
  Work.each_keeps (·.dev.admissions) (f := fun id w => w.setReg p id (resetOf w.variant id n p.block) n) (fun _ _ => rfl) ids w

theorem writeCntHi_admissions (w : Work) (p : Page) (i : Nat) (v : Word) : (w.writeCntHi p i v).dev.admissions = w.dev.admissions := by
  rw [Work.writeCntHi]
  split <;> rfl

theorem resetPage_admissions (w : Work) (p : Page) (header : Bool) : (w.resetPage p header).dev.admissions = w.dev.admissions := by
  unfold Work.resetPage
  extract_lets -underBinder v x y
  have hregs : v.dev.admissions = w.dev.admissions := by
    refine Work.each_keeps (·.dev.admissions) (fun r u => ?_) _ w
    refine Work.each_keeps (·.dev.admissions) (fun i x => ?_) _ u
    rfl
  cases header with
  | false => exact hregs
  | true =>
    refine Eq.trans ?_ hregs
    exact Work.each_keeps (·.dev.admissions) (fun i u => writeCntHi_admissions u ..) _ y

theorem abandonDeal_admissions (w : Work) (n : Nat) : (w.abandonDeal n).dev.admissions = w.dev.admissions := by
  rw [Work.abandonDeal]
  split <;> rfl

theorem setRf_admissions (w : Work) (p : Page) (id : RegId) (hi lo x i : Nat) :
    (w.setRf p id hi lo x i).dev.admissions = w.dev.admissions := rfl

theorem dropWait_admissions (w : Work) (n : Nat) : ((w.syUnwait n).setSySlot n (fun _ => .idle)).dev.admissions = w.dev.admissions := rfl

/-- What a function's page of per-function state loses. -/
theorem resetOwn_admissions (w : Work) (n : Nat) : (w.resetOwn n).dev.admissions = w.dev.admissions := rfl

theorem resetTables_admissions (w : Work) (n : Nat) : (w.resetTables n).dev.admissions = w.dev.admissions := rfl

theorem setFlrBusy_admissions (w : Work) (n : Nat) :
    (w.upd (fun d => { d with flrBusy := d.flrBusy.filter (· != n) ++ [n] })).dev.admissions = w.dev.admissions := rfl

/-- The reset takes the function's admissions out of those the cancelled graphs leave. -/
theorem flrShare_admissions (w : Work) (n : Nat) (pages : List Page) : (w.flrShare n pages).dev.admissions
    = (w.cancelGraphs (fun g => g.ctx == n) true).dev.admissions.filter (fun a => a.graph.ctx != n) := by
  unfold Work.flrShare
  extract_lets -underBinder w1 w2 w3 w4 w5 w6 w7 w8 w9 w10 w11
  have h2 : w2.dev.admissions = w1.dev.admissions.filter (fun a => a.graph.ctx != n) := rfl
  have h3 : w3.dev.admissions = w2.dev.admissions := rfl
  have h4 : w4.dev.admissions = w3.dev.admissions := (resetCopies_admissions ..).trans (abandonDeal_admissions w3 n)
  have h5 : w5.dev.admissions = w4.dev.admissions := (resetCopies_admissions ..).trans (dropWait_admissions w4 n)
  have h6 : w6.dev.admissions = w5.dev.admissions := resetTables_admissions w5 n
  have h7 : w7.dev.admissions = w6.dev.admissions := resetCopies_admissions w6 pgEb n _
  have h8 : w8.dev.admissions = w7.dev.admissions := resetCopies_admissions w7 pgSk n _
  have h9 : w9.dev.admissions = w8.dev.admissions := whenB_keeps (g := fun w => w.dev.admissions) 
    (fun w => (setRf_admissions ..).trans (resetCopies_admissions w pgPx n _)) w8
  have h10 : w10.dev.admissions = w9.dev.admissions := Work.each_keeps (·.dev.admissions) (fun p w => resetPage_admissions w p _) pages w9
  have h11 : w11.dev.admissions = w10.dev.admissions := resetOwn_admissions w10 n
  rw [setFlrBusy_admissions, h11, h10, h9, h8, h7, h6, h5, h4, h3, h2]

theorem flrShare_leaves_none (w : Work) (n : Nat) (pages : List Page) :
    (w.flrShare n pages).dev.admissions.any (fun a => a.graph.ctx == n) = false := by
  rw [flrShare_admissions, List.any_eq_false]
  intro a ha
  simpa using (List.mem_filter.mp ha).2

theorem flrComplete_drained {w : Work} {fn : Nat} (h : w.dev.flrDrained fn = true) : flrCompleteWork fn w
    = w.upd (fun d => { d with flrBusy := d.flrBusy.filter (· != fn) }) := if_pos h

/-- Settles O51: accesses by where their window leads, the link and the resets by their own equations. -/
theorem hostAccessesAndFunctionReset : Obligations.HostAccessesAndFunctionReset := by
  unfold Obligations.HostAccessesAndFunctionReset
  intro s
  refine ⟨fun off len hin hup => ?pfRead, fun off data poisoned hin hup => ?pfWrite, fun fn off len hfn hin hup => ?fnRead,
    fun fn off data poisoned hfn hin hup => ?fnWrite, fun fn addr len h => runs_of_work rfl (atsInvalidate_idle h),
    fun fn on h => runsTo_of_runs (runs_of_work rfl (atsEnable_answers on h)) rfl,
    fun on h => ⟨fun hmode => runsTo_of_runs (runs_of_work rfl (vfEnable_stores h hmode)) rfl,
      fun hon hmode => runsTo_of_runs (runs_of_work rfl (vfEnable_refused hon hmode)) rfl⟩,
    fun rate width flitMode hpower hperst hok => runs_of_work rfl (if_pos ⟨hpower, hperst, hok⟩),
    fun h => runs_of_work rfl (pcieLinkDown_up h), fun r c addr t hres ht => runs_of_work rfl (hostCompletionTimeout_fails hres ht),
    fun fn hlo hhi hup => ⟨runs_of_work rfl (if_pos ⟨hlo, hhi, hup⟩), flrShare_busy .., flrShare_leaves_none ..⟩,
    fun hup => runs_of_work rfl (if_pos hup), fun fn hdrained => runsTo_of_runs (runs_of_work rfl (flrComplete_drained hdrained)) rfl⟩
  case pfRead =>
    intro a
    refine ⟨fun hbacked => ?_, fun hlost => apertureRead_runs hin (apertureRead_missed hup (aperture_pf_unbacked false hlost))⟩
    exact apertureRead_runs hin (apertureRead_pieces hup (aperture_pf_backed false hbacked) rfl)
  case pfWrite =>
    intro w a
    refine ⟨fun hbacked => ?_, fun hlost => apertureWrite_runs hin (apertureWrite_missed hup rfl (aperture_pf_unbacked true hlost))⟩
    refine apertureWrite_runs hin ((apertureWrite_pieces hup rfl (aperture_pf_backed true hbacked)).trans ?_)
    simp only [List.foldl_cons, List.foldl_nil, List.drop_zero, List.take_length]
    rfl
  case fnRead =>
    intro va x missed
    refine ⟨fun ps hps => ?_, fun l a hx ha hhost => ?_, fun e hx => ?_⟩
    · obtain ⟨l, hl, hmap⟩ := range_pieces hps
      exact apertureRead_runs hin (apertureRead_pieces hup (aperture_fn_pieces hfn hl hmap) rfl)
    · exact apertureRead_runs hin (apertureRead_missed hup (aperture_fn_host hfn (Prod.ext hx rfl) ha hhost))
    · exact apertureRead_runs hin (apertureRead_missed hup (aperture_fn_error hfn (Prod.ext hx rfl)))
  case fnWrite =>
    intro w va x
    refine ⟨fun ps hps => ?_, fun l a hx ha hhost => ?_, fun e hx => ?_⟩
    · obtain ⟨l, hl, hmap⟩ := range_pieces hps
      exact apertureWrite_runs hin (apertureWrite_pieces hup rfl (aperture_fn_pieces hfn hl hmap))
    · exact apertureWrite_runs hin (apertureWrite_missed hup rfl (aperture_fn_host hfn (Prod.ext hx rfl) ha hhost))
    · exact apertureWrite_runs hin (apertureWrite_missed hup rfl (aperture_fn_error hfn (Prod.ext hx rfl)))

end Sys2Proof
end

section
/-! SUPPORT. The management endpoint (R419, R420, R454 to R456). -/

namespace Sys2Proof

open Machine

/-- A command that only lets a message out. -/
theorem runsTo_say {c : Instr} {s : State} {f : Work → Work} {w : Work} {m : Sent} (hexec : exec c s = s.run f) (h : f s.work = w.say m)
    (hout : w.out = []) : RunsTo c s { w.dev with sent := w.dev.sent ++ [m] } :=
  runsTo_of_runs (runs_of_work hexec h) hout

/-! ### MCTP control and the commands (R420) -/

/-- A read of a register writes no memory. -/
theorem readReg_out (w : Work) (off : Nat) (who : Agent) : (w.readReg off who).2.out = w.out := by
  unfold Work.readReg
  extract_lets -underBinder v u
  have hu : u.out = w.out := by
    cases who with
    | fn n => exact Work.count_out ..
    | core n t => rfl
  split
  · exact hu
  · split
    · exact hu
    · split
      · exact hu
      · split <;> exact hu

section Mctp

variable {w v : Work} {src command : Nat} {body : List Byte}

theorem mctpControl_answers {r : List Byte} (hup : w.mgmtUp = true) (h : w.mctpControl command body = (r, v)) :
    mctpControlWork src command body w = v.say (.mgmt src 0 r) := by
  simp only [mctpControlWork, if_pos hup, h]

theorem mctpControl_set (hlo : 8 ≤ byteAt body 1) (hhi : byteAt body 1 ≤ 254) : w.mctpControl 1 body
    = (([0, 1, 0] ++ [0, byteAt body 1, 0]).map (BitVec.ofNat 8), w.upd (fun d => { d with eid := byteAt body 1 })) :=
  if_pos ⟨hlo, hhi⟩

theorem mctpControl_refused (h : byteAt body 1 < 8 ∨ 254 < byteAt body 1) : w.mctpControl 1 body
    = (([0, 1, 2] ++ []).map (BitVec.ofNat 8), w) :=
  if_neg (by omega)

theorem mctpControl_endpoint : w.mctpControl 2 body = (([0, 2, 0] ++ [w.dev.eid, 0, 0]).map (BitVec.ofNat 8), w) := rfl

theorem mctpControl_version : w.mctpControl 4 body = (([0, 4, 0] ++ [1, 0xF1, 0xF3, 0xF1, 0]).map (BitVec.ofNat 8), w) := rfl

theorem mctpControl_types : w.mctpControl 5 body = (([0, 5, 0] ++ [3, 0, 5, 0x7E]).map (BitVec.ofNat 8), w) := rfl

theorem mctpControl_other (h : command ∉ [1, 2, 4, 5]) : w.mctpControl command body
    = (([0, command, 5] ++ []).map (BitVec.ofNat 8), w) := by
  simp only [List.mem_cons, List.not_mem_nil, or_false, not_or] at h
  obtain ⟨h1, h2, h4, h5⟩ := h
  rw [Work.mctpControl]
  all_goals assumption

theorem mctpOtherType_answers {type : Nat} (hup : w.mgmtUp = true) (h : type ∉ [0, 5, 0x7E]) : mctpOtherTypeWork src type w
    = w.say (.mgmt src type (typeError type)) := by
  have hother : mctpTypes.contains type = false := by
    rw [List.contains_eq_mem]
    exact decide_eq_false h
  rw [mctpOtherTypeWork, hup, hother]
  rfl

theorem fenhorn_answers {a b : Nat} {r : List Byte} (hup : w.mgmtUp = true) (h : w.fenhorn command a b = (some r, v)) :
    fenhornWork src command a b w = v.say (.mgmt src 0x7E (BitVec.ofNat 8 command :: r)) := by
  simp only [fenhornWork, if_pos hup, h]

theorem fenhorn_health {a b : Nat} : w.fenhorn 1 a b = (some w.health, w) := rfl

theorem fenhorn_journal {a b : Nat} : w.fenhorn 3 a b = (some (w.journalBytes a b), w) := rfl

theorem fenhorn_errors {a b : Nat} : w.fenhorn 4 a b = (some (w.errorBytes a), w) := rfl

theorem fenhorn_readReg {a b : Nat} {x : Word × Work} (h : w.readReg (a / 4 * 4) (.fn 0) = x) : w.fenhorn 2 a b
    = (some (leBytes 4 x.1.toNat), x.2) := by
  subst h
  rfl

end Mctp

/-! ### SPDM (R454 to R456) -/

section Spdm

variable {w v : Work}

/-- The answer of a request leaves with its parameters before its body. -/
theorem spdm_answers {r : SpdmReq} {a : SpdmAns} {head : List Byte} (hup : w.mgmtUp = true) (h : w.spdm r = (a, v))
    (hhead : leBytes 1 a.p1 ++ leBytes 1 a.p2 = head) : spdmWork r w = v.say (.spdm a.code (head ++ a.body) a.sig) := by
  subst hhead
  simp only [spdmWork, if_pos hup, h]

theorem spdm_certificate {c part : List Byte} {off len : Nat} (hc : w.chain = c) (hoff : off ≤ c.length)
    (hpart : (c.drop off).take len = part) : w.spdm (.certificate 0 off len)
      = (⟨0x02, 0, 0, leBytes 2 part.length ++ leBytes 2 (c.length - off - part.length) ++ part, []⟩, w) := by
  subst hc hpart
  rw [Work.spdm, if_neg (by omega)]

theorem spdm_certificate_refused {slot off len : Nat} (h : slot ≠ 0 ∨ w.chain.length < off) : w.spdm (.certificate slot off len)
    = (spdmError 1, w) := by
  rw [Work.spdm, if_pos h]

/-- The count of nonces enters no measurement. -/
theorem measurement_draw (w : Work) (k : Nat) : (w.upd (fun d => { d with free := d.free + 1 })).measurement k = w.measurement k := by
  unfold Work.measurement
  rfl

theorem aliasSalt_draw (w : Work) : (w.upd (fun d => { d with free := d.free + 1 })).aliasSalt = w.aliasSalt := by
  rw [Work.aliasSalt, Work.aliasSalt, funext (measurement_draw w)]

theorem chain_draw (w : Work) : (w.upd (fun d => { d with free := d.free + 1 })).chain = w.chain := by
  rw [Work.chain, Work.chain, Work.aliasCertificate, Work.aliasCertificate, aliasSalt_draw]

theorem spdmSign_draw (w : Work) (a : SpdmAns) : (w.upd (fun d => { d with free := d.free + 1 })).spdmSign a = w.spdmSign a := by
  rw [Work.spdmSign, Work.spdmSign, aliasSalt_draw]

theorem spdm_challenge (nonce : List Byte) : w.spdm (.challenge 0 nonce)
    = (w.spdmSign ⟨0x03, 0, 1, Config.sha384 w.chain ++ Config.nonce w.dev.free ++ nonce, []⟩,
      w.upd (fun d => { d with free := d.free + 1 })) := by
  rw [Work.spdm, if_neg (by omega), Work.nonce]
  refine Prod.ext ?_ rfl
  exact (spdmSign_draw w _).trans (by rw [chain_draw])

theorem spdm_challenge_refused {slot : Nat} (nonce : List Byte) (h : slot ≠ 0) : w.spdm (.challenge slot nonce) = (spdmError 1, w) := by
  rw [Work.spdm, if_pos h]

variable {index : Nat} {nonce : List Byte}

theorem spdm_count (h : index = 0) : w.spdm (.measurements index false nonce) = (⟨0x60, 10, 0, [], []⟩, w) := by
  rw [Work.spdm, if_pos ⟨h, rfl⟩]

theorem spdm_unmeasured {signed : Bool} (h : index ≠ 0) (hnone : measured index = []) : w.spdm (.measurements index signed nonce)
    = (spdmError 1, w) := by
  rw [Work.spdm, if_neg (fun hc => h hc.1), if_pos ⟨h, hnone⟩]

/-- The measurements an answer holds. -/
def measurementBody (w : Work) (index : Nat) : List Byte :=
  leBytes 1 (measured index).length ++ (measured index).flatMap (fun k => leBytes 1 k ++ w.measurement k)

theorem spdm_unsigned (h : index ≠ 0) (hsome : measured index ≠ []) : w.spdm (.measurements index false nonce)
    = (⟨0x60, 10, 0, measurementBody w index, []⟩, w) := by
  rw [Work.spdm, if_neg (fun hc => h hc.1), if_neg (fun hc => hsome hc.2)]
  rfl

theorem spdm_signed (h : index = 0 ∨ measured index ≠ []) : w.spdm (.measurements index true nonce)
    = (w.spdmSign ⟨0x60, 10, 0, measurementBody w index ++ Config.nonce w.dev.free ++ nonce, []⟩,
      w.upd (fun d => { d with free := d.free + 1 })) := by
  rw [Work.spdm, if_neg (fun hc => Bool.true_eq_false.mp hc.2), if_neg (fun hc => h.elim hc.1 (fun hs => hs hc.2)), if_pos rfl]
  refine Prod.ext ?_ rfl
  exact spdmSign_draw w _

end Spdm

/-- A request whose answer changes nothing and is not signed. -/
theorem plain_request {s : State} {i : Instr} {r : SpdmReq} {a : SpdmAns} (hup : s.work.mgmtUp = true)
    (hexec : exec i s = s.run (spdmWork r)) (h : s.work.spdm r = (a, s.work)) (hsig : a.sig = [])
    (hcode : a.code = 0x7F ↔ r = .keyExchange) : ∃ a : SpdmAns, (s.work.spdm r).1 = a ∧ (a.code = 0x7F ↔ r = .keyExchange) ∧ a.sig = [] ∧
      RunsTo i s { s.dev with sent := s.dev.sent ++ [.spdm a.code (leBytes 1 a.p1 ++ leBytes 1 a.p2 ++ a.body) []] } := by
  have hsay := runsTo_say hexec (spdm_answers hup h rfl) rfl
  rw [hsig] at hsay
  exact ⟨a, congrArg Prod.fst h, hcode, hsig, hsay⟩

/-- Settles O52: every request's answer, and the message that carries it. -/
theorem managementAnswers : Obligations.ManagementAnswers := by
  unfold Obligations.ManagementAnswers
  intro s hup
  refine ⟨fun src command body => ?control, fun src type h => runsTo_say rfl (mctpOtherType_answers hup h) rfl, fun src => ?fenhorn, ?plain,
    fun hashes sigs => runsTo_say rfl (spdm_answers (r := .algorithms hashes sigs) hup rfl rfl) rfl,
    fun slot off len => ?certificate, fun slot nonce => ?challenge,
    fun index signed nonce => ?measurements⟩
  case control =>
    intro ans
    refine ⟨?_, ?_, ?_, ?_, ?_, fun h => runsTo_say rfl (mctpControl_answers hup (mctpControl_other h)) rfl⟩
    · rintro rfl hlo hhi
      exact runsTo_say rfl (mctpControl_answers hup (mctpControl_set hlo hhi)) rfl
    · rintro rfl h
      exact runsTo_say rfl (mctpControl_answers hup (mctpControl_refused h)) rfl
    · rintro rfl
      exact runsTo_say rfl (mctpControl_answers hup mctpControl_endpoint) rfl
    · rintro rfl
      exact runsTo_say rfl (mctpControl_answers hup mctpControl_version) rfl
    · rintro rfl
      exact runsTo_say rfl (mctpControl_answers hup mctpControl_types) rfl
  case fenhorn =>
    refine ⟨runsTo_say rfl (fenhorn_answers hup fenhorn_health) rfl, fun off => ?_,
      fun age count => runsTo_say rfl (fenhorn_answers hup fenhorn_journal) rfl,
      fun count => runsTo_say rfl (fenhorn_answers hup fenhorn_errors) rfl⟩
    intro x
    exact runsTo_say rfl (fenhorn_answers hup (fenhorn_readReg rfl)) (readReg_out ..)
  case plain =>
    intro i r hir
    simp only [List.mem_cons, List.not_mem_nil, or_false, Prod.mk.injEq] at hir
    rcases hir with ⟨rfl, rfl⟩ | ⟨rfl, rfl⟩ | ⟨rfl, rfl⟩ | ⟨rfl, rfl⟩
    · exact plain_request hup rfl rfl rfl (by decide)
    · exact plain_request hup rfl rfl rfl (by decide)
    · exact plain_request hup rfl rfl rfl ⟨nofun, nofun⟩
    · exact plain_request hup rfl rfl rfl (by decide)
  case certificate =>
    refine ⟨?_, fun h => runsTo_say rfl (spdm_answers hup (spdm_certificate_refused h) rfl) rfl⟩
    rintro rfl hoff part
    exact runsTo_say rfl (spdm_answers hup (spdm_certificate rfl hoff rfl) rfl) rfl
  case challenge =>
    refine ⟨?_, fun h => runsTo_say rfl (spdm_answers hup (spdm_challenge_refused nonce h) rfl) rfl⟩
    rintro rfl a
    exact runsTo_say rfl (spdm_answers hup (spdm_challenge nonce) rfl) rfl
  case measurements =>
    intro body
    refine ⟨?_, ?_, fun h hnone => runsTo_say rfl (spdm_answers hup (spdm_unmeasured h hnone) rfl) rfl, ?_⟩
    · rintro h hsome rfl
      exact runsTo_say rfl (spdm_answers hup (spdm_unsigned h hsome) rfl) rfl
    · rintro h rfl
      exact runsTo_say rfl (spdm_answers hup (spdm_count h) rfl) rfl
    · rintro h rfl a
      exact runsTo_say rfl (spdm_answers hup (spdm_signed h) rfl) rfl

end Sys2Proof
end

section
/-! SUPPORT. The control cores: the scheduler port, delays, interrupts and faults (R425 to R429, R433). -/

namespace Sys2Proof

open Machine

/-! ### The scheduler port (R427, R428) -/

/-- Setting a priority leaves the thread's state. -/
theorem setPrio_state (c : Core) (t p : Nat) : ((c.setThread t (fun x => { x with prio := p })).thread t).state = (c.thread t).state :=
  getD_updAt_keeps Thread.state (f := fun x => { x with prio := p }) (fun _ => rfl) t t c.threads .none

section Port

variable {w v : Work} {n : Nat} {c : Core} (hn : n < 8) (hv : w.settle = v) (hc : v.core n = c)
include hn hv hc

/-- An operation of the port works on the settled core; a refused one answers its status alone. -/
theorem schedOp_eq (f : Core → Option Core) : w.schedOp n f = (match f c with
    | some x => (v.setCore n x).portDone n true
    | none => v.portDone n false) := by
  subst hv hc
  rw [Work.schedOp, if_pos hn] <;> rfl

theorem schedOp_done {f : Core → Option Core} {x : Core} (h : f c = some x) : w.schedOp n f = (v.setCore n x).say (.status n true) := by
  rw [schedOp_eq hn hv hc, h]
  rfl

theorem schedOp_refused {f : Core → Option Core} (h : f c = none) : w.schedOp n f = v.say (.status n false) := by
  rw [schedOp_eq hn hv hc, h]
  rfl

variable {t : Nat}

theorem schedReady_waiting (h : (c.thread t).state = .blocked ∨ (c.thread t).state = .delayed) : schedReadyWork n t w
    = (v.setCore n (c.makeReady t)).say (.status n true) := by
  refine schedOp_done hn hv hc ?_
  rcases h with h | h <;> rw [h]

theorem schedReady_refused (h : (c.thread t).state = .empty ∨ (c.thread t).state = .ready) : schedReadyWork n t w
    = v.say (.status n false) := by
  refine schedOp_refused hn hv hc ?_
  rcases h with h | h <;> rw [h]

theorem schedSetprio_idle {p : Nat} (hp : p ≤ 31) (h : (c.thread t).state ≠ .ready) : schedSetprioWork n t p w
    = (v.setCore n (c.setThread t (fun x => { x with prio := p }))).say (.status n true) := by
  refine schedOp_done hn hv hc ?_
  rw [if_neg (Nat.not_lt.mpr hp)]
  exact congrArg some (if_neg (by rw [setPrio_state]; exact h))

theorem schedSetprio_ready {p : Nat} (hp : p ≤ 31) (h : (c.thread t).state = .ready) : schedSetprioWork n t p w
    = (v.setCore n { c.setThread t (fun x => { x with prio := p }) with
        ready := (c.setThread t (fun x => { x with prio := p })).ready.filter (· != t) ++ [t] }).say (.status n true) := by
  refine schedOp_done hn hv hc ?_
  rw [if_neg (Nat.not_lt.mpr hp)]
  exact congrArg some (if_pos (by rw [setPrio_state]; exact h))

theorem schedSetprio_refused {p : Nat} (hp : 31 < p) : schedSetprioWork n t p w = v.say (.status n false) :=
  schedOp_refused hn hv hc (if_pos hp)

theorem schedBind_done (src : Nat) (h : (c.thread t).state ≠ .empty) : schedBindWork n src t w
    = (v.setCore n { c with binds := updAt (fun _ => some t) src c.binds }).say (.status n true) :=
  schedOp_done hn hv hc (if_neg h)

theorem schedBind_refused (src : Nat) (h : (c.thread t).state = .empty) : schedBindWork n src t w = v.say (.status n false) :=
  schedOp_refused hn hv hc (if_pos h)

theorem schedCancel_delayed {x : Core × Bool} (hx : c.blockNow t = x) (h : (c.thread t).state = .delayed) : schedCancelWork n t w
    = ((v.setCore n x.1).whenB x.2 (fun w => w.count ⟨.cc, n⟩ 2)).say (.status n true) := by
  subst hx
  simp only [schedCancelWork, if_pos hn, hv, hc, if_pos h]
  rfl

theorem schedCancel_refused (h : (c.thread t).state ≠ .delayed) : schedCancelWork n t w = v.say (.status n false) := by
  simp only [schedCancelWork, if_pos hn, hv, hc, if_neg h]
  rfl

variable (hrun : c.running = some t)
include hrun

theorem callerOp_running (f : Nat → Work → Work) : w.callerOp n f = (f t v).settle := by
  simp only [Work.callerOp, if_pos hn, hv, hc, hrun]

theorem schedBlock_running {x : Core × Bool} (hx : c.blockNow t = x) : schedBlockWork n w
    = (((v.setCore n x.1).whenB x.2 (fun w => w.count ⟨.cc, n⟩ 2)).say (.status n true)).settle := by
  subst hx
  rw [schedBlockWork, callerOp_running hn hv hc hrun, hc]
  rfl

theorem schedYield_running : schedYieldWork n w
    = ((v.setCore n { c with ready := c.ready.filter (· != t) ++ [t] }).say (.status n true)).settle := by
  rw [schedYieldWork, callerOp_running hn hv hc hrun, hc]
  rfl

theorem schedDelay_running {k : Nat} (hlo : 1 ≤ k) (hhi : k ≤ 1048575) : schedDelayWork n k w
    = ((v.setCore n { c.unready t .delayed with
        delays := insertDelay t (v.dev.crier.tickNo + k) (c.unready t .delayed).delays }).say (.status n true)).settle := by
  rw [schedDelayWork, if_neg (by omega), callerOp_running hn hv hc hrun, hc]
  rfl

end Port

theorem schedDelay_refused {w : Work} {n k : Nat} (hn : n < 8) (hk : k = 0 ∨ 1048575 < k) : schedDelayWork n k w
    = w.say (.status n false) := by
  rw [schedDelayWork, if_pos hk, if_pos hn]
  rfl

/-! ### Interrupts (R429) -/

section Interrupt

variable {w : Work} {n src : Nat} {c : Core} (hc : w.core n = c)
include hc

theorem coreInt_woke {x : Core} (h : c.interrupt src = (x, .woke)) : w.coreInt n src = (w.setCore n x).count ⟨.cc, n⟩ 2 := by
  simp only [Work.coreInt, hc, h]

theorem coreInt_lost {x : Core} (h : c.interrupt src = (x, .lost)) : w.coreInt n src = (w.setCore n x).count ⟨.cc, n⟩ 3 := by
  simp only [Work.coreInt, hc, h]

theorem coreInt_pended {x : Core} (h : c.interrupt src = (x, .pended)) : w.coreInt n src = w.setCore n x := by
  simp only [Work.coreInt, hc, h]

theorem coreInt_blocked {t : Nat} (hbind : c.binds.getD src none = some t) (hstate : (c.thread t).state = .blocked) :
    w.coreInt n src = (w.setCore n (c.makeReady t)).count ⟨.cc, n⟩ 2 :=
  coreInt_woke hc (by rw [Core.interrupt, hbind]; dsimp only; rw [hstate])

theorem coreInt_pends {t : Nat} (hbind : c.binds.getD src none = some t)
    (hstate : (c.thread t).state = .ready ∨ (c.thread t).state = .delayed) (hnone : c.pends.contains t = false) :
    w.coreInt n src = w.setCore n { c with pends := c.pends ++ [t] } := by
  refine coreInt_pended hc ?_
  have hfree : ¬ c.pendingFor t = true := ne_true_of_eq_false hnone
  rw [Core.interrupt, hbind]
  dsimp only
  rcases hstate with hstate | hstate
  · rw [hstate]
    exact if_neg hfree
  · rw [hstate]
    exact if_neg hfree

theorem coreInt_unbound (hbind : c.binds.getD src none = none) : w.coreInt n src = (w.setCore n c).count ⟨.cc, n⟩ 3 :=
  coreInt_lost hc (by rw [Core.interrupt, hbind])

end Interrupt

theorem writeEffect_mailbox (w : Work) (who : Agent) (n : Nat) (v : Word) (fe : Bool) :
    w.writeEffect ⟨.cc, n⟩ (regOf ⟨.cc, n⟩ .ccMailbox) 0 who v fe = .ok ((w.storeRw ⟨.cc, n⟩ (regOf ⟨.cc, n⟩ .ccMailbox) 0 v).coreInt n 3) := rfl

/-! ### A thread that faults (R432, R433) -/

theorem threadFault_held {w : Work} {n slot addr : Nat} (h : ((w.core n).thread slot).state ≠ .empty) : threadFaultWork n slot addr w
    = (let v := w.setCore n ((w.core n).unready slot .blocked)
      let deal : Bool := (v.deal_ (32 + n)).state == .opened && (v.deal_ (32 + n)).thread == slot
      let wait : Bool := (v.sySlot (32 + n)).waiting && (v.sySlot (32 + n)).thread == slot
      let x := if deal then v.abandonDeal (32 + n) else v
      let y := if wait then x.syUnwait (32 + n) else x
      y.raise ⟨.cc, n⟩ .ccFault ⟨1, none, slot, 0xFFFFFFFF, leBytes 6 addr ++ leBytes 1 (b2n deal + 2 * b2n wait)⟩) := by
  unfold threadFaultWork
  exact if_neg h

/-- Settles O53: operations of the port on the settled core, and interrupts by what they find bound. -/
theorem coresScheduleThreads : Obligations.CoresScheduleThreads := by
  unfold Obligations.CoresScheduleThreads
  intro s n hn w c
  refine ⟨fun t => ⟨fun h => ?_, fun h => ?_, fun h => ?_, fun h => ?_, fun p hp h => ?_, fun p hp h => ?_, fun p hp => ?_, fun src h => ?_,
    fun src h => ?_, fun hrun => ⟨?_, ?_, fun k hlo hhi => ?_⟩⟩, fun k hk => runs_of_work rfl (schedDelay_refused hn hk), ?expire,
    fun src => ?interrupt, fun who value hacc => ?mailbox, fun slot addr h => runs_of_work rfl (threadFault_held h)⟩
  case expire => exact runs_of_work rfl (if_pos hn)
  case interrupt =>
    have hrun : coreInterruptWork n src s.work = s.work.coreInt n src := if_pos hn
    refine ⟨fun t hbind hstate => ?_, fun t hbind hstate hnone => ?_, fun hbind => ?_⟩
    · exact runs_of_work rfl (hrun.trans (coreInt_blocked rfl hbind hstate))
    · exact runs_of_work rfl (hrun.trans (coreInt_pends rfl hbind hstate hnone))
    · exact runs_of_work rfl (hrun.trans (coreInt_unbound rfl hbind))
  case mailbox => exact runs_poke (c := .ccMailbox who n value) rfl hacc (writeEffect_mailbox ..)
  · exact runs_of_work rfl (schedReady_waiting hn rfl rfl h)
  · exact runs_of_work rfl (schedReady_refused hn rfl rfl h)
  · exact runs_of_work rfl (schedCancel_delayed hn rfl rfl rfl h)
  · exact runs_of_work rfl (schedCancel_refused hn rfl rfl h)
  · exact runs_of_work rfl (schedSetprio_idle hn rfl rfl hp h)
  · exact runs_of_work rfl (schedSetprio_ready hn rfl rfl hp h)
  · exact runs_of_work rfl (schedSetprio_refused hn rfl rfl hp)
  · exact runs_of_work rfl (schedBind_done hn rfl rfl src h)
  · exact runs_of_work rfl (schedBind_refused hn rfl rfl src h)
  · exact runs_of_work rfl (schedBlock_running hn rfl rfl hrun rfl)
  · exact runs_of_work rfl (schedYield_running hn rfl rfl hrun)
  · exact runs_of_work rfl (schedDelay_running (v := w) (c := c) hn rfl rfl hrun hlo hhi)

end Sys2Proof
end

section
/-! SUPPORT. Power states: MOD_EN, MOD_PG, PERST_N, VIN and trips (R460 to R462, R466). -/

namespace Sys2Proof

open Machine

/-! ### OFF (R461, R462) -/

/-- The module as it is OFF, before MOD_PG deasserts. -/
def offState (w : Work) : Work :=
  w.loseDies.upd (fun _ => { Dev.reset w.loseDies.variant with
    beat := w.dev.beat, free := w.dev.free, nextId := w.dev.nextId, sent := w.dev.sent, dimms := w.dev.dimms, broken := w.dev.broken,
    boot := { (Dev.reset w.loseDies.variant).boot with
      startNo := w.dev.boot.startNo, journal := w.dev.boot.journal, flash := w.dev.boot.flash, active := w.dev.boot.active,
      floors := w.dev.boot.floors, keyFloor := w.dev.boot.keyFloor },
    power := { (Dev.reset w.loseDies.variant).power with
      state := .off, modEn := w.dev.power.modEn, modPg := false, perst := w.dev.power.perst } })

theorem goOff_eq (w : Work) : w.goOff = (offState w).whenB w.dev.power.modPg (fun w => w.say (.pin 0 false)) := rfl

/-- What does not speak of the messages sent is that of the module OFF. -/
theorem goOff_reads {α : Type} (g : Work → α) (h : ∀ w m, g (w.say m) = g w) (w : Work) : g w.goOff = g (offState w) := by
  rw [goOff_eq]
  exact whenB_keeps (fun w => h w _) _

/-! ### MOD_EN, MOD_PG and PERST_N (R460, R461) -/

theorem modEnAssert_low {w : Work} (h : w.dev.power.modEn = false) : modEnAssertWork w
    = w.power (fun p => { p with modEn := true, enAt := w.dev.beat }) := by
  rw [modEnAssertWork, if_neg (by simp [h])]

theorem lowpowerEntry_off {w : Work} (hstate : w.dev.power.state = .off) (hen : w.dev.power.modEn = true) : lowpowerEntryWork w
    = (let v := w.passTo (w.dev.power.enAt + 5000000)
      v.power (fun p => { p with state := .low, lowAt := v.dev.beat })) := by
  rw [lowpowerEntryWork, if_pos ⟨hstate, hen⟩]

theorem modPg_low {w : Work} (hstate : w.dev.power.state = .low) (hpg : w.dev.power.modPg = false) : modPgWork w
    = (((w.passTo (w.dev.power.lowAt + 7500000)).power (fun p => { p with modPg := true })).say (.pin 0 true)).beginStart := by
  rw [modPgWork, if_pos ⟨hstate, hpg⟩]

theorem perstAssert_low {w : Work} (h : w.dev.power.perst = false) : perstAssertWork w
    = ((w.power (fun p => { p with perst := true })).setReg pgPx .pxLink 0).boot (fun b => { b with
        mode := .booting, running := [], held := true, begun := false }) := by
  rw [perstAssertWork, if_neg (by simp [h])]

section Deassert

variable {w v : Work} (h : w.dev.power.perst = true) (hv : w.power (fun p => { p with perst := false }) = v)
include h hv

theorem perstDeassert_eq : perstDeassertWork w = (if v.dev.boot.held then
    if v.dev.boot.begun then Work.runSteps 20 [1] ((v.pass 1).boot (fun b => { b with held := false, begun := false }))
    else (v.pass 1).beginStart
  else v) := by
  subst hv
  rw [perstDeassertWork, if_pos h]

theorem perstDeassert_begun (hheld : v.dev.boot.held = true) (hbegun : v.dev.boot.begun = true) : perstDeassertWork w
    = Work.runSteps 20 [1] ((v.pass 1).boot (fun b => { b with held := false, begun := false })) := by
  rw [perstDeassert_eq h hv, if_pos hheld, if_pos hbegun]

theorem perstDeassert_new (hheld : v.dev.boot.held = true) (hbegun : v.dev.boot.begun = false) : perstDeassertWork w
    = (v.pass 1).beginStart := by
  rw [perstDeassert_eq h hv, if_pos hheld, if_neg (ne_true_of_eq_false hbegun)]

theorem perstDeassert_free (hheld : v.dev.boot.held = false) : perstDeassertWork w = v := by
  rw [perstDeassert_eq h hv, if_neg (ne_true_of_eq_false hheld)]

end Deassert

/-! ### VIN and trips (R462, R466) -/

theorem vinHigh_above {w : Work} {vin : Nat} (h : 7000 < vin) : vinHighWork vin w = (w.setRf pgPm .pmVin 31 16 vin).trip 6 0 := by
  rw [vinHighWork, decide_eq_true h, Work.whenB_true]

theorem vinHigh_within {w : Work} {vin : Nat} (h : vin ≤ 7000) : vinHighWork vin w = w.setRf pgPm .pmVin 31 16 vin := by
  rw [vinHighWork, decide_eq_false (Nat.not_lt.mpr h), Work.whenB_false]

theorem vinLow_below {w : Work} {vin : Nat} (hlo : 4800 ≤ vin) (hhi : vin < 5600) : vinLowWork vin w
    = (w.setRf pgPm .pmVin 31 16 vin).trip 7 0 := by
  rw [vinLowWork, decide_eq_true hlo, decide_eq_true hhi, Bool.and_true, Work.whenB_true]

theorem vinLow_within {w : Work} {vin : Nat} (h : vin < 4800 ∨ 5600 ≤ vin) : vinLowWork vin w = w.setRf pgPm .pmVin 31 16 vin := by
  have hout : (decide (4800 ≤ vin) && decide (vin < 5600)) = false := by
    rw [Bool.and_eq_false_iff, decide_eq_false_iff_not, decide_eq_false_iff_not]
    omega
  rw [vinLowWork, hout, Work.whenB_false]

theorem trip_full {w : Work} {cause unit : Nat} (h : w.dev.power.state = .full) : w.trip cause unit
    = ((((w.power (fun p => { p with state := .low })).setRf pgPm .pmStat 31 31 1).setReg pgPm .pmTrip
        (atBit 1 31 ||| atBit (unit % 16) 8 ||| atBit cause 0)).loseDies).raise pgPm .trip ⟨3, none, codeNone, codeNone, []⟩ := by
  rw [Work.trip, if_pos h]

/-- Settles O56: each pin's and each reading's equation; OFF is read off the state that it sets. -/
theorem powerStatesChange : Obligations.PowerStatesChange := by
  unfold Obligations.PowerStatesChange
  intro s
  refine ⟨fun h => runsTo_of_runs (runs_of_work rfl (modEnAssert_low h)) rfl,
    fun hstate hen => runs_of_work rfl (lowpowerEntry_off hstate hen), fun hstate hpg => runs_of_work rfl (modPg_low hstate hpg),
    runs_of_work rfl rfl, runs_of_work rfl rfl, fun w => ?off, fun h => runs_of_work rfl (perstAssert_low h), fun h => ?deassert,
    fun vin => ⟨fun h => runs_of_work rfl (vinHigh_above h), fun h => runs_of_work rfl (vinHigh_within h),
      fun hlo hhi => runs_of_work rfl (vinLow_below hlo hhi), fun h => runs_of_work rfl (vinLow_within h)⟩,
    fun w cause unit => ⟨fun h => if_neg h, fun h => trip_full h⟩⟩
  case off =>
    exact ⟨goOff_reads (·.dev.power.state) (fun _ _ => rfl) w, goOff_reads (·.dev.power.modPg) (fun _ _ => rfl) w,
      goOff_reads (·.dev.boot.flash) (fun _ _ => rfl) w, goOff_reads (·.dev.boot.journal) (fun _ _ => rfl) w,
      goOff_reads (·.dev.graphs) (fun _ _ => rfl) w, goOff_reads (·.dev.insts) (fun _ _ => rfl) w, goOff_reads (·.out) (fun _ _ => rfl) w⟩
  case deassert =>
    intro w
    exact ⟨fun hheld hbegun => runs_of_work rfl (perstDeassert_begun h rfl hheld hbegun),
      fun hheld hbegun => runs_of_work rfl (perstDeassert_new h rfl hheld hbegun),
      fun hheld => runs_of_work rfl (perstDeassert_free h rfl hheld)⟩

end Sys2Proof
end

section
/-! SUPPORT. Starts, boot steps, the watchdog, RESTART and RESET_PLAN (R437 to R443, R461). -/

namespace Sys2Proof

open Machine

/-! ### A start (R437, R461) -/

section Start

variable {w : Work} (hstate : w.dev.power.state ≠ .off) (hpg : w.dev.power.modPg = true)
include hstate hpg

theorem beginStart_on : w.beginStart = if w.dev.power.perst then w.startReset.boot (fun b => { b with held := true, begun := true })
    else Work.runSteps 20 [1] w.startReset := by
  have hon : ¬ (w.dev.power.state = .off ∨ w.dev.power.modPg = false) := by
    rintro (h | h)
    · exact hstate h
    · exact Bool.false_ne_true (h.symm.trans hpg)
  rw [Work.beginStart, if_neg hon]
  rfl

theorem beginStart_runs (hperst : w.dev.power.perst = false) : w.beginStart = Work.runSteps 20 [1] w.startReset := by
  rw [beginStart_on hstate hpg, if_neg (ne_true_of_eq_false hperst)]

theorem beginStart_waits (hperst : w.dev.power.perst = true) :
    w.beginStart = w.startReset.boot (fun b => { b with held := true, begun := true }) := by
  rw [beginStart_on hstate hpg, if_pos hperst]

end Start

/-! ### A step ends (R438 to R443) -/

theorem badUnits_untrained {w : Work} {k : Nat} (hm : k ≠ 10) (dd : k ≠ 11) : w.badUnits k = [] := by
  rw [Work.badUnits, if_neg hm, if_neg dd]

theorem stepResult_good {w : Work} {k : Nat} (r : StepEnd) (h : w.badUnits k = []) : w.stepResult k r = r := by
  rw [Work.stepResult, h]

theorem stepResult_bad {w : Work} {k : Nat} (r : StepEnd) (h : w.badUnits k ≠ []) : (w.stepResult k r).pass = false := by
  rw [Work.stepResult]
  split
  next hnone => exact absurd hnone h
  next => rfl

/-- POWER cannot ramp while the flow interlock holds it (R464). -/
theorem bootStepEnd_held {w : Work} {k : Nat} {r : StepEnd} {e : JEntry} (hrun : w.dev.boot.running.find? (fun e => e.step == k) = some e)
    (hk : k = 7) (hflow : w.rb pgPm .pmStat 29 = false) : bootStepEndWork k r w = w := by
  rw [bootStepEndWork, hrun]
  exact if_pos ⟨hk, hflow⟩

/-- The links that LINKS could not train. -/
def linksFailed (w : Work) (mask : Nat) : Work :=
  w.upd (fun d => { d with ports := d.ports.map (fun p =>
    ({ p with links := updAll (fun l => mask / 2 ^ l.num % 2 == 1) (fun l => { l with state := .failed }) p.links } : Port).settled) })

/-- What the entry of an ended step records as its detail. -/
def stepDetail (w : Work) (k : Nat) (e : JEntry) (q : StepEnd) : Nat := match typeOfStep k with
  | some t => ((w.dev.boot.image t (e.method / 128)).map (·.sec)).getD 0
  | none => q.detail % 2 ^ 64

/-- The entry of an ended step is completed, and LINKS fails the links it names. -/
def stepRecorded (w : Work) (k : Nat) (e : JEntry) (q : StepEnd) : Work :=
  let e' := { e with
    result := if q.pass then 1 else 2, code := if q.pass then 0 else q.code % 65536, durUs := q.durUs % 2 ^ 32, detail := stepDetail w k e q }
  let u := w.boot (fun b => { b with
    running := b.running.filter (fun x => x.step != k), journal := updFirst (fun x => x.seq == e.seq) (fun _ => e') b.journal })
  if k = 12 then (linksFailed u q.detail).linksEnd else u

section StepEnds

variable {s w v : Work} {k : Nat} {r q : StepEnd} {e : JEntry}
  (hrun : s.dev.boot.running.find? (fun e => e.step == k) = some e) (hflow : k = 7 → s.rb pgPm .pmStat 29 = true)
  (hw : s.passTo (s.dev.boot.startBeat + (e.tUs + r.durUs) * 250) = w) (hq : w.stepResult k r = q) (hv : stepRecorded w k e q = v)
include hrun hflow hw hq hv

theorem bootStepEnd_ends : bootStepEndWork k r s = (if q.pass then
      let x := (v.passStep k (e.method % 2) (e.method / 128)).boot (fun b => { b with ended := b.ended ++ [k] })
      if k = 14 then x.enterService else Work.runSteps 20 (x.dev.boot.follow k) x
    else if stepRequired k = false then
      let x := v.boot (fun b => { b with carried := b.carried ++ [(k, e.seq)], ended := b.ended ++ [k] })
      Work.runSteps 20 (x.dev.boot.follow k) x
    else
      let y := ((v.boot (fun b => { b with carried := b.carried ++ [(k, e.seq)] })).whenB (k == 10)
        (fun w => w.trained .hm w.variant.stacks (e.method % 2) q.detail q.code)).whenB (k == 11)
        (fun w => w.trained .dd w.variant.channels (e.method % 2) q.detail q.code)
      if e.attempt = 1 then y.attempt k 2 (1 - e.method % 2)
      else y.boot (fun b => { b with mode := .recovery, failStep := k, failCode := q.code % 256, running := [] })) := by
  have hgo : ¬ (k = 7 ∧ s.rb pgPm .pmStat 29 = false) := fun h => Bool.false_ne_true (h.2.symm.trans (hflow h.1))
  have hlinks (u : Work) (mask : Nat) : (u.whenB (k == 12) (fun w => w.upd (fun d => { d with ports := d.ports.map (fun p =>
      ({ p with links := updAll (fun l => mask / 2 ^ l.num % 2 == 1) (fun l => { l with state := .failed }) p.links } : Port).settled) }))).whenB
        (k == 12) Work.linksEnd = if k = 12 then (linksFailed u mask).linksEnd else u := by
    by_cases hk : k = 12
    · rw [if_pos hk, beq_iff_eq.mpr hk]
      rfl
    · rw [if_neg hk, beq_eq_false_iff_ne.mpr hk]
      rfl
  subst hv
  simp only [bootStepEndWork, hrun, if_neg hgo, hw, hq, hlinks]
  rfl

theorem bootStepEnd_passes {x : Work} (hpass : q.pass = true)
    (hx : (v.passStep k (e.method % 2) (e.method / 128)).boot (fun b => { b with ended := b.ended ++ [k] }) = x) :
    bootStepEndWork k r s = if k = 14 then x.enterService else Work.runSteps 20 (x.dev.boot.follow k) x := by
  rw [bootStepEnd_ends hrun hflow hw hq hv, if_pos hpass, hx]

theorem bootStepEnd_passedOver {x : Work} (hfail : q.pass = false) (hreq : stepRequired k = false)
    (hx : v.boot (fun b => { b with carried := b.carried ++ [(k, e.seq)], ended := b.ended ++ [k] }) = x) :
    bootStepEndWork k r s = Work.runSteps 20 (x.dev.boot.follow k) x := by
  rw [bootStepEnd_ends hrun hflow hw hq hv, if_neg (ne_true_of_eq_false hfail), if_pos hreq, hx]

theorem bootStepEnd_fails {y : Work} (hfail : q.pass = false) (hreq : stepRequired k = true)
    (hy : ((v.boot (fun b => { b with carried := b.carried ++ [(k, e.seq)] })).whenB (k == 10)
      (fun w => w.trained .hm w.variant.stacks (e.method % 2) q.detail q.code)).whenB (k == 11)
      (fun w => w.trained .dd w.variant.channels (e.method % 2) q.detail q.code) = y) : bootStepEndWork k r s
        = if e.attempt = 1 then y.attempt k 2 (1 - e.method % 2)
          else y.boot (fun b => { b with mode := .recovery, failStep := k, failCode := q.code % 256, running := [] }) := by
  rw [bootStepEnd_ends hrun hflow hw hq hv, if_neg (ne_true_of_eq_false hfail), if_neg (ne_false_of_eq_true hreq), hy]

end StepEnds

/-! ### The watchdog, RESTART and RESET_PLAN (R437, R440, R443) -/

/-- The beat on which a running step has run for too long. -/
def stepDue (w : Work) (e : JEntry) : Option Nat :=
  let b := w.dev.boot.startBeat + e.tUs * 250
  if e.step = 7 then (if w.rb pgPm .pmStat 29 then some (max b w.dev.power.rampAt + 7500000000) else none) else some (b + 7500000000)

theorem stepDue_eq_some {w : Work} {e : JEntry} {b : Nat} : stepDue w e = some b ↔
    (if e.step = 7 then w.rb pgPm .pmStat 29 = true ∧ b = max (w.dev.boot.startBeat + e.tUs * 250) w.dev.power.rampAt + 7500000000
      else b = w.dev.boot.startBeat + e.tUs * 250 + 7500000000) := by
  rw [stepDue]
  by_cases h : e.step = 7
  · rw [if_pos h, if_pos h]
    cases w.rb pgPm .pmStat 29 <;> simp [eq_comm]
  · rw [if_neg h, if_neg h, Option.some.injEq, eq_comm]

/-- The step that is due first begins a new start. -/
theorem bootWatchdog_first {w : Work} {b : Nat} (hmem : b ∈ w.dev.boot.running.filterMap (stepDue w))
    (hle : ∀ x ∈ w.dev.boot.running.filterMap (stepDue w), b ≤ x) : bootWatchdogWork w = (w.passTo b).beginStart := by
  simp only [bootWatchdogWork]
  generalize hl : List.filterMap _ _ = l
  obtain rfl : w.dev.boot.running.filterMap (stepDue w) = l := hl
  generalize w.dev.boot.running.filterMap (stepDue w) = l at hmem hle
  cases l with
  | nil => cases hmem
  | cons d l =>
    change (w.passTo (l.foldl min d)).beginStart = _
    rw [foldl_min_eq hmem hle]

theorem writeEffect_restart (w : Work) (who : Agent) (fe : Bool) :
    w.writeEffect pgBt (regOf pgBt .btCtl) 0 who 1 fe = .ok w.restart := by
  change w.writeBtCtl 1 = _
  have h1 : bitOf 1 1 = false := by decide
  have h0 : bitOf 1 0 = true := by decide
  rw [Work.writeBtCtl, h1, h0, need_of_true (c := !(false && _)) rfl]
  rfl

theorem writeEffect_resetPlan {w : Work} (who : Agent) (fe : Bool) (h : w.dev.boot.mode ≠ .booting) :
    w.writeEffect pgBt (regOf pgBt .btCtl) 0 who 2 fe = .ok (w.journalNote 0 5) := by
  change w.writeBtCtl 2 = _
  have h1 : bitOf 2 1 = true := by decide
  have h0 : bitOf 2 0 = false := by decide
  rw [Work.writeBtCtl, h1, h0, decide_eq_false h, need_of_true (c := !(true && false)) rfl]
  rfl

theorem restart_recovery {w : Work} (h : w.dev.boot.mode = .recovery) : w.restart = (w.journalNote 0 5).beginStart := by
  rw [Work.restart, h]
  rfl

theorem restart_plain {w : Work} (h : w.dev.boot.mode ≠ .recovery) : w.restart = w.beginStart := by
  rw [Work.restart, beq_eq_false_iff_ne.mpr h, Work.whenB_false]

/-- Settles O54: a start by its reset, an ended step by its result, and the watchdog by the step that is due first. -/
theorem startsAndBootSteps : Obligations.StartsAndBootSteps := by
  unfold Obligations.StartsAndBootSteps
  intro s
  refine ⟨fun hstate hpg => ⟨fun hperst => ?_, fun hperst => ?_, rfl, rfl, rfl, rfl, rfl, rfl⟩, fun k r e hrun => ?ended, ?watchdog,
    fun who => ⟨fun hacc => ⟨fun h => ?_, fun h => ?_⟩, fun hacc h => ?_⟩⟩
  case ended =>
    intro w q
    refine ⟨fun hm hd => stepResult_good r (badUnits_untrained hm hd), stepResult_good r, stepResult_bad r,
      fun hk hflow => runs_of_work rfl (bootStepEnd_held hrun hk hflow), fun hflow => ?_⟩
    intro sec e' u v carried
    refine ⟨fun hpass => ?_, fun hfail hreq => ?_, fun hfail hreq => ?_⟩
    · have hends := bootStepEnd_passes (s := s.work) (v := v) hrun hflow rfl rfl rfl hpass rfl
      exact ⟨fun hk => runs_of_work rfl (hends.trans (if_pos hk)), fun hk => runs_of_work rfl (hends.trans (if_neg hk))⟩
    · exact runs_of_work rfl (bootStepEnd_passedOver (s := s.work) (v := v) hrun hflow rfl rfl rfl hfail hreq rfl)
    · have hends := bootStepEnd_fails (s := s.work) (v := v) hrun hflow rfl rfl rfl hfail hreq rfl
      exact ⟨fun hfirst => runs_of_work rfl (hends.trans (if_pos hfirst)), fun hsecond => runs_of_work rfl (hends.trans (if_neg hsecond))⟩
  case watchdog =>
    intro due e b he hdue hle
    refine runs_of_work rfl (bootWatchdog_first (List.mem_filterMap.mpr ⟨e, he, stepDue_eq_some.mpr hdue⟩) fun x hx => ?_)
    obtain ⟨f, hf, hfx⟩ := List.mem_filterMap.mp hx
    exact hle f hf x (stepDue_eq_some.mp hfx)
  · exact runs_of_work rfl (beginStart_runs hstate hpg hperst)
  · exact runs_of_work rfl (beginStart_waits hstate hpg hperst)
  · exact runs_poke (c := .restart who) rfl hacc ((writeEffect_restart ..).trans (congrArg Except.ok (restart_recovery h)))
  · exact runs_poke (c := .restart who) rfl hacc ((writeEffect_restart ..).trans (congrArg Except.ok (restart_plain h)))
  · exact runs_poke (c := .resetPlan who) rfl hacc (writeEffect_resetPlan who _ h)

end Sys2Proof
end

section
/-! SUPPORT. Updates, image checks, floors and the test access port (R446, R449, R453, R456). -/

namespace Sys2Proof

open Machine

/-! ### BT_UPD_CTL (R449) -/

section Update

variable {w : Work} {target : Nat}

/-- The word that starts an update. -/
def updateWord (target : Nat) : Word := atBit 1 31 ||| atBit target 0

/-- The view in which an update is in progress. -/
def updateTaken (w : Work) (target : Nat) : Work :=
  (w.storeRw pgBt (regOf pgBt .btUpdCtl) 0 (updateWord target)).boot (fun b => { b with
    updTarget := some target
    updAddr := (w.reg pgBt .btUpdLo).toNat + (w.reg pgBt .btUpdHi).toNat * 2 ^ 32
    updLen := w.rf pgBt .btUpdLen 25 0 })

theorem writeEffect_update (who : Agent) (fe : Bool) (htarget : target = 0 ∨ target = 1)
    (hlo : 6144 ≤ w.rf pgBt .btUpdLen 25 0) (hhi : w.rf pgBt .btUpdLen 25 0 ≤ 33554432) (hfree : w.dev.boot.updTarget = none)
    (hbooting : w.dev.boot.mode ≠ .booting) (hrecovery : target = 1 → w.dev.boot.mode ≠ .recovery) :
    w.writeEffect pgBt (regOf pgBt .btUpdCtl) 0 who (updateWord target) fe = .ok (updateTaken w target) := by
  have hlow : (w.storeRw pgBt (regOf pgBt .btUpdCtl) 0 (updateWord target)).reg pgBt .btUpdLo = w.reg pgBt .btUpdLo :=
    reg_setReg_of_ne (p := pgBt) (q := pgBt) (id := .btUpdCtl) (jd := .btUpdLo) (i := 0) (j := 0) _ rfl (by decide)
  have hhigh : (w.storeRw pgBt (regOf pgBt .btUpdCtl) 0 (updateWord target)).reg pgBt .btUpdHi = w.reg pgBt .btUpdHi :=
    reg_setReg_of_ne (p := pgBt) (q := pgBt) (id := .btUpdCtl) (jd := .btUpdHi) (i := 0) (j := 0) _ rfl (by decide)
  have hgo : bitOf (updateWord target) 31 = true := by rcases htarget with rfl | rfl <;> decide
  have hbit : b2n (bitOf (updateWord target) 0) = target := by rcases htarget with rfl | rfl <;> decide
  have hmode : (bitOf (updateWord target) 0 && decide (w.dev.boot.mode = .recovery)) = false := by
    rcases htarget with rfl | rfl
    · rw [show bitOf (updateWord 0) 0 = false by decide, Bool.false_and]
    · rw [decide_eq_false (hrecovery rfl), Bool.and_false]
  have hlen : (decide (w.rf pgBt .btUpdLen 25 0 < 6144) || decide (33554432 < w.rf pgBt .btUpdLen 25 0)) = false := by
    rw [Bool.or_eq_false_iff, decide_eq_false_iff_not, decide_eq_false_iff_not]
    omega
  change w.writeUpdCtl (regOf pgBt .btUpdCtl) (updateWord target) = _
  rw [Work.writeUpdCtl, hgo, hlen, hfree, decide_eq_false hbooting, hmode, need_of_true (c := !(true && false)) rfl,
    need_of_true (c := !(true && ((none : Option Nat).isSome || false || false))) rfl]
  simp only [if_true, hlow, hhigh, hbit]
  rfl

end Update

/-! ### UPDATE_IMAGE_CHECK (R446, R449) -/

section Check

variable {w v : Work} {target : Nat} {flashError : Bool} (htarget : w.dev.boot.updTarget = some target)
include htarget

theorem updateImageCheck_unread (hread : w.readHost w.dev.boot.updAddr w.dev.boot.updLen = (none, v)) :
    updateImageCheckWork flashError w = v := by
  simp only [updateImageCheckWork, htarget, hread]

variable {l : List PByte} {img : List Byte} (hread : w.readHost w.dev.boot.updAddr w.dev.boot.updLen = (some l, v))
  (himg : l.map (·.1) = img)
include hread himg

theorem updateImageCheck_refused {code : Nat} (hcode : v.imageCode img (target == 1) flashError = some code) :
    updateImageCheckWork flashError w = (v.boot (fun b => { b with updTarget := none, updResult := code })).raise pgBt .imageRefused
      ⟨1, none, codeNone, codeNone, leBytes 1 code⟩ := by
  simp only [updateImageCheckWork, htarget, hread, himg, hcode]

theorem updateImageCheck_accepted (hcode : v.imageCode img (target == 1) flashError = none) : updateImageCheckWork flashError w
    = (let x := v.boot (fun b => { b with updTarget := none, updResult := 1 })
      if target = 1 then x.loadThread img
      else x.boot (fun b => { b with
        flash := (b.flash.filter (fun x => !(x.1 == imgType img && x.2.1 == b.updateSlot (imgType img))))
          ++ [(imgType img, b.updateSlot (imgType img), ⟨imgSec img, byteAt img 6, bytesAt img 16 8, imgBody img⟩)] })) := by
  simp only [updateImageCheckWork, htarget, hread, himg, hcode]

end Check

/-! ### BT_FLOOR_CTL (R453) -/

/-- The word that raises floors. -/
def floorWord (key : Bool) (types : Nat) : Word := atBit (b2n key) 8 ||| atBit types 0

section FloorWord

variable {key : Bool} {types : Nat} (h : types < 64)
include h

theorem toNat_floorWord : (floorWord key types).toNat = b2n key * 256 + types := by
  have hkey : b2n key ≤ 1 := by cases key <;> decide
  rw [floorWord, toNat_or_of_apart 8 (by rw [toNat_atBit]; omega) (by rw [toNat_atBit]; omega), toNat_atBit, toNat_atBit]
  omega

theorem fld_floorWord : fld (floorWord key types) 5 0 = types := by
  rw [fld_eq, toNat_floorWord h]
  omega

theorem bitOf_floorWord : bitOf (floorWord key types) 8 = key := by
  rw [bitOf_eq_decide, toNat_floorWord h]
  cases key
  · exact decide_eq_false (by rw [b2n]; simp; omega)
  · exact decide_eq_true (by rw [b2n]; simp; omega)

theorem writeEffect_floor {w : Work} (who : Agent) (fe : Bool) (hmode : w.dev.boot.mode = .service)
    (htypes : ∀ t < 6, types / 2 ^ t % 2 = 1 → (w.dev.boot.secOf t).isSome = true) :
    w.writeEffect pgBt (regOf pgBt .btFloorCtl) 0 who (floorWord key types) fe = .ok (w.raiseFloors key types fe) := by
  have hall : (List.range 6).any (fun t => types / 2 ^ t % 2 == 1 && (w.dev.boot.secOf t).isNone) = false := by
    refine List.any_eq_false.mpr fun t ht => ?_
    rw [Bool.and_eq_true, beq_iff_eq]
    rintro ⟨hbit, hnone⟩
    have hsome := htypes t (List.mem_range.mp ht) hbit
    rw [Option.isNone_iff_eq_none] at hnone
    rw [hnone] at hsome
    exact Bool.false_ne_true hsome
  change w.writeFloorCtl (floorWord key types) fe = _
  rw [Work.writeFloorCtl, fld_floorWord h, bitOf_floorWord h, need_of_true (decide_eq_true hmode), hall, need_of_true (c := !false) rfl]
  rfl

end FloorWord

theorem raiseFloors_flashError (w : Work) (key : Bool) (types : Nat) : (w.raiseFloors key types true).dev.boot.floors = w.dev.boot.floors := by
  rw [Work.raiseFloors, if_pos rfl, Work.raise_boot]

/-- A floor is raised or left. -/
theorem raiseFloors_le (w : Work) (key : Bool) (types : Nat) (fe : Bool) {t : Nat} (ht : t < 6) :
    w.dev.boot.floors.getD t 0 ≤ (w.raiseFloors key types fe).dev.boot.floors.getD t 0 := by
  cases fe with
  | true => exact Nat.le_of_eq (by rw [raiseFloors_flashError])
  | false =>
    have hfloors : (w.raiseFloors key types false).dev.boot.floors = (List.range 6).map (fun t =>
        if types / 2 ^ t % 2 = 1 then max (w.dev.boot.floors.getD t 0) ((w.dev.boot.secOf t).getD 0) else w.dev.boot.floors.getD t 0) := rfl
    rw [hfloors, List.getD_eq_getElem?_getD, List.getD_eq_getElem?_getD, List.getElem?_map, List.getElem?_range ht]
    dsimp only [Option.map_some, Option.getD_some]
    rw [← List.getD_eq_getElem?_getD]
    split
    · exact Nat.le_max_left _ _
    · exact Nat.le_refl _

/-- Settles O55: the two accepted writes by their effects, the check by the image's code. -/
theorem updatesAreCheckedAndFloorsRise : Obligations.UpdatesAreCheckedAndFloorsRise := by
  unfold Obligations.UpdatesAreCheckedAndFloorsRise
  intro s
  refine ⟨fun who target i hi hacc hlo hhi hfree hbooting hrecovery => ?update, fun target flashError htarget => ?check,
    fun who key types flashError htypes hacc hmode hsec => ⟨?floor, fun t ht => raiseFloors_le s.work _ _ _ ht, ?guarded⟩,
    runsTo_of_runs (runs_of_work (f := tapWork) rfl rfl) rfl⟩
  case update =>
    simp only [List.mem_cons, List.not_mem_nil, or_false, Prod.mk.injEq] at hi
    rcases hi with ⟨rfl, rfl⟩ | ⟨rfl, rfl⟩
    · exact runs_poke (c := .updateFlash who) rfl hacc (writeEffect_update who _ (.inl rfl) hlo hhi hfree hbooting hrecovery)
    · exact runs_poke (c := .updateThread who) rfl hacc (writeEffect_update who _ (.inr rfl) hlo hhi hfree hbooting hrecovery)
  case check =>
    intro x w img
    refine ⟨fun hx => runs_of_work rfl (updateImageCheck_unread htarget (Prod.ext hx rfl)), fun hx => ?_⟩
    obtain ⟨l, hl⟩ := Option.isSome_iff_exists.mp hx
    have himg : l.map (·.1) = img := by rw [show img = (x.1.getD []).map (·.1) from rfl, hl, Option.getD_some]
    have hread : s.work.readHost s.dev.boot.updAddr s.dev.boot.updLen = (some l, w) := Prod.ext hl rfl
    refine ⟨fun code hcode => runs_of_work rfl (updateImageCheck_refused htarget hread himg hcode), fun hcode => ?_⟩
    have hrun := updateImageCheck_accepted (w := s.work) htarget hread himg hcode
    exact ⟨fun ht => runs_of_work rfl (hrun.trans (if_pos ht)), fun ht => runs_of_work rfl (hrun.trans (if_neg ht))⟩
  case floor => exact runs_poke (c := .floorRaise who key types flashError) rfl hacc (writeEffect_floor htypes who flashError hmode hsec)
  case guarded =>
    rintro rfl
    exact raiseFloors_flashError s.work key types

end Sys2Proof
end

section
/-! SUPPORT. Snapshots, the error log and the counters (R122, R482 to R493). -/

namespace Sys2Proof

open Machine

/-! ### SK_CTL (R483, R484, R496) -/

theorem whenB_of_set {w : Work} {c : Bool} {f : Work → Work} (h : c = true) : w.whenB c f = f w := by rw [h]; rfl

theorem whenB_of_clear {w : Work} {c : Bool} {f : Work → Work} (h : c = false) : w.whenB c f = w := by rw [h]; rfl

/-- A write that does not arm while a time stays armed is taken: DISARM acts first, then RELEASE, ARM_AT and TRIGGER. -/
theorem writeSkCtl_ok {w w3 w2 w1 w0 : Work} {v : Word} (h : (bitOf v 1 && w.dev.stock.armed.isSome && !bitOf v 3) = false)
    (h3 : w.whenB (bitOf v 3) Work.disarm = w3) (h2 : w3.whenB (bitOf v 2) (fun w => w.setRf pgSk .skStat 30 30 0) = w2)
    (h1 : w2.whenB (bitOf v 1) Work.armAt = w1) (h0 : w1.whenB (bitOf v 0) (fun w => w.trigger 1) = w0) :
    w.writeSkCtl v = .ok w0 := by
  subst h3 h2 h1 h0
  rw [Work.writeSkCtl, h]
  rfl

theorem writeSkCtl_refused {w : Work} {v : Word} (h : (bitOf v 1 && w.dev.stock.armed.isSome && !bitOf v 3) = true) :
    w.writeSkCtl v = .error .state := by
  rw [Work.writeSkCtl, h]
  rfl

/-- An accepted write of SK_CTL that is not refused does what its four bits ask for, DISARM first. -/
theorem runs_skCtl {c : Instr} {s : State} {who : Agent} {v : Word} {x : Work} (hexec : exec c s = s.run (skCtlWork who v))
    (hacc : Accepted s who pgSk .skCtl 0 v) (heff : s.work.writeSkCtl v = .ok x) : Runs c s x :=
  runs_poke (c := c) hexec hacc heff

theorem trigger_of_held {w : Work} {source : Nat} (h : w.rb pgSk .skStat 30 = true) : w.trigger source = w.count pgSk 2 := by
  rw [Work.trigger, if_pos h]

theorem trigger_of_pending {w : Work} {source : Nat} (h : w.rb pgSk .skStat 30 = false) (hpending : w.dev.stock.pending ≠ []) :
    w.trigger source = w.count pgSk 1 := by
  rw [Work.trigger, h, if_neg Bool.false_ne_true, if_pos hpending]

theorem trigger_of_idle {w : Work} {source : Nat} (h : w.rb pgSk .skStat 30 = false) (hpending : w.dev.stock.pending = []) :
    w.trigger source = w.upd (fun d => { d with stock := { d.stock with pending := [⟨d.beat + 24, source, false⟩] } }) := by
  rw [Work.trigger, h, if_neg Bool.false_ne_true, if_neg (not_not_intro hpending)]

theorem armAt_ahead {w : Work} (h : w.dev.time + 96 ≤ roundUp w.skAt 4) :
    w.armAt = w.stock (fun s => { s with armed := some (roundUp w.skAt 4), armLate := false }) := if_pos h

theorem armAt_late {w : Work} (h : roundUp w.skAt 4 < w.dev.time + 96) :
    w.armAt = w.stock (fun s => { s with
      armed := some (roundUp w.skAt 4), armLate := true, pending := s.pending ++ [⟨w.dev.beat + 24, 3, true⟩] }) :=
  if_neg (Nat.not_le.mpr h)

theorem skTrigger_effect (w : Work) : w.writeSkCtl 1 = .ok (w.trigger 1) := by
  obtain ⟨h0, h1, h2, h3⟩ : bitOf 1 0 = true ∧ bitOf 1 1 = false ∧ bitOf 1 2 = false ∧ bitOf 1 3 = false := by decide
  exact writeSkCtl_ok (by rw [h1]; rfl) (whenB_of_clear h3) (whenB_of_clear h2) (whenB_of_clear h1) (whenB_of_set h0)

theorem skArmAt_effect {w : Work} (harmed : w.dev.stock.armed = none) : w.writeSkCtl 2 = .ok w.armAt := by
  obtain ⟨h0, h1, h2, h3⟩ : bitOf 2 0 = false ∧ bitOf 2 1 = true ∧ bitOf 2 2 = false ∧ bitOf 2 3 = false := by decide
  exact writeSkCtl_ok (by rw [h1, h3, harmed]; rfl) (whenB_of_clear h3) (whenB_of_clear h2) (whenB_of_set h1) (whenB_of_clear h0)

theorem skArmAt_refused {w : Work} (harmed : w.dev.stock.armed.isSome = true) : w.writeSkCtl 2 = .error .state := by
  obtain ⟨h1, h3⟩ : bitOf 2 1 = true ∧ bitOf 2 3 = false := by decide
  exact writeSkCtl_refused (by rw [h1, h3, harmed]; rfl)

theorem skRearm_effect (w : Work) : w.writeSkCtl 10 = .ok w.disarm.armAt := by
  obtain ⟨h0, h1, h2, h3⟩ : bitOf 10 0 = false ∧ bitOf 10 1 = true ∧ bitOf 10 2 = false ∧ bitOf 10 3 = true := by decide
  exact writeSkCtl_ok (by rw [h3]; exact Bool.and_false _) (whenB_of_set h3) (whenB_of_clear h2) (whenB_of_set h1) (whenB_of_clear h0)

theorem skDisarm_effect (w : Work) : w.writeSkCtl 8 = .ok w.disarm := by
  obtain ⟨h0, h1, h2, h3⟩ : bitOf 8 0 = false ∧ bitOf 8 1 = false ∧ bitOf 8 2 = false ∧ bitOf 8 3 = true := by decide
  exact writeSkCtl_ok (by rw [h1]; rfl) (whenB_of_set h3) (whenB_of_clear h2) (whenB_of_clear h1) (whenB_of_clear h0)

theorem skRelease_effect (w : Work) : w.writeSkCtl 4 = .ok (w.setRf pgSk .skStat 30 30 0) := by
  obtain ⟨h0, h1, h2, h3⟩ : bitOf 4 0 = false ∧ bitOf 4 1 = false ∧ bitOf 4 2 = true ∧ bitOf 4 3 = false := by decide
  exact writeSkCtl_ok (by rw [h1]; rfl) (whenB_of_clear h3) (whenB_of_set h2) (whenB_of_clear h1) (whenB_of_clear h0)

/-- What the five commands that write SK_CTL do. -/
theorem skCtl_commands (s : State) (who : Agent) :
    (Accepted s who pgSk .skCtl 0 1 → Runs (.skTrigger who) s (s.work.trigger 1))
    ∧ (Accepted s who pgSk .skCtl 0 2 → s.dev.stock.armed = none → Runs (.skArmAt who false) s s.work.armAt)
    ∧ (Accepted s who pgSk .skCtl 0 2 → s.dev.stock.armed.isSome = true →
      Runs (.skArmAt who false) s (s.work.reject pgSk who (at_ pgSk .skCtl % 0x1000) .state))
    ∧ (Accepted s who pgSk .skCtl 0 10 → Runs (.skArmAt who true) s s.work.disarm.armAt)
    ∧ (Accepted s who pgSk .skCtl 0 8 → Runs (.skDisarm who) s s.work.disarm)
    ∧ (Accepted s who pgSk .skCtl 0 4 → Runs (.skRelease who) s (s.work.setRf pgSk .skStat 30 30 0)) := by
  refine ⟨fun hacc => ?_, fun hacc harmed => ?_, fun hacc harmed => ?_, fun hacc => ?_, fun hacc => ?_, fun hacc => ?_⟩
  · exact runs_skCtl (c := .skTrigger who) rfl hacc (skTrigger_effect _)
  · exact runs_skCtl (c := .skArmAt who false) rfl hacc (skArmAt_effect harmed)
  · exact runs_poke_error (c := .skArmAt who false) (v := 2) rfl hacc (skArmAt_refused (w := s.work) harmed)
  · exact runs_skCtl (c := .skArmAt who true) rfl hacc (skRearm_effect _)
  · exact runs_skCtl (c := .skDisarm who) rfl hacc (skDisarm_effect _)
  · exact runs_skCtl (c := .skRelease who) rfl hacc (skRelease_effect _)

/-! ### The order, the latch and the log (R483 to R486, R491, R492) -/

theorem skAtOrder_of_armed {w : Work} {t : Nat} (harmed : w.dev.stock.armed = some t)
    (hpending : w.dev.stock.pending.any (·.timed) = false) (hcounting : w.dev.counting = true) :
    skAtOrderWork w = (w.passToTime (t - 96)).stock (fun x => { x with
      pending := x.pending ++ [⟨(w.passToTime (t - 96)).dev.beat + (w.passToTime (t - 96)).beatsTo t, 3, true⟩] }) := by
  simp only [skAtOrderWork, harmed]
  exact if_neg (by rw [hpending, hcounting]; simp)

section Latch

variable {w : Work} {p : Pending}

/-- The view in which the pending snapshot's beat has come. -/
def latchTurn (w : Work) (p : Pending) : Work := (w.passTo p.beat).stock (fun x => { x with pending := x.pending.erase p })

theorem snapshotLatch_of_held (hfirst : firstPending w.dev.stock.pending = some p) (htimed : p.timed = true)
    (hheld : (latchTurn w p).rb pgSk .skStat 30 = true) :
    snapshotLatchWork w = ((latchTurn w p).stock (fun x => { x with armed := none, armLate := false })).count pgSk 2 := by
  simp only [snapshotLatchWork, hfirst]
  exact if_pos ⟨htimed, hheld⟩

theorem snapshotLatch_of_free (hfirst : firstPending w.dev.stock.pending = some p)
    (h : p.timed = false ∨ (latchTurn w p).rb pgSk .skStat 30 = false) : snapshotLatchWork w = (latchTurn w p).latch p := by
  simp only [snapshotLatchWork, hfirst]
  refine if_neg fun ⟨htimed, hheld⟩ => ?_
  rcases h with h | h
  · exact Bool.false_ne_true (h.symm.trans htimed)
  · exact Bool.false_ne_true (h.symm.trans hheld)

/-- A pulse keeps the snapshots. -/
theorem pulseSource_stock (w : Work) (src : Nat) : (w.pulseSource src).dev.stock = w.dev.stock := by
  refine Work.each_keeps (·.dev.stock) (fun k u => ?_) _ w
  exact whenB_keeps (g := (·.dev.stock)) (f := fun w => w.pulse (k + 1)) (fun _ => rfl) u

/-- And so does a write of a register. -/
theorem setReg_stock (w : Work) (p : Page) (id : RegId) (x : Word) (i : Nat) : (w.setReg p id x i).dev.stock = w.dev.stock := rfl

theorem setRf_stock (w : Work) (p : Page) (id : RegId) (hi lo x i : Nat) : (w.setRf p id hi lo x i).dev.stock = w.dev.stock := rfl

theorem stock_dev (w : Work) (f : Stock → Stock) : (w.stock f).dev.stock = f w.dev.stock := rfl

/-- The snapshot is kept by all that the latch does after it is taken. -/
theorem latch_snap (w : Work) (p : Pending) :
    (w.latch p).dev.stock.snap = some ⟨w.reg pgSk .skSeq + 1, w.dev.time, w.allStats, w.gatedPages, w.dev.ctrs⟩ := by
  unfold Work.latch
  extract_lets -underBinder seq t late snap w1 w2 w3 w4 w5 w6 w7 w8
  have htaken : w5.dev.stock.snap = some snap := by
    simp only [w5, w4, w3, w2, w1, setRf_stock, setReg_stock, stock_dev]
  have htimed : w6.dev.stock.snap = w5.dev.stock.snap :=
    whenB_keeps (g := (·.dev.stock.snap)) (fun u => by simp only [stock_dev, setRf_stock]) w5
  have hheld : w7.dev.stock.snap = w6.dev.stock.snap :=
    whenB_keeps (g := (·.dev.stock.snap)) (fun u => by simp only [setRf_stock]) w6
  have hcounted : w8.dev.stock = w7.dev.stock := Work.count_stock ..
  rw [pulseSource_stock, hcounted, hheld, htimed, htaken]

end Latch

section Log

variable {w : Work} {r : ErrRec} {rest : List ErrRec} {p : Page}

/-- The view in which the oldest queued record's turn has come. -/
def logTurn (w : Work) (rest : List ErrRec) : Work :=
  (w.passTo w.dev.stock.logAt).stock (fun x => { x with queue := rest, logAt := (w.passTo w.dev.stock.logAt).dev.beat + 1 })

/-- The view in which the record stands in the ring and the head has advanced. -/
def logged (w : Work) (r : ErrRec) : Work :=
  (w.stock (fun x => { x with log := put [] ((w.reg pgSk .skLogHead).toNat % 4096) r.bytes x.log })).setReg pgSk .skLogHead
    (w.reg pgSk .skLogHead + 1)

theorem logWrite_of_full (hqueue : w.dev.stock.queue = r :: rest)
    (hfull : serialDiff ((logTurn w rest).reg pgSk .skLogHead).toNat ((logTurn w rest).reg pgSk .skLogTail).toNat = 4096) :
    logWriteWork w = (logTurn w rest).count pgSk 4 := by
  simp only [logWriteWork, hqueue]
  exact if_pos hfull

theorem logWrite_of_room (hqueue : w.dev.stock.queue = r :: rest) (hpage : pageAt r.page = some p)
    (hroom : serialDiff ((logTurn w rest).reg pgSk .skLogHead).toNat ((logTurn w rest).reg pgSk .skLogTail).toNat ≠ 4096) :
    logWriteWork w = (logged (logTurn w rest) r).whenB
      (!(logged (logTurn w rest) r).rb p .errFirst 31 && (logged (logTurn w rest) r).reg p .errStat != 0)
      (fun v => v.setReg p .errFirst (atBit 1 31 ||| atBit (((logTurn w rest).reg pgSk .skLogHead).toNat % 4096 * 32) 0)) := by
  simp only [logWriteWork, hqueue, hpage]
  exact if_neg hroom

end Log

/-! ### Counters (R122, R488, R489) -/

section Counter

variable {w : Work} {fn i : Nat} {p : Page} {r : Reg} {off : Nat}

/-- The control word that clears a page's counters and stores FREEZE. -/
def clearWord (freeze : Bool) : Word := 1 ||| atBit (b2n freeze) 1

theorem bitOf_clearWord (freeze : Bool) : bitOf (clearWord freeze) 0 = true := by cases freeze <;> decide

theorem writeEffect_clear (w : Work) (who : Agent) (freeze fe : Bool) (hid : r.id = .cntCtl) :
    w.writeEffect p r 0 who (clearWord freeze) fe = .ok ((w.storeRw p r 0 (clearWord freeze)).clearCounters p) := by
  simp only [Work.writeEffect, hid, Work.writeCntCtl, bitOf_clearWord, Work.whenB_true]

/-- COUNTER_CLEAR clears the page's counters as its control word is stored, and all of them read zero. -/
theorem runs_counterClear {s : State} {who : Agent} {page : Nat} {freeze : Bool} (hoff : cntCtlOff page = at_ p .cntCtl)
    (hacc : Accepted s who p .cntCtl 0 (clearWord freeze)) :
    Runs (.counterClear who page freeze) s ((s.work.storeRw p (regOf p .cntCtl) 0 (clearWord freeze)).clearCounters p) := by
  have hexec : exec (.counterClear who page freeze) s = s.run (fun w => w.poke who (at_ p .cntCtl) (clearWord freeze)) :=
    hoff ▸ rfl
  exact runs_poke (c := .counterClear who page freeze) hexec hacc (writeEffect_clear s.work who freeze false hacc.name)

theorem clearCounters_look (w : Work) (p : Page) {k : Nat} (hlo : p.base ≤ k) (hhi : k < p.base + 0x1000) :
    look (0, false) k (w.clearCounters p).dev.ctrs = (0, false) :=
  (look_dropRange ..).trans (if_pos ⟨hlo, hhi⟩)

/-- A read by a function that sees the register takes the latch of the high word. -/
theorem readReg_seen (hpage : pageAt off = some p) (hfound : findReg (pageRegs p.block) (off % 0x1000) = some (r, i))
    (hpresent : p.present (w.count pgPx 0).variant = true) (honline : (w.count pgPx 0).pageOffline (some p) = false)
    (hsee : (w.count pgPx 0).maySee p r i (.fn fn) = true) (hon : (w.count pgPx 0).pageOn p = true) :
    (r.id = .cntLo → w.readReg off (.fn fn) =
      (w.peek off (.fn fn), (w.count pgPx 0).latchHi (off + 4) (.fn fn) ((w.count pgPx 0).value p .cntHi i (.fn fn))))
    ∧ (r.id = .crTimeLo → w.readReg off (.fn fn) =
      (w.peek off (.fn fn), (w.count pgPx 0).latchHi (off + 4) (.fn fn) ((w.count pgPx 0).value p .crTimeHi i (.fn fn)))) := by
  constructor <;> intro hid <;> simp only [Work.readReg, hpage, hfound, hpresent, honline, hsee, hon, hid] <;>
    exact if_neg (by simp)

/-- What an answering function reads of a DWORD leaves the device as a completion. -/
theorem counterLoRead_fn {u : Work} {v : Word} (hans : w.answers (.fn fn) = true) (halign : off % 4 = 0)
    (hread : w.readReg off (.fn fn) = (v, u)) :
    counterLoReadWork (.fn fn) off w = u.say (.completion fn (leBytes 4 v.toNat) false) := by
  rw [counterLoReadWork, if_pos hans, Nat.div_mul_cancel (Nat.dvd_of_mod_eq_zero halign), hread]

end Counter

/-- Settles O58: the commands of SK_CTL by the bits they write, the order and the latch of the first pending snapshot, the turn of the
oldest queued record, and the counters by their control word and by the latch a read takes. -/
theorem snapshotsLogAndCounters : Obligations.SnapshotsLogAndCounters := by
  unfold Obligations.SnapshotsLogAndCounters
  intro s
  refine ⟨fun who => ?_, fun t harmed hpending hcounting => ?_, fun p hfirst => ⟨fun htimed hheld => ?_, fun h => ⟨?_, ?_⟩⟩,
    fun r rest hqueue => ⟨fun hfull => ?_, fun p hroom hpage => ?_⟩, fun who p page freeze hoff hacc => ⟨?_, fun k hlo hhi => ?_⟩,
    fun fn i p r hans hpage hfound halign hpresent _ _ _ => ?_⟩
  · obtain ⟨htrigger, harm, hrefused, hrearm, hdisarm, hrelease⟩ := skCtl_commands s who
    refine ⟨fun hacc => ⟨fun hheld => ?_, fun hheld hpending => ?_, fun hheld hpending => ?_⟩,
      fun hacc harmed => ⟨fun hahead => ?_, fun hlate => ?_⟩, fun hacc harmed => ?_, hrearm, fun hacc => ?_, hrelease⟩
    · exact trigger_of_held (w := s.work) hheld ▸ htrigger hacc
    · exact trigger_of_pending (w := s.work) hheld hpending ▸ htrigger hacc
    · exact runsTo_of_runs (trigger_of_idle (w := s.work) hheld hpending ▸ htrigger hacc) rfl
    · exact runsTo_of_runs (armAt_ahead (w := s.work) hahead ▸ harm hacc harmed) rfl
    · exact runsTo_of_runs (armAt_late (w := s.work) hlate ▸ harm hacc harmed) rfl
    · have h := runsTo_of_runs (hrefused hacc harmed) rfl
      rwa [reject_dev, rejWord_pageOffset] at h
    · exact runsTo_of_runs (hdisarm hacc) rfl
  · exact runs_of_work rfl (skAtOrder_of_armed (w := s.work) harmed hpending hcounting)
  · exact runs_of_work rfl (snapshotLatch_of_held (w := s.work) hfirst htimed hheld)
  · exact runs_of_work rfl (snapshotLatch_of_free (w := s.work) hfirst h)
  · exact latch_snap ..
  · exact runs_of_work rfl (logWrite_of_full (w := s.work) hqueue hfull)
  · exact runs_of_work rfl (logWrite_of_room (w := s.work) hqueue hpage hroom)
  · exact runs_counterClear hoff hacc
  · exact clearCounters_look _ p hlo hhi
  · intro off w
    constructor
    · intro hid hvariant honline hsee hon
      exact runs_of_work rfl (counterLoRead_fn hans halign
        ((readReg_seen (w := s.work) hpage hfound (by rwa [hvariant]) honline hsee hon).1 hid))
    · intro hid hoff hvariant honline hsee hon
      have hwork := counterLoRead_fn hans halign
        ((readReg_seen (w := s.work) hpage hfound (by rwa [hvariant]) honline hsee hon).2 hid)
      refine runs_of_work rfl ((congrArg (counterLoReadWork (.fn fn) · s.work) hoff.symm).trans hwork)

end Sys2Proof
end
